-- ==== Sys2Proof/Word.lean ====
section
/-!
DEFINITION. The words the machine is made of, and the plainest arithmetic on them (R1, R7).
-/

namespace Sys2Proof

/-- A byte. -/
abbrev Byte := BitVec 8

/-- A 64-bit scalar register or special register. -/
abbrev W64 := BitVec 64

/-- A 256-bit vector register. -/
abbrev V256 := BitVec 256

/-- Bits `hi` down to `lo` of a natural number: `x<hi:lo>` of R1. -/
def bits (x hi lo : Nat) : Nat := x / 2 ^ lo % 2 ^ (hi + 1 - lo)

/-- Bit `n` of a natural number. -/
def bit (x n : Nat) : Bool := x.testBit n

/-- The two's complement value of the low `w` bits of a natural (SignExt of R7). -/
def toSigned (w x : Nat) : Int :=
  let y := x % 2 ^ w
  if 2 * y < 2 ^ w then (y : Int) else (y : Int) - (2 ^ w : Nat)

/-- The `w`-bit two's complement pattern of an integer. -/
def ofSigned (w : Nat) (x : Int) : Nat := (x % (2 ^ w : Nat)).toNat

/-- 64-bit word of an integer, wrapping. -/
def w64 (x : Int) : W64 := BitVec.ofInt 64 x

/-- 64-bit word of a natural, wrapping. -/
def n64 (x : Nat) : W64 := BitVec.ofNat 64 x

end Sys2Proof
end

