-- ==== Sys2Proof/Syntax.lean ====
section
/-!
DEFINITION. The instructions of the KN-8100 (Sawen instruction set): one constructor for each row of the opcode table.

The 228 32-bit words and the 18 16-bit words carry the fields of their row under the row's own field names
(R82 to R93): register numbers, sizes and selectors are naturals, signed immediates are integers, each at the
value the field holds (a displacement is counted in halfwords, as in the word).
The 118 rows without an encoding are happenings of the machine (a tick, an arrival, a completion, a store to a
device register with a row of its own); what names the happening stands in `Machine.State.args` when it runs, in the order
its constructor's comment gives: `ag` an executing agent (`Machine.Agent.code`), `id` a message under way, `core`, `part`,
`car`, `slice`, `quad`, `col`, `port`, `link` the unit's number, `v` or `data` a value.
-/

namespace Sys2Proof

/-- One constructor for each row of the opcode table, in the table's order. -/
inductive Instr where
  /-- ADD (R103). -/
  | add (d a b : Nat)
  /-- SUB (R103). -/
  | sub (d a b : Nat)
  /-- AND (R103). -/
  | and (d a b : Nat)
  /-- OR (R103). -/
  | or (d a b : Nat)
  /-- XOR (R103). -/
  | xor (d a b : Nat)
  /-- ANDN (R103). -/
  | andn (d a b : Nat)
  /-- SLL (R103). -/
  | sll (d a b : Nat)
  /-- SRL (R103). -/
  | srl (d a b : Nat)
  /-- SRA (R103). -/
  | sra (d a b : Nat)
  /-- SLT (R103). -/
  | slt (d a b : Nat)
  /-- SLTN (R103). -/
  | sltn (d a b : Nat)
  /-- MIN (R103). -/
  | min (d a b : Nat)
  /-- MAX (R103). -/
  | max (d a b : Nat)
  /-- MINN (R103). -/
  | minn (d a b : Nat)
  /-- MAXN (R103). -/
  | maxn (d a b : Nat)
  /-- ADDV (R104). -/
  | addv (d a b : Nat)
  /-- SUBV (R104). -/
  | subv (d a b : Nat)
  /-- CLZ (R103). -/
  | clz (d a : Nat)
  /-- CTZ (R103). -/
  | ctz (d a : Nat)
  /-- POPC (R103). -/
  | popc (d a : Nat)
  /-- SEXT_B (R103). -/
  | sextB (d a : Nat)
  /-- SEXT_H (R103). -/
  | sextH (d a : Nat)
  /-- SEXT_W (R103). -/
  | sextW (d a : Nat)
  /-- ZEXT_B (R103). -/
  | zextB (d a : Nat)
  /-- ZEXT_H (R103). -/
  | zextH (d a : Nat)
  /-- ZEXT_W (R103). -/
  | zextW (d a : Nat)
  /-- MUL (R103). -/
  | mul (d a b : Nat)
  /-- MULH (R103). -/
  | mulh (d a b : Nat)
  /-- MULHN (R103). -/
  | mulhn (d a b : Nat)
  /-- MULV (R104). -/
  | mulv (d a b : Nat)
  /-- DIV (R105). -/
  | div (d a b : Nat)
  /-- DIVN (R105). -/
  | divn (d a b : Nat)
  /-- REM (R105). -/
  | rem (d a b : Nat)
  /-- REMN (R105). -/
  | remn (d a b : Nat)
  /-- ADDI (R106). -/
  | addi (d a : Nat) (i : Int)
  /-- ANDI (R106). -/
  | andi (d a : Nat) (i : Int)
  /-- ORI (R106). -/
  | ori (d a : Nat) (i : Int)
  /-- XORI (R106). -/
  | xori (d a : Nat) (i : Int)
  /-- SLLI (R106). -/
  | slli (d a h : Nat)
  /-- SRLI (R106). -/
  | srli (d a h : Nat)
  /-- SRAI (R106). -/
  | srai (d a h : Nat)
  /-- SLTI (R106). -/
  | slti (d a : Nat) (i : Int)
  /-- SLTNI (R106). -/
  | sltni (d a : Nat) (i : Int)
  /-- LI (R107). -/
  | li (d : Nat) (i : Int)
  /-- LIS (R107). -/
  | lis (d i : Nat)
  /-- OXW (R108). -/
  | oxw (d a : Nat)
  /-- OXR (R108). -/
  | oxr (d a : Nat)
  /-- OXI (R108). -/
  | oxi (d : Nat) (i : Int)
  /-- BEQ (R109). -/
  | beq (a b : Nat) (i : Int)
  /-- BNE (R109). -/
  | bne (a b : Nat) (i : Int)
  /-- BLT (R109). -/
  | blt (a b : Nat) (i : Int)
  /-- BGE (R109). -/
  | bge (a b : Nat) (i : Int)
  /-- BLTN (R109). -/
  | bltn (a b : Nat) (i : Int)
  /-- BGEN (R109). -/
  | bgen (a b : Nat) (i : Int)
  /-- JAL (R110). -/
  | jal (d : Nat) (i : Int)
  /-- JALR (R110). -/
  | jalr (d a : Nat) (i : Int)
  /-- LSETUP (R112). -/
  | lsetup (n a i : Nat)
  /-- LSETUPI (R112). -/
  | lsetupi (n c i : Nat)
  /-- MFS (R120). -/
  | mfs (d r : Nat)
  /-- MTS (R120). -/
  | mts (a r : Nat)
  /-- MSET (R120). -/
  | mset (a r : Nat)
  /-- MCLR (R120). -/
  | mclr (a r : Nat)
  /-- START (R160). -/
  | start (a b c : Nat)
  /-- RETIRE (R161). -/
  | retire
  /-- YIELD (R162). -/
  | yield
  /-- JOIN (R163). -/
  | join (a : Nat)
  /-- SAFE (R33). -/
  | safe (i : Nat)
  /-- MPOST (R165). -/
  | mpost (a b c : Nat)
  /-- TRAP (R366). -/
  | trap (i : Nat)
  /-- BRK (R366). -/
  | brk (i : Nat)
  /-- ERET (R367). -/
  | eret
  /-- URET (R169). -/
  | uret
  /-- WFI (R368). -/
  | wfi
  /-- IFENCE (R137). -/
  | ifence
  /-- CHUNK (R137). -/
  | chunk
  /-- FENCE_S (R137). -/
  | fenceS
  /-- FENCE_F (R137). -/
  | fenceF
  /-- NOP (R91). -/
  | nop
  /-- PLBW (R383). -/
  | plbw (a b : Nat)
  /-- PLBINV (R384). -/
  | plbinv (a : Nat)
  /-- LD (R127). -/
  | ld (d a s : Nat) (i : Int)
  /-- LD_SIGNED (R127). -/
  | ldSigned (d a s : Nat) (i : Int)
  /-- LDX (R127). -/
  | ldx (d a s b : Nat)
  /-- LDX_SIGNED (R127). -/
  | ldxSigned (d a s b : Nat)
  /-- ST (R127). -/
  | st (d a s : Nat) (i : Int)
  /-- STX (R127). -/
  | stx (d a s b : Nat)
  /-- LDP (R128). -/
  | ldp (d a s p : Nat) (i : Int)
  /-- STP (R128). -/
  | stp (d a s p : Nat) (i : Int)
  /-- PSET (R129). -/
  | pset (d a : Nat)
  /-- PGET (R129). -/
  | pget (d a : Nat)
  /-- PADD (R129). -/
  | padd (d a : Nat)
  /-- PCFG (R129). -/
  | pcfg (d a : Nat)
  /-- AMO_ADD (R130). -/
  | amoAdd (d a b w : Nat)
  /-- AMO_AND (R130). -/
  | amoAnd (d a b w : Nat)
  /-- AMO_OR (R130). -/
  | amoOr (d a b w : Nat)
  /-- AMO_XOR (R130). -/
  | amoXor (d a b w : Nat)
  /-- AMO_MIN (R130). -/
  | amoMin (d a b w : Nat)
  /-- AMO_MAX (R130). -/
  | amoMax (d a b w : Nat)
  /-- AMO_MINN (R130). -/
  | amoMinn (d a b w : Nat)
  /-- AMO_MAXN (R130). -/
  | amoMaxn (d a b w : Nat)
  /-- AMO_SWAP (R130). -/
  | amoSwap (d a b w : Nat)
  /-- CAS (R130). -/
  | cas (d a b w : Nat)
  /-- MRED_ADD (R132). -/
  | mredAdd (d a b t : Nat)
  /-- MRED_MIN (R132). -/
  | mredMin (d a b t : Nat)
  /-- MRED_MAX (R132). -/
  | mredMax (d a b t : Nat)
  /-- MCAS (R132). -/
  | mcas (d a b t : Nat)
  /-- MSCA (R132). -/
  | msca (d a b : Nat)
  /-- PREF_L1 (R135). -/
  | prefL1 (a : Nat) (i : Int)
  /-- PREF_L2 (R135). -/
  | prefL2 (a : Nat) (i : Int)
  /-- CLEAN (R136). -/
  | clean (a : Nat) (i : Int)
  /-- DEAD (R135). -/
  | dead (a : Nat) (i : Int)
  /-- SENDR (R179). -/
  | sendr (d a b : Nat)
  /-- SENDR_ARM (R178). -/
  | sendrArm (d : Nat)
  /-- PUTQ (R181). -/
  | putq (d a b : Nat)
  /-- IBPOP (R175). -/
  | ibpop (d : Nat)
  /-- IBLEN (R176). -/
  | iblen (d : Nat)
  /-- WSMSG (R184). -/
  | wsmsg (d a b : Nat)
  /-- CPY (R195). -/
  | cpy (d a b : Nat)
  /-- CPY2D (R195). -/
  | cpy2d (d a b : Nat)
  /-- GATH (R195). -/
  | gath (d a b : Nat)
  /-- SCAT (R195). -/
  | scat (d a b : Nat)
  /-- ENGQ (R198). -/
  | engq (d a : Nat)
  /-- ENGRST (R198). -/
  | engrst (d a : Nat)
  /-- FADD (R142). -/
  | fadd (d a b : Nat)
  /-- FSUB (R142). -/
  | fsub (d a b : Nat)
  /-- FMUL (R142). -/
  | fmul (d a b : Nat)
  /-- FDIV (R142). -/
  | fdiv (d a b : Nat)
  /-- FSQRT (R142). -/
  | fsqrt (d a : Nat)
  /-- FMIN (R143). -/
  | fmin (d a b : Nat)
  /-- FMAX (R143). -/
  | fmax (d a b : Nat)
  /-- FABS (R142). -/
  | fabs (d a : Nat)
  /-- FNEG (R142). -/
  | fneg (d a : Nat)
  /-- FSGNJ (R142). -/
  | fsgnj (d a b : Nat)
  /-- FEQ (R142). -/
  | feq (d a b : Nat)
  /-- FLT (R142). -/
  | flt (d a b : Nat)
  /-- FLE (R142). -/
  | fle (d a b : Nat)
  /-- FCLASS (R143). -/
  | fclass (d a : Nat)
  /-- FCVT (R146). -/
  | fcvt (d a t s : Nat)
  /-- FMA (R145). -/
  | fma (d a b c : Nat)
  /-- FMS (R145). -/
  | fms (d a b c : Nat)
  /-- FNMA (R145). -/
  | fnma (d a b c : Nat)
  /-- VADD (R147). -/
  | vadd (d a b w s : Nat)
  /-- VSUB (R147). -/
  | vsub (d a b w s : Nat)
  /-- VMUL (R147). -/
  | vmul (d a b w : Nat)
  /-- VMIN (R147). -/
  | vmin (d a b w u : Nat)
  /-- VMAX (R147). -/
  | vmax (d a b w u : Nat)
  /-- VAND (R147). -/
  | vand (d a b w : Nat)
  /-- VOR (R147). -/
  | vor (d a b w : Nat)
  /-- VXOR (R147). -/
  | vxor (d a b w : Nat)
  /-- VSLL (R147). -/
  | vsll (d a b w : Nat)
  /-- VSRL (R147). -/
  | vsrl (d a b w : Nat)
  /-- VSRA (R147). -/
  | vsra (d a b w : Nat)
  /-- VCMPEQ (R147). -/
  | vcmpeq (d a b w : Nat)
  /-- VCMPLT (R147). -/
  | vcmplt (d a b w u : Nat)
  /-- VSEL (R147). -/
  | vsel (d a b w : Nat)
  /-- VABS (R147). -/
  | vabs (d a w : Nat)
  /-- VFADD (R148). -/
  | vfadd (d a b f : Nat)
  /-- VFSUB (R148). -/
  | vfsub (d a b f : Nat)
  /-- VFMUL (R148). -/
  | vfmul (d a b f : Nat)
  /-- VFDIV (R148). -/
  | vfdiv (d a b f : Nat)
  /-- VFMIN (R148). -/
  | vfmin (d a b f : Nat)
  /-- VFMAX (R148). -/
  | vfmax (d a b f : Nat)
  /-- VFCMP (R148). -/
  | vfcmp (d a b f p : Nat)
  /-- VFCVT (R149). -/
  | vfcvt (d a t s : Nat)
  /-- VFMA (R150). -/
  | vfma (d a b c f : Nat)
  /-- VFMS (R150). -/
  | vfms (d a b c f : Nat)
  /-- VDOT (R150). -/
  | vdot (d a b : Nat)
  /-- VLD (R151). -/
  | vld (d a : Nat) (i : Int)
  /-- VST (R151). -/
  | vst (d a : Nat) (i : Int)
  /-- VLDS (R153). -/
  | vlds (d a : Nat) (i : Int)
  /-- VSTS (R153). -/
  | vsts (d a : Nat) (i : Int)
  /-- VLDC (R154). -/
  | vldc (d a f : Nat) (i : Int)
  /-- VSTC (R155). -/
  | vstc (d a f : Nat) (i : Int)
  /-- VLDB (R156). -/
  | vldb (d a f : Nat) (i : Int)
  /-- VPERM (R157). -/
  | vperm (d a b w : Nat)
  /-- VBCAST (R157). -/
  | vbcast (d a w : Nat)
  /-- VEXT (R157). -/
  | vext (d a x w : Nat)
  /-- VINS (R157). -/
  | vins (d a x w : Nat)
  /-- VRSUM (R158). -/
  | vrsum (d a t : Nat)
  /-- VRMAX (R158). -/
  | vrmax (d a t : Nat)
  /-- VRMIN (R158). -/
  | vrmin (d a t : Nat)
  /-- TCFG (R256). -/
  | tcfg (a : Nat)
  /-- TCFGR (R257). -/
  | tcfgr (d : Nat)
  /-- OCLAIM (R258). -/
  | oclaim (d a : Nat)
  /-- OREL (R258). -/
  | orel (a : Nat)
  /-- OLOAD (R259). -/
  | oload (a b : Nat)
  /-- OSTORE (R259). -/
  | ostore (a b : Nat)
  /-- OCLAIM_S (R258). -/
  | oclaimS (d a : Nat)
  /-- MMA (R260). -/
  | mma (a b n : Nat)
  /-- MMAR (R260). -/
  | mmar (d a b n : Nat)
  /-- ACCZ (R262). -/
  | accz (n : Nat)
  /-- ACCST (R263). -/
  | accst (a n : Nat)
  /-- ACCLD (R263). -/
  | accld (a n : Nat)
  /-- RSV (R289). -/
  | rsv (d a : Nat)
  /-- RSVT (R279). -/
  | rsvt (d a : Nat)
  /-- RREL (R290). -/
  | rrel (d : Nat)
  /-- RWAIT (R291). -/
  | rwait (d a : Nat)
  /-- RRD (R292). -/
  | rrd (d a : Nat)
  /-- RWAIT_FIT (R291). -/
  | rwaitFit (d a : Nat)
  /-- EQOPEN (R305). -/
  | eqopen (d a : Nat)
  /-- EQCLOSE (R306). -/
  | eqclose (d a : Nat)
  /-- EQUNITE (R308). -/
  | equnite (d a b : Nat)
  /-- EQFIND (R309). -/
  | eqfind (d a : Nat)
  /-- EQSIZE (R309). -/
  | eqsize (d a : Nat)
  /-- EQCOUNT (R309). -/
  | eqcount (d a : Nat)
  /-- EQLABEL (R311). -/
  | eqlabel (d a b : Nat)
  /-- EQSNAP (R315). -/
  | eqsnap (d a : Nat)
  /-- EQUNDO (R315). -/
  | equndo (d a : Nat)
  /-- EQKEEP (R315). -/
  | eqkeep (d a : Nat)
  /-- EQREDUCE_ADD_F32 (R312). -/
  | eqreduceAddF32 (d a b : Nat)
  /-- EQREDUCE_MIN_F32 (R312). -/
  | eqreduceMinF32 (d a b : Nat)
  /-- EQREDUCE_MAX_F32 (R312). -/
  | eqreduceMaxF32 (d a b : Nat)
  /-- EQREDUCE_ADD_I32 (R312). -/
  | eqreduceAddI32 (d a b : Nat)
  /-- EQREDUCE_MIN_I32 (R312). -/
  | eqreduceMinI32 (d a b : Nat)
  /-- EQREDUCE_MAX_I32 (R312). -/
  | eqreduceMaxI32 (d a b : Nat)
  /-- TAP_PRE (R343). -/
  | tapPre (a b : Nat)
  /-- TAP_POST (R343). -/
  | tapPost (a b : Nat)
  /-- TAPRD (R349). -/
  | taprd (d a : Nat)
  /-- WSRD (R334). -/
  | wsrd (d a : Nat)
  /-- WSPF (R335). -/
  | wspf (a : Nat)
  /-- WSUPD_ADD (R336). -/
  | wsupdAdd (d a b : Nat)
  /-- WSUPD_MIN (R336). -/
  | wsupdMin (d a b : Nat)
  /-- WSUPD_MAX (R336). -/
  | wsupdMax (d a b : Nat)
  /-- WSUPD_OR (R336). -/
  | wsupdOr (d a b : Nat)
  /-- WSFWD (R337). -/
  | wsfwd (a b : Nat)
  /-- WSDONE (R338). -/
  | wsdone
  /-- WSDONE_KEEP (R338). -/
  | wsdoneKeep
  /-- WSDONE_BYPASS (R338). -/
  | wsdoneBypass
  /-- C_MV (R85). -/
  | cMv (d a : Nat)
  /-- C_ADD (R85). -/
  | cAdd (d a : Nat)
  /-- C_SUB (R85). -/
  | cSub (d a : Nat)
  /-- C_ADDI (R85). -/
  | cAddi (d : Nat) (i : Int)
  /-- C_LI (R85). -/
  | cLi (d : Nat) (i : Int)
  /-- C_SLLI (R85). -/
  | cSlli (d i : Nat)
  /-- C_SRAI (R85). -/
  | cSrai (d i : Nat)
  /-- C_AND (R85). -/
  | cAnd (d a : Nat)
  /-- C_OR (R85). -/
  | cOr (d a : Nat)
  /-- C_XOR (R85). -/
  | cXor (d a : Nat)
  /-- C_LD (R85). -/
  | cLd (d a : Nat)
  /-- C_ST (R85). -/
  | cSt (d a : Nat)
  /-- C_BEQZ (R85). -/
  | cBeqz (d : Nat) (i : Int)
  /-- C_BNEZ (R85). -/
  | cBnez (d : Nat) (i : Int)
  /-- C_J (R85). -/
  | cJ (i : Int)
  /-- C_JR (R85). -/
  | cJr (a : Nat)
  /-- C_NOP (R85). -/
  | cNop
  /-- C_BRK (R85). -/
  | cBrk
  /-- COURIER_ARRIVAL (R26); args: id. -/
  | courierArrival
  /-- COURIER_SLOT_START (R27); args: core. -/
  | courierSlotStart
  /-- CARAVAN_START (R414); args: part, car. -/
  | caravanStart
  /-- HELPERS_ENDED (R32); args: core. -/
  | helpersEnded
  /-- SAFEDL_DEADLINE (R36); args: ag. -/
  | safedlDeadline
  /-- CONTEXT_SAVE (R373); args: ag. -/
  | contextSave
  /-- CHUNK_COMMIT (R209); args: ag. -/
  | chunkCommit
  /-- PRIORITY_TOKEN_GRANT (R213). -/
  | priorityTokenGrant
  /-- REMOTE_STORE_GROUP (R216); args: id. -/
  | remoteStoreGroup
  /-- REMOTE_ATOMIC (R131); args: id. -/
  | remoteAtomic
  /-- REMOTE_READ (R216); args: id. -/
  | remoteRead
  /-- SCRATCH_STORE_ACK (R137); args: id. -/
  | scratchStoreAck
  /-- PEER_WRITE_ARRIVAL (R217); args: flow, va, len, data, seq. -/
  | peerWriteArrival
  /-- PEER_LOAD_ARRIVAL (R217); args: flow, va, len, seq. -/
  | peerLoadArrival
  /-- PEER_ACK (R475); args: flow, seq, status, data. -/
  | peerAck
  /-- HOST_WRITE (R466); args: port, va, len, data. -/
  | hostWrite
  /-- HOST_READ (R466); args: port, va, len. -/
  | hostRead
  /-- HOST_SNOOP (R467); args: port, addr, data. -/
  | hostSnoop
  /-- BACK_INVALIDATE (R467); args: port, addr. -/
  | backInvalidate
  /-- L2_FILL (R51); args: slice, va. -/
  | l2Fill
  /-- BANK_OP_ACCEPT (R133); args: id. -/
  | bankOpAccept
  /-- BANK_OP_PERFORM (R132); args: id. -/
  | bankOpPerform
  /-- ENGINE_ACCEPT (R194); args: ag, slot. -/
  | engineAccept
  /-- ENGINE_PIECE_DONE (R196); args: ag, slot. -/
  | enginePieceDone
  /-- ARRIVE_LOAD (R202); args: ag, va. -/
  | arriveLoad
  /-- ARRIVE_STORE (R199); args: ag, va. -/
  | arriveStore
  /-- BARRIER_CFG_WRITE (R203); args: ag, va, v. -/
  | barrierCfgWrite
  /-- PEND_WRITE (R203); args: ag, va, v. -/
  | pendWrite
  /-- BARRIER_ABORT (R204); args: ag, va. -/
  | barrierAbort
  /-- CHAIN_ARRIVAL (R203); args: id. -/
  | chainArrival
  /-- CHAIN_RELEASE (R203); args: id. -/
  | chainRelease
  /-- LOCK (R206); args: ag, va. -/
  | lock
  /-- LOCK_RELEASE (R206); args: ag, va, v. -/
  | lockRelease
  /-- TRY (R206); args: ag, va. -/
  | tryLock
  /-- WAIT (R207); args: ag, va. -/
  | wait
  /-- LINE_WRITE (R207); args: ag, va, v. -/
  | lineWrite
  /-- TAKE (R207); args: ag, va. -/
  | take
  /-- MATRIX_TAKE (R240); args: quad. -/
  | matrixTake
  /-- MATRIX_RETIRE (R242); args: id. -/
  | matrixRetire
  /-- TAP_ACCEPT (R344); args: ag. -/
  | tapAccept
  /-- RESERVOIR_TICK (R275). -/
  | reservoirTick
  /-- SPRINT_CUT (R283); args: ag. -/
  | sprintCut
  /-- SUPPLY_SETTLE (R280); args: core, op. -/
  | supplySettle
  /-- RATIO_SWITCH (R442); args: col. -/
  | ratioSwitch
  /-- SENSOR_SAMPLE (R444). -/
  | sensorSample
  /-- ARBITER_SAMPLE (R451). -/
  | arbiterSample
  /-- FTHR_N_ASSERT (R452). -/
  | fthrNAssert
  /-- CURRENT_SENSE_ASSERT (R452). -/
  | currentSenseAssert
  /-- FAST_THROTTLE_RELEASE (R452). -/
  | fastThrottleRelease
  /-- TIMER (R166); args: ag. -/
  | timer
  /-- USER_TRAP_ENTRY (R168); args: ag. -/
  | userTrapEntry
  /-- SUPERVISOR_ENTRY (R360); args: ag. -/
  | supervisorEntry
  /-- PREEMPT_REQUEST (R370); args: ag. -/
  | preemptRequest
  /-- PREEMPT_CANCEL (R370); args: ag. -/
  | preemptCancel
  /-- BANK_FORMAT_WRITE (R48); args: ag, n, v. -/
  | bankFormatWrite
  /-- CTX_DOM_WRITE (R423); args: ag, v. -/
  | ctxDomWrite
  /-- ERR_RING_MOVE (R426); args: ag, n, op, v. -/
  | errRingMove
  /-- SENDR_DELIVERY (R179); args: id. -/
  | sendrDelivery
  /-- SENDER_COMPLETION (R173); args: id. -/
  | senderCompletion
  /-- PUTQ_ARRIVAL (R182); args: id. -/
  | putqArrival
  /-- WSMSG_ARRIVAL (R184); args: id. -/
  | wsmsgArrival
  /-- WSFWD_ARRIVAL (R337); args: id. -/
  | wsfwdArrival
  /-- HANDLER_START (R330); args: slice. -/
  | handlerStart
  /-- HANDLER_OVERRUN (R332); args: slice. -/
  | handlerOverrun
  /-- HANDLER_TABLE_WRITE (R328); args: ag, off, v. -/
  | handlerTableWrite
  /-- HANDLER_MEMORY_WRITE (R328); args: ag, off, len, v. -/
  | handlerMemoryWrite
  /-- EQ_ASYNC_COMPLETION (R313); args: id. -/
  | eqAsyncCompletion
  /-- ADMISSION_ATTEMPT (R411); args: part. -/
  | admissionAttempt
  /-- CORE_RESERVATION (R414); args: id. -/
  | coreReservation
  /-- POST (R406); args: ag, part, v. -/
  | post
  /-- SCHED_PREEMPT (R419); args: ag, part, v. -/
  | schedPreempt
  /-- CARAVAN_PREEMPT_TICK (R419); args: part, car. -/
  | caravanPreemptTick
  /-- CARAVAN_SAVE (R419); args: part, car. -/
  | caravanSave
  /-- SIGNAL (R418); args: ag, part, v. -/
  | signal
  /-- CANCEL (R418); args: ag, part, v. -/
  | cancel
  /-- ENDCAR (R420); args: ag, part, v. -/
  | endcar
  /-- PCOLS_WRITE (R425); args: ag, off, v. -/
  | pcolsWrite
  /-- FCLOSE (R424); args: ag, part, v. -/
  | fclose
  /-- BSTOP (R431); args: ag, part, v. -/
  | bstop
  /-- PRESET (R434); args: ag, part. -/
  | preset
  /-- SNAP_GO (R437); args: ag, v. -/
  | snapGo
  /-- SNAP_RELEASE (R436); args: ag. -/
  | snapRelease
  /-- SNAP_TIMER (R436). -/
  | snapTimer
  /-- DBGSNAP_N (R437). -/
  | dbgsnapN
  /-- SNAPSHOT_LATCH (R438). -/
  | snapshotLatch
  /-- VF_REQ_WRITE (R440); args: ag, col, v. -/
  | vfReqWrite
  /-- THROT_FW_WRITE (R446); args: ag, col, v. -/
  | throtFwWrite
  /-- RSV_FILLFW_WRITE (R447); args: ag, col, v. -/
  | rsvFillfwWrite
  /-- TM_STEP (R453); args: ag, v. -/
  | tmStep
  /-- TIMING_MESSAGE (R476); args: t, valid. -/
  | timingMessage
  /-- SLACK_WINDOW (R457). -/
  | slackWindow
  /-- SLACK_FIGURE (R457); args: peer, wait. -/
  | slackFigure
  /-- MIGRATION_COUNT (R396); args: id. -/
  | migrationCount
  /-- MIGRATION_FINISH (R398); args: id. -/
  | migrationFinish
  /-- COUNTER_HALVING (R396). -/
  | counterHalving
  /-- TINV (R395); args: ag, v. -/
  | tinv
  /-- PROMOTE (R399); args: ag, v. -/
  | promote
  /-- PROMOTION_FINISH (R399); args: id. -/
  | promotionFinish
  /-- DARK_TIER_POWER_UP (R55); args: stack, tier. -/
  | darkTierPowerUp
  /-- COURIER_DOORBELL (R469); args: port, v. -/
  | courierDoorbell
  /-- POWER_ON (R478). -/
  | powerOn
  /-- START_GO (R477); args: v. -/
  | startGo
  /-- PERST (R477). -/
  | perst
  /-- START_DONE (R477); args: ag. -/
  | startDone
  /-- START_STAGE_TIMEOUT (R478). -/
  | startStageTimeout
  /-- ATTEST_DOORBELL (R481); args: v. -/
  | attestDoorbell
  /-- ATTEST_REPORT (R481); args: v. -/
  | attestReport
  /-- CHECKPOINT_GO (R483); args: port. -/
  | checkpointGo
  /-- CHECKPOINT_END (R483); args: status. -/
  | checkpointEnd
  /-- TRAIL_FLIT_RECEIVE (R472); args: link, flow, good, seq, va, len, data, kind. -/
  | trailFlitReceive
  /-- TL_TRAIN (R474); args: ag, v. -/
  | tlTrain
  /-- REGISTER_WRITE (R3); args: ag, addr, v. -/
  | registerWrite
  /-- ILLEGAL_ENCODING (R94); args: w. -/
  | illegalEncoding
  /-- TIER_POWER_OFF (R435); args: stack, tier. -/
  | tierPowerOff
  /-- HOST_LINK_DOWN (R468); args: port. -/
  | hostLinkDown
  /-- HOST_LINK_UP (R468); args: port. -/
  | hostLinkUp
  /-- TRAIL_LINK_UP (R474); args: link. -/
  | trailLinkUp
  /-- START_STEP_END (R478); args: ok. -/
  | startStepEnd
deriving DecidableEq, Repr

end Sys2Proof
end

