-- ==== Sys2Proof/Machine/State.lean ====
section
/-!
DEFINITION. The state of the module as plain data: every register, memory, queue and table the specification names, each in one
home; and the state after reset. Units that exist in thousands (cores, columns, quads, slices) stand in tables from their
number to their record (`Tab`): a unit that no entry names is in the state after reset.
-/

namespace Sys2Proof.Machine

open Sys2Proof

/-- A table from numbers to records; what it does not list has the default that the reader names. -/
abbrev Tab (α : Type) := List (Nat × α)

/-- The record of number `k`, or the default. -/
def look {α : Type} (d : α) : Tab α → Nat → α
  | [], _ => d
  | (j, v) :: t, k => if j = k then v else look d t k

/-- Writes the record of number `k`; a table built by `put` alone is sorted and lists no number twice. -/
def put {α : Type} (k : Nat) (v : α) : Tab α → Tab α
  | [] => [(k, v)]
  | (j, u) :: t => if k < j then (k, v) :: (j, u) :: t else if j = k then (k, v) :: t else (j, u) :: put k v t

/-- Removes the record of number `k`. -/
def del {α : Type} (k : Nat) (t : Tab α) : Tab α := t.filter (fun e => e.1 ≠ k)

/-- Whether the table lists number `k`. -/
def has {α : Type} (t : Tab α) (k : Nat) : Bool := t.any (fun e => e.1 = k)

/-! ## Who executes -/

/-- An agent that executes instructions: a context of a compute core (core index in the order stack, y, x; R9, R17), the Iluet
management core (R356), or the waystation of an L2 slice (R324). -/
inductive Agent where
  | ctx (core n : Nat)
  | iluet
  | ws (slice : Nat)
deriving DecidableEq, Repr

/-- A number for each agent, used where a happening names one. -/
def Agent.code : Agent → Nat
  | .ctx core n => 4 * core + n
  | .iluet => 401408
  | .ws slice => 401409 + slice

/-- The agent of a number: 100,352 cores of four contexts, then the Iluet, then the 512 slices. -/
def Agent.ofCode (k : Nat) : Agent :=
  if k < 401408 then .ctx (k / 4) (k % 4) else if k = 401408 then .iluet else .ws (k - 401409)

/-! ## A context -/

/-- A hardware loop set (R111). -/
structure LoopSet where
  start : W64 := 0
  stop  : W64 := 0
  count : W64 := 0
deriving DecidableEq, Repr

/-- Everything of a context that its own instructions can write, and a squash therefore restores (R101, R125, R139, R211):
registers, presence bits, the user trap registers, the supervisor registers, the accumulators. -/
structure Regs where
  pc : W64 := 0
  /-- s1 to s31 of the running code; s0 is never written (R7). -/
  s : Tab W64 := []
  /-- Bit n set: the presence bit of s(n) of the main set is clear (R178). -/
  absent : BitVec 32 := 0
  /-- Registers that a TCFGR not yet retired will write, with the number of its command (R242). -/
  tpend : Tab Nat := []
  /-- The copies of s24 to s31 that stand aside (R168, R178). -/
  shadow : Tab W64 := []
  v : Tab V256 := []
  ox : Tab W64 := []
  p : Tab W64 := []
  /-- pc0 to pc7, the walk configurations (R44). -/
  pw : Tab W64 := []
  loop0 : LoopSet := {}
  loop1 : LoopSet := {}
  shLoop0 : LoopSet := {}
  shLoop1 : LoopSet := {}
  /-- fx.status (R61). -/
  fx : W64 := 0
  uvec : W64 := 0
  upc : W64 := 0
  /-- ucause<7:0> (R167). -/
  ucause : W64 := 0
  /-- ucause.act (R167). -/
  act : Bool := false
  uinfo : W64 := 0
  uie : W64 := 0
  lmbase : W64 := 0
  tmrCmp : W64 := 0
  /-- rsv.rank (R274). -/
  rank : W64 := 0
  tchk : W64 := 0
  tcfg : W64 := 0
  tapCount : W64 := 0
  svec : W64 := 0
  spc : W64 := 0
  scause : W64 := 0
  sinfo : W64 := 0
  sstat : W64 := 0
  sscratch : W64 := 0
  safedl : W64 := 0
  save : W64 := 0
  /-- ctx.preempt.dlv (R357). -/
  preDlv : Bool := false
  /-- ctx.preempt.req and ctx.status.preq (R370). -/
  preReq : Bool := false
  dom : W64 := 0
  tringBase : W64 := 0
  tringSize : W64 := 0
  tringOvf : W64 := 0
  plbCtl : W64 := 0
  plbFva : W64 := 0
  /-- acc0 and acc1, 256 FP32 elements each (R250). -/
  acc0 : Tab (BitVec 32) := []
  acc1 : Tab (BitVec 32) := []
  /-- The poison marks of acc0 (bit 0) and acc1 (bit 1). -/
  accBad : BitVec 2 := 0
  /-- The kept barrier ticket (R202, R375): valid, generation, abort count, ARRIVE address<20:0>. -/
  ticket : Option (Nat × Nat × Nat) := none
deriving DecidableEq, Repr

/-- The states of a context (R18). -/
inductive CtxSt where
  | idle | ready | stalled | waiting | saved
deriving DecidableEq, Repr

/-- The two levels of a compute context (R355); the Iluet runs at its own third level. -/
inductive Level where
  | user | sup
deriving DecidableEq, Repr

/-- The tag of a cached 256-byte line: its virtual address / 256, its memory key / 256, its home slice, type and owner (R50, R379,
R392). -/
structure LineTag where
  va  : Nat
  key : Nat
  home : Nat
  ty  : Nat
  own : Nat
deriving DecidableEq, Repr

/-- Data of a scratchpad store under way: raw bytes, or vector elements that the destination bank converts (R48, R155). -/
inductive StoreData where
  | raw (bytes : List Byte)
  | elems (src : Nat) (v : V256)
deriving DecidableEq, Repr

/-- A store to another core's scratchpad, held until commit (R125). -/
structure RStore where
  core : Nat
  off  : Nat
  data : StoreData
deriving DecidableEq, Repr

/-- A store to a PEER page, held until commit (R217). -/
structure PStore where
  flow : Nat
  ord  : Bool
  va   : Nat
  bytes : List Byte
deriving DecidableEq, Repr

/-- The running chunk of a context (R125, R208, R211). -/
structure Chunk where
  /-- Whether the chunk has started. -/
  run : Bool := false
  /-- Instructions executed in it (R101). -/
  count : Nat := 0
  /-- The registers at its start. -/
  save : Regs := {}
  /-- Buffered Global stores, by memory key, and the tags of their lines. -/
  wbuf : Tab Byte := []
  tags : List LineTag := []
  /-- The 256-byte granules of its read and write signatures, by memory key / 256 (R211). -/
  reads : List Nat := []
  writes : List Nat := []
  /-- The virtual addresses / 256 of its granules (R395, R398). -/
  vas : List Nat := []
  /-- The undo log: 64-byte granules of the own scratchpad, by memory key / 64, with their old bytes (R125). -/
  undo : Tab (List Byte) := []
  /-- Granules of the own scratchpad that were poisoned, or held an error not yet found, and that the chunk has written whole (R401). -/
  mended : List Nat := []
  cured : List Nat := []
  /-- Stores to other cores' scratchpads, oldest first. -/
  remote : List RStore := []
  /-- Stores to PEER pages, oldest first. -/
  peer : List PStore := []
  /-- Matrix commands of the chunk that the unit has taken and that have not retired: their messages (R242). -/
  retires : List Nat := []
  /-- Special registers that stand outside `Regs` and that the chunk has written: number, value before, value written last (R101). -/
  special : List (Nat × W64 × W64) := []
  /-- How the count towards the deadline stood when the chunk first wrote ctx.preempt: its instant, what was left of it, whether it had passed (R370). -/
  pre : Option (Option Nat × Nat × Bool) := none
  /-- The pending TIMER as it stood when the chunk first wrote tmr.cmp (R494). -/
  timer : Option (Option W64) := none
deriving DecidableEq, Repr

/-- A state of a copy-engine operation slot (R188). -/
inductive SlotSt where
  | idle | running | stopped
deriving DecidableEq, Repr

/-- A PEER access of an engine piece (R104, R197): piece, flow, sequence number, whether it is a load; its acknowledgement: reason (0
good) and data. -/
structure PeerPart where
  piece : Nat
  flow : Nat
  seq  : Nat
  load : Bool
  ack  : Option (Nat × List Nat) := none
deriving DecidableEq, Repr

/-- An engine operation slot of a context (R188, R193 to R198, R375). -/
structure EngSlot where
  st : SlotSt := .idle
  /-- 0 CPY, 1 CPY2D, 2 GATH, 3 SCAT. -/
  op : Nat := 0
  /-- Number of pieces, the bitmap of delivered or absent ones, the source bytes or rows of a piece. -/
  pieces : Nat := 0
  bitmap : Nat := 0
  unit : Nat := 1
  /-- Whether the pieces have been laid out by an acceptance (R193). -/
  laid : Bool := false
  /-- Pieces still to run in this attempt, and failed ones with cause and address. -/
  todo : List Nat := []
  fails : List (Nat × Nat × W64) := []
  /-- Lowest failed piece, its status code and its address, of a stopped slot. -/
  miss : Nat := 64
  status : Nat := 0
  failAddr : W64 := 0
  /-- S(d), S(a), S(b) and ox0 to ox3 at issue, and the issuing domain (R86, R375). -/
  wd : W64 := 0
  wa : W64 := 0
  wb : W64 := 0
  ox : List W64 := []
  dom : Nat := 0
  /-- Bank formats of a converting operation, read at acceptance: source and destination (R48). -/
  conv : Option (Nat × Nat) := none
  /-- The index of each element (R194). -/
  idx : Tab W64 := []
  /-- Conversion flags of the pieces delivered in this attempt. -/
  flags : Nat := 0
  /-- The pieces that restarts have skipped, which count as ended (ox0 of ENGRST, R198). -/
  skip : Nat := 0
  peer : List PeerPart := []
  /-- A partition reset has come while the operation ran: its completion is discarded (R434). -/
  mute : Bool := false
deriving DecidableEq, Repr

/-- An operand-memory slot entry of a context (R246, R375). -/
structure SlotEntry where
  claimed : Bool := false
  /-- false: A, true: B. -/
  roleB : Bool := false
  shared : Bool := false
  loaded : Bool := false
  fmt : Nat := 0
  lines : Nat := 0
  depth : Nat := 0
  gen : Nat := 1
  /-- The physical slot of the quad that holds it. -/
  phys : Nat := 0
deriving DecidableEq, Repr

/-- One context: its registers, its state, its running chunk and what it waits for. -/
structure Ctx where
  r : Regs := {}
  st : CtxSt := .idle
  /-- ctx.status.why (R357). -/
  why : Nat := 0
  lvl : Level := .user
  /-- While set, a stalled or waiting context issues nothing until a reply or a wake clears it. -/
  held : Bool := false
  /-- The message by which the instruction at pc has asked for its reply (R131, R216). -/
  asked : Option Nat := none
  /-- The reply to that request. -/
  reply : Option (List Nat) := none
  /-- The replies to earlier requests of the same instruction, oldest first. -/
  got : List (List Nat) := []
  /-- The instruction at pc has issued: a retry after a wait issues it no second time (R282). -/
  issued : Bool := false
  /-- The line that the instruction at pc misses has been waited for (R49, R296). -/
  missed : Bool := false
  /-- The bank format by which the instruction at pc reads another core's scratchpad, as it stood when the read left (R48, R155). -/
  bankFmt : Option Nat := none
  /-- The bytes of the instruction under way: an instruction that goes on after a wait is not fetched again. -/
  word : List Byte := []
  /-- The 64-byte granule (key / 64) whose speculative bytes the context waits for (R125). -/
  waitOn : Option Nat := none
  chunk : Chunk := {}
  /-- Squashes since the last commit, and the priority token (R213). -/
  attempts : Nat := 0
  token : Bool := false
  /-- Pending asynchronous causes with their info words (R170, R359). -/
  pend : Tab W64 := []
  /-- Details of pending PROBEs: scause.detail and info (R348). -/
  probes : List (Nat × W64) := []
  /-- rsv.held, rsv.spent, rsv.state (R274). -/
  rsvHeld : Nat := 0
  rsvSpent : Nat := 0
  rsvState : W64 := 0
  /-- The charge of the instruction under way (R282). -/
  infl : Nat := 0
  slots : Tab EngSlot := []
  /-- The eight operand-memory entries (R246). -/
  entries : Tab SlotEntry := []
  /-- Remote scratchpad store groups sent and not acknowledged (R137). -/
  unackedScratch : Nat := 0
  /-- PEER writes and atomics sent and not acknowledged: their (flow, sequence number) (R137, R217). -/
  unackedPeer : List (Nat × Nat) := []
  /-- Flows marked by a failed PEER store, with the reason (R475). -/
  flowMarks : List (Nat × Nat) := []
  /-- Matrix commands issued and not retired (R242), and serial mode until the chunk ends (R243). -/
  mcmds : Nat := 0
  serial : Bool := false
  /-- TAP operations under way (R347), and the bytes they hold: number of the TAP, key and length. -/
  taps : Nat := 0
  tapBytes : List (Nat × Nat × Nat) := []
  /-- Latest TAP status per batch (R349). -/
  tapStat : Tab W64 := []
  /-- Sequence number of the armed safe-point deadline; 0 none (R370). -/
  deadline : Nat := 0
  /-- The instant at which the deadline falls while the context stays at user level, and the nanoseconds left of a deadline that
  supervisor level holds up (R370). -/
  dlAt : Option Nat := none
  dlLeft : Nat := 0
  /-- The deadline has passed: the save comes at the next boundary (R36). -/
  preDue : Bool := false
  /-- A save in progress: how (0 SAFE by its live-map entry, 1 SAFE in full, 2 at the deadline) and the live-map index (R373). -/
  saving : Option (Nat × Nat) := none
  /-- A load of a save area waits for operand slots (R377). -/
  loading : Bool := false
  /-- A context of a caravan that is to be saved as a whole has reached its safe point or deadline and is held (R419). -/
  parked : Bool := false
  /-- The context ends at its next boundary (R420). -/
  ending : Bool := false
  /-- The context freezes at its next boundary (R431). -/
  freezing : Bool := false
  /-- The context waits in RETIRE for the end of its helpers (R32). -/
  retiring : Bool := false
  /-- The THROTTLE handler runs (R22). -/
  inThrottle : Bool := false
deriving DecidableEq, Repr

/-! ## A core -/

/-- An entry of the protection lookaside buffer (R380). -/
structure PlbEntry where
  base : Nat := 0
  sz   : Nat := 0
  dom  : Nat := 0
  v : Bool := false
  e : Bool := false
  at_ : Bool := false
  x : Bool := false
  w : Bool := false
  r : Bool := false
deriving DecidableEq, Repr

/-- A leaf of the translation table (R388), as fields. -/
structure Leaf where
  own   : Nat := 0
  frame : Nat := 0
  stack : Nat := 0
  flow  : Nat := 0
  ord   : Bool := false
  /-- 0 DRAM, 1 HOST, 2 PEER, 3 MMIO, 4 SCRATCH. -/
  ty    : Nat := 0
  pin   : Bool := false
  /-- log2 of the page size: 16, 21 or 30. -/
  size  : Nat := 16
  /-- Level of the entry, and its DRAM key. -/
  level : Nat := 4
  entry : Nat := 0
deriving DecidableEq, Repr

/-- A translation-cache entry: page base VA and its leaf (R391). -/
structure TcEntry where
  base : Nat
  leaf : Leaf
deriving DecidableEq, Repr

/-- A cached 64-byte fetch block: VA / 64, key / 64, the type and the owner of its leaf, its bytes (R222, R392). -/
structure FetchBlock where
  va  : Nat
  key : Nat
  ty  : Nat
  own : Nat
  bytes : List Byte
deriving DecidableEq, Repr

/-- An inbox entry: the context it is tagged for, its header and payload words (R171, R172). -/
structure InboxEntry where
  ctx : Nat
  header : W64
  payload : W64
deriving DecidableEq, Repr

/-- A courier: program counter, two argument words, sender and whether a positive completion is asked for (R26, R183, R469). -/
structure Courier where
  pc : W64
  x : W64
  y : W64
  /-- Sending agent code, or 401408 + port style codes for the host. -/
  src : Nat
  ack : Bool
  tag : Nat
  payload : W64
  dom : Nat
deriving DecidableEq, Repr

/-- An operating point: a supply in mV and a clock in MHz (R439). -/
abbrev Point := Nat × Nat

/-- A change of point under way: the point aimed at, and the phase: 0 the supply rises, 1 the clock is to change, 2 the crossing FIFO drains for it, 3
the supply falls (R280, R441, R442). -/
structure Move where
  aim : Point
  phase : Nat
deriving DecidableEq, Repr

/-- One core (R11). -/
structure Core where
  ctxs : Tab Ctx := []
  /-- The context that issued last (R20), and the one that issued last in a slot reserved for THROTTLE handlers (R286). -/
  last : Nat := 3
  lastThr : Nat := 3
  plb : Tab PlbEntry := []
  /-- bfmt0 to bfmt7 (R47). -/
  bfmt : Tab Nat := []
  /-- The courier slot (R26). -/
  courier : Option Courier := none
  inbox : List InboxEntry := []
  /-- Reserved inbox entries (R174). -/
  reserved : Nat := 0
  l1 : List LineTag := []
  icache : List FetchBlock := []
  bandId : W64 := 0
  caravanId : W64 := 0
  /-- The core belongs to a resident caravan (R414). -/
  resident : Bool := false
  /-- The core is marked reserved for an admission (R414). -/
  mark : Bool := false
  /-- The core's band has stopped (R431). -/
  stopped : Bool := false
  migThresh : W64 := 0
  tapTbase : W64 := 0
  /-- The context whose reservation the core sprints under (R282). -/
  holder : Option Nat := none
  /-- Number of the reservation that was admitted last. The model's own field. -/
  rsvNo : Nat := 0
  /-- A cut under way: the context whose instruction is held at issue, its sprint class, and whether it stands there still (R283). -/
  cut : Option (Nat × Nat × Bool) := none
  /-- Instructions retired (R438). -/
  retired : Nat := 0
  /-- The operating point of a core that sprints or is changing its point; else it has its column's base point (R280, R441). -/
  own : Option Point := none
  /-- The change of its point that is under way. -/
  move : Option Move := none
  /-- Latched snapshot of the core's eight words (R438). -/
  latch : List W64 := []
deriving DecidableEq, Repr

/-! ## A column -/

/-- A pending reservation request (R277). -/
structure RsvReq where
  core : Nat
  ctx  : Nat
  q    : Nat
  rank : Nat
  /-- Order of arrival. -/
  seq  : Nat
  age  : Nat := 0
  blk  : Bool := false
deriving DecidableEq, Repr

/-- A waiting RWAIT (R291): level form or fit form, its operand. -/
structure RWaiter where
  core : Nat
  ctx  : Nat
  fit  : Bool
  q    : Nat
deriving DecidableEq, Repr

/-- An admitted reservation: core and context of its holder, its rank and its place in the order of admission (R284). -/
structure Admitted where
  core : Nat
  ctx  : Nat
  rank : Nat
deriving DecidableEq, Repr

/-- A barrier of an event unit (R201 to R204): configuration, pending bytes, generation, abort count, arrivals counted, whether a
completed generation has been sent up, and the children that sent a chain arrival: column, barrier, its generation. -/
structure Barrier where
  cfg  : W64 := 0
  pend : BitVec 56 := 0
  gen  : Nat := 0
  aborts : Nat := 0
  arr  : Nat := 0
  up   : Bool := false
  children : List (Nat × Nat × Nat) := []
deriving DecidableEq, Repr

/-- What a waiting request of an event unit waits for (R200). -/
inductive EvKind where
  | arrive | lock | wait | take
deriving DecidableEq, Repr

/-- A waiting request: agent code, kind, barrier, mutex or line, and the generation of its ticket. -/
structure EvWait where
  ag : Nat
  kind : EvKind
  n  : Nat
  ticket : Nat := 0
deriving DecidableEq, Repr

/-- The event unit of a column (R199): barriers, mutex owners, event lines that are set, waiting requests in order. -/
structure EvUnit where
  bars : Tab Barrier := []
  owners : Tab Nat := []
  lines : List Nat := []
  waits : List EvWait := []
deriving DecidableEq, Repr

/-- A column: its reservoir (R273), its thermal and power registers, its event unit. -/
structure Column where
  /-- rsv.fill, rsv.cap, rsv.drain with its hold, throt.level, rsv.cost (R273). -/
  fill : Nat := 0
  cap  : Nat := 0
  drain : Nat := 0
  hold : Nat := 0
  level : Nat := 0
  cost : Tab Nat := []
  pending : List RsvReq := []
  waits : List RWaiter := []
  /-- Admitted reservations, earliest first. -/
  admitted : List Admitted := []
  ev : EvUnit := {}
  /-- rsv.capfw, rsv.drainfw, rsv.costfw and a pending rsv.fillfw (R443, R447). -/
  capfw : Nat := 0
  drainfw : W64 := 0
  costfw : Tab Nat := []
  fillfw : Option Nat := none
  /-- throt.level.fw and .arb (R446). -/
  thrFw : Nat := 0
  thrArb : Nat := 0
  /-- tz.alert and tz.latch (R445). -/
  alert : W64 := 0x80007FFF#64
  latch : W64 := 0
  /-- stall.mem and stall.issue (R448). -/
  stallMem : W64 := 0
  stallIssue : W64 := 0
  /-- vf.req and vf.state.deny (R440). -/
  vfReq : W64 := 0x01CC015E#64
  /-- The base point in force at the column's cores, and a change of it that is under way (R440, R441). -/
  base : Point := (350, 2500)
  move : Option Move := none
  vfDeny : Bool := false
  /-- Latched copies at +0x200 to +0x288 (R438). -/
  snap : List W64 := []
  /-- tz.max, throt.level, rsv.fill and rsv.cap as they stood just after the latest tick (R413). -/
  sample : Nat × Nat := (0, 0)
deriving DecidableEq, Repr

/-! ## An L2 slice and its waystation -/

/-- A 256-byte sector present in a slice (R51): its tag, its dirty bit, the first-victim mark of DEAD (R135), whether its line is never
chosen as a victim and whether it is out of lookup, both with data for a dark tier (R55). -/
structure Sector where
  tag : LineTag
  dirty : Bool := false
  dead : Bool := false
  pinned : Bool := false
  kept : Bool := false
deriving DecidableEq, Repr

/-- A queued event of a waystation (R329, R330): kind, handler entry, the line's VA (for MSG, S(a)), depth, sectors present, requester
word, message words, the bytes of the line as they stood, whether a holding entry keeps the victim, its domain. -/
structure WsEvent where
  kind : Nat
  entry : Nat
  va : Nat
  depth : Nat := 0
  sectors : Nat := 0
  req : Nat := 0
  w3 : W64 := 0
  w4 : W64 := 0
  line : List Byte := []
  holdCopy : Bool := false
  /-- The victim's tags, for WSDONE.KEEP (R338). -/
  tags : List LineTag := []
  /-- The handler's entry as it stood at its start: window base and size in KiB, domain. -/
  mbase : Nat := 0
  msize : Nat := 0
  dom : Nat := 0
deriving DecidableEq, Repr

/-- An L2 slice: its sectors, and its waystation: handler table, event queue, running handler (R324 to R331). -/
structure Slice where
  sectors : List Sector := []
  /-- Word w of handler entry e, under number 4 × e + w (R327). -/
  table : Tab W64 := []
  queue : List WsEvent := []
  run : Option WsEvent := none
  /-- When the running handler's budget ends (R332). -/
  runEnd : Nat := 0
  /-- Holding entries in use, of four (R331). -/
  holds : Nat := 0
  /-- Lines (VA / 1024) whose next fill is delivered without allocation (R338). -/
  noAlloc : List Nat := []
  ctx : Ctx := {}
deriving DecidableEq, Repr

/-! ## A quad -/

/-- A command in a port queue (R239): agent code, 0 MMA, 1 MMAR, 2 ACCZ, 3 TCFGR, 4 TAP, the accumulator or the destination register,
the register fields, and the words read at issue. The instruction of a context that waits for its own effect (a singleton of R244, TAPRD, any command in
serial mode) stands there as 5, 6 or 7: it needs no resource, the array, or the load path (R240). -/
structure MCmd where
  ag : Nat
  op : Nat
  n  : Nat := 0
  fd : Nat := 0
  fa : Nat := 0
  fb : Nat := 0
  wd : W64 := 0
  wa : W64 := 0
  wb : W64 := 0
  /-- Address of the instruction, and tchk at issue (R264, R266). -/
  pc : W64 := 0
  tchk : Nat := 0
  /-- Number of the command, by which TCFGR finds its destination. -/
  no : Nat := 0
  /-- ox1 and ox2 of a TAP (R342). -/
  x1 : W64 := 0
  x2 : W64 := 0
deriving DecidableEq, Repr

/-- A quad matrix unit: the port queues by lane, the lane it took from last, whether the array and the load path are at work (R240), the physical
slots in use, the shadow counter mc. The contents of the slots stand in memory. -/
structure Quad where
  ports : Tab (List MCmd) := []
  last : Nat := 3
  busy : Bool := false
  loading : Bool := false
  used : List Nat := []
  mc : Nat := 0
deriving DecidableEq, Repr

/-! ## Messages under way -/

/-- A happening: its row of the opcode table, and the numbers that name what it happens to. -/
structure Event where
  row : Instr
  args : List Nat := []
deriving DecidableEq, Repr

/-- A message under way: its channel (messages of one channel are delivered in the order they were sent; R216), the happening that
delivers it, and its data. -/
structure Msg where
  chan : Nat
  ev : Event
  /-- Agent code of the sender. -/
  src : Nat := 0
  /-- Words of the message. -/
  words : List Nat := []
  bytes : List Byte := []
  stores : List RStore := []
deriving DecidableEq, Repr

/-! ## Error records -/

/-- An error record to be written (R427, R429). -/
structure ErrRec where
  dom : Nat
  src : Nat
  sub : Nat
  cause : Nat := 0
  ctx : Nat := 0
  loc : Nat := 0
  addr : Nat := 0
  pc : Nat := 0
  w4 : Nat := 0
  w5 : Nat := 0
  w6 : Nat := 0
  w7 : Nat := 0
  /-- ERRLOG is raised for the record (the F of R429). -/
  fw : Bool := false
  /-- The record goes to the firmware log whatever the ring (R423). -/
  log : Bool := false
  /-- The core whose PLB the ring write is checked against, where R496 names one. -/
  core : Option Nat := none
  /-- `time` at detection, of a record whose write waits (R213, R428). -/
  time : Option Nat := none
deriving DecidableEq, Repr

/-! ## Partitions and snapshots -/

/-- A partition's block (R424): PCOLS by stack, the domain table's base, the reservoir limit, the record counts. -/
structure Part where
  pcols : Tab W64 := []
  pdomt : W64 := 0
  prsv : Nat := 0xFA000
  /-- eq.count0 to eq.count15 (R309). -/
  eqCount : Tab Nat := []
  perrRing : Nat := 0
  perrLog : Nat := 0
deriving DecidableEq, Repr

/-- The snapshot block and the firmware log (R436). -/
structure Snap where
  ctl : W64 := 0
  tcmp : W64 := 0
  latched : Nat := 0
  missed : Nat := 0
  time : W64 := 0
  emask : W64 := 0
  flogBase : W64 := 0
  flogRing : W64 := 0
  /-- The instant of a pending latch (R437). -/
  due : Option Nat := none
deriving DecidableEq, Repr

/-! ## The equivalence engine -/

/-- An open forest (R299 to R301, R314). -/
structure Forest where
  pbase : Nat := 0
  sbase : Nat := 0
  lbase : Nat := 0
  lsize : Nat := 0
  n : Nat := 1
  /-- The root rule: false MIN, true SIZE. -/
  bySize : Bool := false
  count : Nat := 0
  stack : Nat := 0
  /-- The log is active, its entries, and the saved count. -/
  log : Bool := false
  used : Nat := 0
  saved : Nat := 0
deriving DecidableEq, Repr

/-! ## The scheduler -/

/-- A manifest card (R404). -/
structure Card where
  entry : W64 := 0
  rbase : W64 := 0
  count : Nat := 0
  rsize : Nat := 1
  prio : Nat := 0
  rank : Nat := 0
  shapes : List Nat := []
  succ : List Nat := []
  save : Nat := 0
  notify : Nat := 0
deriving DecidableEq, Repr

/-- Where a manifest stands. -/
inductive JobSt where
  | waiting | reserving | starting | resident | finishing | faulted
deriving DecidableEq, Repr

/-- A placed band: column, y and x of its first core, h and w. -/
structure Band where
  col : Nat
  y : Nat
  x : Nat
  h : Nat
  w : Nat
deriving DecidableEq, Repr

/-- The rights under which a post is checked, which serve the later accesses of its job (R406): whose windows its addresses are taken in,
a table, a domain. -/
structure Poster where
  ag : Agent
  rights : Tab PlbEntry := []
  dom : Nat := 0
  /-- What the present access is made for: 0 and the agent of an MPOST; 1, the party, the partition and the value of a store to POST; 2, the partition, the
  route and the node of a conditional; 3, the partition and the job for whose successors it is; 4 and 5, the same for a notify word of a route's node and of a job. -/
  tag : List Nat := []
deriving DecidableEq, Repr

/-- An access that the scheduler makes for a post or a job at an address that is no memory: a read, or a store of one word (R165, R410, R418). -/
structure Errand where
  who : Poster
  va : Nat
  len : Nat
  word : Option Nat := none
  /-- Flow and sequence number of the access of another module that it waits for. -/
  ask : Option (Nat × Nat) := none
  /-- Its end: 0 with the bytes read, or the cause and info of a trap. -/
  got : Option (Nat × Nat × List Byte) := none
deriving DecidableEq, Repr

/-- A manifest of a partition: posted, resident or finishing (R403 to R420). -/
structure Job where
  id : Nat
  /-- Place of its post in the order of posting (R403). -/
  order : Nat := 0
  card : Card := {}
  /-- The rights found at its post (R406). -/
  poster : Poster := { ag := .iluet }
  /-- The route it belongs to, by its key, and the node. -/
  route : Option (Nat × Nat) := none
  /-- Its queue, which is its priority (R406). -/
  queue : Nat := 0
  /-- When it entered its queue. -/
  since : Nat := 0
  st : JobSt := .waiting
  /-- An admission attempt with eff = 7 has failed (R412). -/
  blocking : Bool := false
  bands : List Band := []
  /-- Its cores in the order of their caravan ordinals; those that have still to answer a reservation; whether one refused. -/
  cores : List Nat := []
  asked : List Nat := []
  refused : Bool := false
  /-- Records dealt (R30). -/
  dealt : Nat := 0
  /-- Ordinals of the participating control contexts that have not ended. -/
  live : List Nat := []
  /-- A request for pre-emption of the whole caravan, and whether its tick has come (R419). -/
  preempt : Option Bool := none
  /-- ENDCAR has named the caravan (R420). -/
  ending : Bool := false
  /-- A caravan that was saved: y mod 2 and x mod 2 of each band's first core, and the contexts that have still to be loaded as
  4 × ordinal + number. -/
  parity : List (Nat × Nat) := []
  saved : Option (List Nat) := none
  /-- Resolution of each successor entry: 0 open, 1 signalled, 2 cancelled. -/
  edges : List Nat := []
  /-- Edges that a store to SIGNAL selected and that wait for room (R418). -/
  mask : Option Nat := none
deriving DecidableEq, Repr

/-- A node of a route (R408). -/
structure Node where
  /-- 0 manifest, 1 conditional, 2 join. -/
  kind : Nat := 0
  addr : Nat := 0
  nt : Nat := 0
  succ : List Nat := []
  card : Card := {}
  /-- Resolution of each outgoing edge: 0 open, 1 signalled, 2 cancelled. -/
  edges : List Nat := []
  /-- 0 not yet eligible, 1 waiting for room, 2 queued or running, 3 its edges are being resolved, 4 finished, 5 waiting for its predicate word. -/
  st : Nat := 0
deriving DecidableEq, Repr

/-- An active route (R407, R409). -/
structure Route where
  id : Nat
  notify : Nat := 0
  nodes : List Node := []
  /-- Faulted nodes, earliest first; the number of nodes stands for a failed notify write of the route. -/
  faults : List Nat := []
  /-- Edges that are to be resolved when no fault stands: node, edge, 1 signalled or 2 cancelled (R417). -/
  todo : List (Nat × Nat × Nat) := []
  /-- The rights found at its post (R406). -/
  poster : Poster := { ag := .iluet }
  /-- The queue that overrides each card's priority (R406). -/
  atQueue : Option Nat := none
deriving DecidableEq, Repr

/-- The scheduler of a partition (R402). -/
structure Sched where
  age : Nat := 0
  tlim : Nat := 0x7FFF
  kfill : Nat := 0
  kband : Nat := 0
  postr : W64 := 0
  sigmask : W64 := 0
  admits : Nat := 0
  withdrawn : Nat := 0
  /-- The next job id, and the next key of a job or a route. -/
  nextId : Nat := 1
  nextKey : Nat := 0
  jobs : Tab Job := []
  routes : Tab Route := []
  /-- An attempt is to be made when the reservations under way are settled. -/
  again : Bool := false
deriving DecidableEq, Repr

/-! ## Translation: migration and promotion -/

/-- The translation block's registers (R394) and the migration engines (R396 to R399). -/
structure Xlat where
  /-- Status of the last promotion, promotions done, migrations done and refused. -/
  pstat : Nat := 0
  promotions : Nat := 0
  migrations : Nat := 0
  refused : Nat := 0
  /-- The pool rings and the freed ring, by register offset. -/
  rings : Tab W64 := []
  /-- The counted units of each counting slice, latest first: VA / 65,536 and a count for each stack. -/
  counts : Tab (List (Nat × Tab Nat)) := []
  /-- Ranges held by a migration or a promotion: VA<55:0> of the first byte, length. -/
  held : List (Nat × Nat) := []
  /-- Stacks on which a promotion runs. -/
  promoting : List Nat := []
deriving DecidableEq, Repr

/-! ## Trail flows -/

/-- The reorder buffer of an incoming flow (R217, R473): the next sequence number, later ones that have arrived, and the ordered-class accesses that
wait for earlier ones. -/
structure Rob where
  next : Nat := 0
  seen : List Nat := []
  held : List (Nat × List Nat) := []
deriving DecidableEq, Repr

/-! ## Start-up, attestation, checkpoints -/

/-- Start control (R477, R478), the checkpoint registers (R484) and the mailbox (R481). -/
structure Boot where
  warm : Bool := false
  keep : Bool := true
  fails : Nat := 0
  stage : Nat := 7
  fail : Bool := false
  done : Bool := false
  /-- Whether the present start is warm, the number of starts, and that of the start that a time limit belongs to. -/
  isWarm : Bool := false
  count : Nat := 1
  /-- Number of the step in progress, by which its time limit knows it. -/
  no : Nat := 0
  /-- A checkpoint is in progress. -/
  ckRun : Bool := false
  /-- The port in whose range the image goes, whether a write of the image has failed, the `time` of the pause. -/
  ckPort : Nat := 0
  ckBad : Bool := false
  ckTime : Nat := 0
  /-- The bytes of the mailbox that the host writes, by offset; the done bit; whether a request runs. -/
  mbox : Tab Byte := []
  mdone : Bool := false
  mrun : Bool := false
  /-- The latest report: its nonce, and the number of the step that made it, the start count and the kind of the start. -/
  nonce : List Byte := []
  report : Option (Nat × Nat × Nat) := none
  /-- Firmware stages loaded. -/
  stages : Nat := 1
deriving DecidableEq, Repr

/-- What the boot ROM works with (R480): the fused hash of the vendor's key, the image with its key and its signature, and the identity key pair; bytes by
their place, of which an unlisted one is zero. -/
structure Rom where
  fused : Nat := 0
  key : Tab Byte := []
  sig : Tab Byte := []
  image : Tab Byte := []
  imageLen : Nat := 0
  idPrivate : Tab Byte := []
  idPublic : Tab Byte := []
deriving DecidableEq, Repr

/-! ## Host ports -/

/-- A host port's control block (R465). -/
structure Port where
  abase : W64 := 0
  dom : W64 := 0
  pmask : W64 := 0
  cring : W64 := 0
  cptr : W64 := 0
  err : W64 := 0
  ckaddr : W64 := 0
  rights : Tab PlbEntry := []
  /-- The link is up (R468). -/
  up : Bool := false
  /-- done and err of the port's HC.CK (R484). -/
  ckDone : Bool := false
  ckErr : Bool := false
deriving DecidableEq, Repr

/-! ## Power and time -/

/-- The power block (R449 to R452, R456, R457). -/
structure Power where
  budget : Nat := 4800
  high : Nat := 4600
  low : Nat := 4200
  step : Nat := 32
  power : Nat := 0
  scale : Nat := 256
  /-- FT.CTL. -/
  hold : Nat := 10
  lsense : Bool := false
  lpin : Bool := false
  act : Bool := false
  /-- Every crossing FIFO drains, for a division of the clocks (true) or for its end (R442, R452). -/
  drain : Option Bool := none
  sense : Bool := false
  pin : Bool := false
  /-- When the present assertions of the pin and of the sense end, and since when both have been clear. -/
  pinEnd : Nat := 0
  senseEnd : Nat := 0
  clearAt : Nat := 0
  /-- CS.CTL, CS.BAND, CS.BAR, CS.STAT. -/
  csCtl : W64 := 0
  csBand : W64 := 0
  csBar : W64 := 0
  slack : Nat := 0
  wait : Nat := 0
  k : Nat := 0
  nh : Nat := 0
  nl : Nat := 0
  /-- Nanoseconds of the present window in which the barrier of CS.BAR had a waiter; the time k was last raised; the latest figures by
  peer, and whether one has come since the last window. -/
  waited : Nat := 0
  raisedAt : Option Nat := none
  figures : Tab Nat := []
  fresh : Bool := false
deriving DecidableEq, Repr

/-- What the time unit keeps of a port (R454): sequence id and receive time of a Sync whose Follow_Up has still to come; the two times of the latest
synchronisation; sequence id and transmit time of a delay request and of a peer-delay request that wait for their answers; of a Pdelay_Resp the sequence id, the
time in it and its receive time; the path delay in ns. -/
structure TmPort where
  sync : Option (Nat × Nat) := none
  last : Option (Nat × Nat) := none
  asked : Option (Nat × Nat) := none
  peerAsked : Option (Nat × Nat) := none
  peerResp : Option (Nat × Nat × Nat) := none
  delay : Int := 0
deriving DecidableEq, Repr

/-- The time block (R454). -/
structure TimeUnit where
  ctl : W64 := 0
  ofs : W64 := 0
  rate : W64 := 0
  /-- The sequence id of the next message that the unit sends, and what it keeps of each port. -/
  id : Nat := 0
  ports : Tab TmPort := []
  /-- Consecutive synchronisations within 10 ns, to 16. -/
  good : Nat := 0
deriving DecidableEq, Repr

/-! ## The module -/

/-- The firmware trap registers of the Iluet (R369). -/
structure FwRegs where
  fvec : W64 := 0
  fpc : W64 := 0
  fcause : W64 := 0
  finfo : W64 := 0
  fstat : W64 := 0
  /-- Stopped after a trap with fstat.crit set (R369). -/
  stopped : Bool := false
deriving DecidableEq, Repr

/-- The state of the module. -/
structure State where
  /-- The agent whose instruction runs. -/
  cur : Agent := .iluet
  /-- What the happening that runs is about: the operands of a row without an encoding. The model's own field. -/
  args : List Nat := []
  /-- Number of the step; free values are functions of it. The model's own field. -/
  seq : Nat := 0
  /-- `time` in nanoseconds (R453). -/
  time : Nat := 0
  /-- Happenings that fall due at a time, in order of time. -/
  agenda : List (Nat × Event) := []
  /-- Messages and unit activities under way, by number in order of sending. -/
  flight : Tab Msg := []
  /-- Number of the next message. -/
  nextMsg : Nat := 0
  /-- What the outside world does to the module, in order: host accesses, arrivals on trail links, pins. -/
  inputs : List Event := []
  /-- What has left the module: port or flow, and the words sent. The model's own field. -/
  outbox : List (Nat × List Nat) := []
  /-- Memory, as every party coherent with the caches reads it: sorted by key, no zero byte listed. -/
  mem : List Host.Cell := []
  /-- Bytes of DRAM under dirty sectors, where the sector holds newer ones (R393). -/
  under : Tab Byte := []
  /-- Poisoned 64-byte granules, by key / 64 (R401). -/
  poison : List Nat := []
  /-- 64-byte granules (key / 64) with an uncorrectable error that nothing has found yet: in the sector that a slice holds, else in the memory
  itself (R401). Nothing in the model adds to them: errors come from outside. -/
  flaws : List Nat := []
  /-- Error records found in this step, written before it ends, and those that wait for a priority chunk (R213, R428). -/
  errs : List ErrRec := []
  /-- What the scheduler has under way at addresses that are no memory: made before the step ends, unless a device or another module makes it wait (R165,
  R410, R418). -/
  errands : List Errand := []
  cores : Tab Core := []
  cols : Tab Column := []
  /-- Quad matrix units (R9, R239). -/
  quads : Tab Quad := []
  ports : Tab Port := []
  /-- The flow table (R473), and the trail block: links up, replays, rights (R474). -/
  flows : Tab W64 := []
  tlUp : W64 := 0
  tlReplay : Nat := 0
  tlRights : Tab PlbEntry := []
  /-- Links that are being trained, failed receptions of the present flit by link, the reorder buffers by flow (R472 to R474). -/
  tlTrain : Nat := 0
  tlFails : Tab Nat := []
  robs : Tab Rob := []
  /-- Sequence numbers of the trail flows (R217, R472). -/
  flowSeq : Tab Nat := []
  /-- L2 slices, by 64 × stack + column (R50). -/
  slices : Tab Slice := []
  /-- The Iluet's context and firmware trap registers (R356, R369). -/
  iluet : Ctx := {}
  fw : FwRegs := {}
  /-- The Iluet's PLB (R356), and its core's mig.thresh (R397). -/
  iluetPlb : Tab PlbEntry := []
  iluetMig : W64 := 0
  parts : Tab Part := []
  snap : Snap := {}
  /-- tr.root (R388, R394). -/
  trRoot : W64 := 0
  /-- Translation caches: slice number, or 512 + core for a core's scratch translation cache (R391). -/
  tcs : Tab (List TcEntry) := []
  power : Power := {}
  tm : TimeUnit := {}
  /-- Open forests, by 16 × partition + handle (R299). -/
  forests : Tab Forest := []
  scheds : Tab Sched := []
  xlat : Xlat := {}
  boot : Boot := {}
  rom : Rom := {}
  /-- The number of the step in which the sensors were last sampled, and that of the sample which the registers show (R444). -/
  sampled : Option Nat := none
  shown : Option Nat := none
  /-- Tiers that are dark: 8 × stack + tier (R54). -/
  dark : List Nat := []
  /-- Columns (64 × stack + column) whose scratchpads are dark (R435). -/
  darkCols : List Nat := []
  /-- Requests for the priority token, in order, and its holder (R213). -/
  tokenQ : List Nat := []
  tokenHolder : Option Nat := none
deriving DecidableEq, Repr

/-- What stops the machine: nothing the specification describes stops it. -/
inductive Fault where
  /-- Raised by `step` alone, in a state where nothing is under way, nothing falls due and no context can issue; no run from reset
  reaches such a state, since a tick of `time` is always due (safe). -/
  | nothingHappens
deriving DecidableEq, Repr

/-- Why an instruction has no meaning. -/
inductive Refusal where
  /-- Raised by an arm of `exec` whose instruction has no meaning yet (safe). -/
  | notModelled (mnemonic : String)
deriving DecidableEq, Repr

/-- The module right after reset: step 6 of a cold start has put every register, table and unit at its reset value, memory is clear, and the Iluet is
ready to begin at the image entry (R5, R478). The clocks' next happenings are due; step 7 of the start, the firmware's, has its time limit. -/
def State.reset : State :=
  { iluet := { st := .ready }
    agenda := [(1000, ⟨.reservoirTick, [1000]⟩), (10000, ⟨.sensorSample, [10000]⟩), (10000, ⟨.arbiterSample, [10000]⟩),
               (10000, ⟨.slackWindow, [10000]⟩), (1000000, ⟨.counterHalving, [1000000]⟩), (10000000001, ⟨.startStageTimeout, [0]⟩)] }

end Sys2Proof.Machine
end

