-- ==== Sys2Proof/Machine/Formats.lean ====
section
/-!
DEFINITION. The number formats of chapter 4, computed exactly: values, the one rounding (R60), arithmetic (R142 to R145), the SX block
formats (R64 to R67), every conversion (R68, R69) and the fixed orders of sums (R73 to R77).
-/

namespace Sys2Proof.Machine

open Sys2Proof

/-- The flags an operation raises, as bits 5:0 of fx.status: nv 1, dz 2, of 4, uf 8, nx 16, sat 32 (R61). -/
abbrev Flags := BitVec 6

def fNV : Flags := 0b000001
def fDZ : Flags := 0b000010
def fOF : Flags := 0b000100
def fUF : Flags := 0b001000
def fNX : Flags := 0b010000
def fSAT : Flags := 0b100000
def fNone : Flags := 0

/-! ## Values -/

/-- The exact value of an element: a NaN, signalling or quiet; an infinity; or (−1)^neg × m × 2^e, zero with its sign. -/
inductive FVal where
  | nan (sig : Bool)
  | inf (neg : Bool)
  | fin (neg : Bool) (m : Nat) (e : Int)
deriving DecidableEq, Repr

/-- An IEEE-style format: exponent bits and fraction bits (R57). -/
structure FFmt where
  eb : Nat
  fb : Nat
deriving DecidableEq, Repr

def fp32 : FFmt := ⟨8, 23⟩
def fp16 : FFmt := ⟨5, 10⟩
def bf16 : FFmt := ⟨8, 7⟩

def FFmt.width (f : FFmt) : Nat := 1 + f.eb + f.fb
def FFmt.bias (f : FFmt) : Int := 2 ^ (f.eb - 1) - 1
/-- Exponent of the smallest normal number. -/
def FFmt.emin (f : FFmt) : Int := 1 - f.bias
def FFmt.signBit (f : FFmt) (neg : Bool) : Nat := if neg then 2 ^ (f.eb + f.fb) else 0
/-- The infinity of a sign, and the canonical NaN (R57, R59). -/
def FFmt.infBits (f : FFmt) (neg : Bool) : Nat := f.signBit neg + (2 ^ f.eb - 1) * 2 ^ f.fb
def FFmt.nanBits (f : FFmt) : Nat := (2 ^ f.eb - 1) * 2 ^ f.fb + 2 ^ (f.fb - 1)

/-- Reads an element (R57, R58). -/
def FFmt.decode (f : FFmt) (x : Nat) : FVal :=
  let neg := bit x (f.eb + f.fb)
  let e := bits x (f.eb + f.fb - 1) f.fb
  let fr := bits x (f.fb - 1) 0
  if e = 2 ^ f.eb - 1 then
    if fr = 0 then .inf neg else .nan (!bit x (f.fb - 1))
  else if e = 0 then .fin neg fr (f.emin - f.fb)
  else .fin neg (2 ^ f.fb + fr) (e - f.bias - f.fb)

/-! ## Rounding (R60) -/

/-- num / den to the nearest integer, ties to even, and whether that is exact. -/
def rne (num den : Nat) : Nat × Bool :=
  let q := num / den
  let r := num % den
  (if den < 2 * r || (2 * r = den && q % 2 = 1) then q + 1 else q, r = 0)

/-- num / den × 2^e to the nearest integer, ties to even, and whether that is exact. -/
def rneAt (num den : Nat) (e : Int) : Nat × Bool :=
  match e with
  | .ofNat k => rne (num * 2 ^ k) den
  | .negSucc k => rne num (den * 2 ^ (k + 1))

/-- Whether num / den < 2^l. -/
def ltPow (num den : Nat) : Int → Bool
  | .ofNat k => num < den * 2 ^ k
  | .negSucc k => num * 2 ^ (k + 1) < den

/-- floor(log2(num / den)) for a positive quotient. -/
def floorLog (num den : Nat) : Int :=
  let l : Int := (Nat.log2 num : Int) - Nat.log2 den
  if ltPow num den l then l - 1 else l

/-- RoundRNE of the magnitude num / den × 2^e: the bits without the sign, and the flags (R60, R61). -/
def FFmt.roundMag (f : FFmt) (num den : Nat) (e : Int) : Nat × Flags :=
  if num = 0 then (0, 0) else
  let E := floorLog num den + e
  let q := max (E - f.fb) (f.emin - f.fb)
  let (n, exact) := rneAt num den (e - q)
  let (n, q) := if n = 2 ^ (f.fb + 1) then (2 ^ f.fb, q + 1) else (n, q)
  let ex : Int := if n < 2 ^ f.fb then 0 else q + f.fb + f.bias
  if 2 ^ f.eb - 1 ≤ ex then ((2 ^ f.eb - 1) * 2 ^ f.fb, fOF ||| fNX)
  else
    let tiny : Bool := E < f.emin && !(E = f.emin - 1 && (rneAt num den (e - (E - f.fb))).1 = 2 ^ (f.fb + 1))
    (ex.toNat * 2 ^ f.fb + n % 2 ^ f.fb, if exact then 0 else if tiny then fUF ||| fNX else fNX)

/-- RoundRNE of an exact value; a signalling NaN raises nv (R59, R69). -/
def FFmt.round (f : FFmt) : FVal → Nat × Flags
  | .nan sig => (f.nanBits, if sig then fNV else 0)
  | .inf neg => (f.infBits neg, 0)
  | .fin neg m e => let (x, fl) := f.roundMag m 1 e; (f.signBit neg + x, fl)

/-! ## Arithmetic on exact values -/

def FVal.isNan : FVal → Bool
  | .nan _ => true
  | _ => false
def FVal.isSig : FVal → Bool
  | .nan true => true
  | _ => false
def FVal.neg : FVal → FVal
  | .nan s => .nan s
  | .inf n => .inf (!n)
  | .fin n m e => .fin (!n) m e
def FVal.isZero : FVal → Bool
  | .fin _ m _ => m = 0
  | _ => false

/-- The signed integer m × 2^(e − base) of a finite value, for a base exponent at or below its own. -/
def scaled (neg : Bool) (m : Nat) (e base : Int) : Int :=
  let v : Int := (m * 2 ^ (e - base).toNat : Nat)
  if neg then -v else v

/-- Flags of operands that are NaNs. -/
def sigFlag (xs : List FVal) : Flags := if xs.any FVal.isSig then fNV else 0

/-- Exact sum; the second part is nv for opposite infinities. An exact zero is +0 unless both terms are −0. NaN operands give a quiet
NaN. -/
def FVal.add (a b : FVal) : FVal × Flags :=
  match a, b with
  | .nan s, _ => (.nan false, if s || b.isSig then fNV else 0)
  | _, .nan s => (.nan false, if s then fNV else 0)
  | .inf n, .inf k => if n = k then (.inf n, 0) else (.nan false, fNV)
  | .inf n, _ => (.inf n, 0)
  | _, .inf n => (.inf n, 0)
  | .fin n m e, .fin k p g =>
    let base := min e g
    let t := scaled n m e base + scaled k p g base
    (.fin (if t = 0 then n && k && m = 0 && p = 0 else t < 0) t.natAbs base, 0)

/-- Exact product; nv for zero times infinity. -/
def FVal.mul (a b : FVal) : FVal × Flags :=
  match a, b with
  | .nan s, _ => (.nan false, if s || b.isSig then fNV else 0)
  | _, .nan s => (.nan false, if s then fNV else 0)
  | .inf n, .inf k => (.inf (n != k), 0)
  | .inf n, .fin k m _ => if m = 0 then (.nan false, fNV) else (.inf (n != k), 0)
  | .fin k m _, .inf n => if m = 0 then (.nan false, fNV) else (.inf (n != k), 0)
  | .fin n m e, .fin k p g => (.fin (n != k) (m * p) (e + g), 0)

/-- a × b + c, exact, then rounded once (R145, R150). A product of zero and infinity is a NaN and raises nv whatever c is. -/
def FFmt.fma (f : FFmt) (a b c : FVal) : Nat × Flags :=
  let (p, fl) := a.mul b
  let (t, fl2) := p.add c
  let (x, fl3) := f.round t
  (x, fl ||| fl2 ||| fl3)

def FFmt.addOp (f : FFmt) (a b : FVal) : Nat × Flags :=
  let (t, fl) := a.add b
  let (x, fl2) := f.round t
  (x, fl ||| fl2)
def FFmt.mulOp (f : FFmt) (a b : FVal) : Nat × Flags :=
  let (t, fl) := a.mul b
  let (x, fl2) := f.round t
  (x, fl ||| fl2)

/-- a / b rounded once, with the special cases of R144. -/
def FFmt.divOp (f : FFmt) (a b : FVal) : Nat × Flags :=
  match a, b with
  | .nan s, _ => (f.nanBits, if s || b.isSig then fNV else 0)
  | _, .nan s => (f.nanBits, if s then fNV else 0)
  | .inf _, .inf _ => (f.nanBits, fNV)
  | .inf n, .fin k _ _ => (f.infBits (n != k), 0)
  | .fin n _ _, .inf k => (f.signBit (n != k), 0)
  | .fin n m e, .fin k p g =>
    if p = 0 then (if m = 0 then (f.nanBits, fNV) else (f.infBits (n != k), fDZ))
    else
      let (x, fl) := f.roundMag m p (e - g)
      (f.signBit (n != k) + x, fl)

/-- floor(√x) by bits, for x < 2^(2 × n). -/
def isqrt (x : Nat) : Nat → Nat → Nat
  | 0, r => r
  | n + 1, r => let t := r + 2 ^ n; isqrt x n (if t * t ≤ x then t else r)

/-- √a rounded once, with the special cases of R144. -/
def FFmt.sqrtOp (f : FFmt) : FVal → Nat × Flags
  | .nan s => (f.nanBits, if s then fNV else 0)
  | .inf neg => if neg then (f.nanBits, fNV) else (f.infBits false, 0)
  | .fin neg m e =>
    if m = 0 then (f.signBit neg, 0)
    else if neg then (f.nanBits, fNV)
    else
      let odd : Int := e % 2
      let x := m * 2 ^ odd.toNat * 2 ^ 64
      let r := isqrt x 64 0
      let y := 2 * r + (if r * r = x then 0 else 1)
      f.roundMag y 1 ((e - odd) / 2 - 33)

/-- Order of two values that are not NaNs: whether a < b, with −0 equal to +0. -/
def FVal.lt (a b : FVal) : Bool :=
  match a, b with
  | .inf n, .inf k => n && !k
  | .inf n, .fin .. => n
  | .fin .., .inf k => !k
  | .fin n m e, .fin k p g => let base := min e g; scaled n m e base < scaled k p g base
  | _, _ => false
def FVal.eqv (a b : FVal) : Bool := !a.isNan && !b.isNan && !a.lt b && !b.lt a
def FVal.sign : FVal → Bool
  | .nan _ => false
  | .inf n => n
  | .fin n _ _ => n

/-- FMinMax (R143) on bits of a format: the smaller or larger operand, −0 below +0. -/
def FFmt.minMax (f : FFmt) (isMax : Bool) (x y : Nat) : Nat × Flags :=
  let a := f.decode x
  let b := f.decode y
  if a.isNan || b.isNan then (f.nanBits, sigFlag [a, b])
  else
    let less : Bool := a.lt b || (a.isZero && b.isZero && a.sign && !b.sign)
    (if less = isMax then y else x, 0)

/-- The compares of R142 and R148: 0 EQ, 1 LT, 2 LE. -/
def fcmp (p : Nat) (a b : FVal) : Bool × Flags :=
  let nans := a.isNan || b.isNan
  let r := match p with
    | 0 => a.eqv b
    | 1 => !nans && a.lt b
    | _ => !nans && !b.lt a
  (r, if p = 0 then sigFlag [a, b] else if nans then fNV else 0)

/-- The class mask of R143. -/
def FFmt.classMask (f : FFmt) (x : Nat) : Nat :=
  match f.decode x with
  | .inf n => if n then 1 else 2 ^ 7
  | .nan s => if s then 2 ^ 8 else 2 ^ 9
  | .fin n m _ =>
    if m = 0 then (if n then 2 ^ 3 else 2 ^ 4)
    else if m < 2 ^ f.fb then (if n then 2 ^ 2 else 2 ^ 5)
    else (if n then 2 ^ 1 else 2 ^ 6)

/-! ## The SX block formats (R64 to R67) -/

/-- Bytes of a block of 16 elements of width m. -/
def sxBytes (m : Nat) : Nat := 2 + 2 * m

/-- DecodeSX (R66). -/
def decodeSX (blk m : Nat) : List FVal :=
  let F := m - 1
  let E := bits blk 7 0
  (List.range 16).map fun k =>
    let s := bit blk (16 + m * k + m - 1)
    let M := bits blk (16 + m * k + F - 1) (16 + m * k)
    let mu := if bit blk (8 + k / 2) then 1 else 0
    if E = 0xFF then .nan false
    else if E = 0 then .fin s 0 0
    else .fin s M ((E : Int) - 127 - mu - (F - 1))

/-- Fits (R67): whether a magnitude rounds within the format at shared exponent e and micro-exponent u. -/
def fits (F : Nat) (x : FVal) (e u : Nat) : Bool :=
  match x with
  | .fin _ m g => m = 0 || (rneAt m 1 (g - ((e : Int) - 127 - u - (F - 1)))).1 ≤ 2 ^ F - 1
  | _ => false

/-- EncodeSX (R67) of 16 values. -/
def encodeSX (xs : List FVal) (m : Nat) : Nat × Flags :=
  let F := m - 1
  if xs.any FVal.isNan then (0xFF, sigFlag xs)
  else
    let x (k : Nat) : FVal := xs.getD k (.fin false 0 0)
    let ks := List.range 16
    let signs := ks.foldl (fun b k => b + if (x k).sign then 2 ^ (16 + m * k + m - 1) else 0) 0
    if xs.all FVal.isZero then (signs, 0)
    else
      let E := (((List.range 254).map (· + 1)).find? (fun e => xs.all (fun v => fits F v e 0))).getD 254
      let mu (j : Nat) : Nat := if fits F (x (2 * j)) E 1 && fits F (x (2 * j + 1)) E 1 then 1 else 0
      let mus := (List.range 8).foldl (fun b j => b + mu j * 2 ^ (8 + j)) 0
      let one (k : Nat) : Nat × Flags :=
        match x k with
        | .fin _ p g =>
          let (M, exact) := rneAt p 1 (g - ((E : Int) - 127 - mu (k / 2) - (F - 1)))
          if 2 ^ F - 1 < M then (2 ^ F - 1, fSAT ||| fNX) else (M, if exact then 0 else fNX)
        | _ => (2 ^ F - 1, fSAT ||| fNX)
      let ms := ks.map one
      (signs + E + mus + (ms.zip ks).foldl (fun b e => b + e.1.1 * 2 ^ (16 + m * e.2)) 0,
       ms.foldl (fun f e => f ||| e.2) 0)

/-! ## Element formats and conversions (R68, R69) -/

/-- A format of elements: IEEE-style, SX with element width m, signed or unsigned integer of a width. -/
inductive EFmt where
  | flt (f : FFmt)
  | sx (m : Nat)
  | int (w : Nat)
  | nat (w : Nat)
deriving DecidableEq, Repr

/-- Bits of an element; for SX, of a block divided by 16 elements, counted apart. -/
def EFmt.width : EFmt → Nat
  | .flt f => f.width
  | .sx m => m
  | .int w => w
  | .nat w => w
/-- Elements that stand together, and their bytes: 16 for SX, otherwise 1. -/
def EFmt.group : EFmt → Nat
  | .sx _ => 16
  | _ => 1
def EFmt.groupBytes : EFmt → Nat
  | .sx m => sxBytes m
  | f => f.width / 8
/-- Bytes of n elements. -/
def EFmt.bytes (f : EFmt) (n : Nat) : Nat := n / f.group * f.groupBytes
/-- Alignment of a converting access of a bank format (R154). -/
def EFmt.align : EFmt → Nat
  | .sx m => if m = 7 then 16 else 2
  | f => f.width / 8

/-- The exact values of a group of elements. -/
def EFmt.decode (f : EFmt) (x : Nat) : List FVal :=
  match f with
  | .flt g => [g.decode x]
  | .sx m => decodeSX x m
  | .int w => let v := toSigned w x; [.fin (v < 0) v.natAbs 0]
  | .nat w => [.fin false (x % 2 ^ w) 0]

/-- An exact value as an integer within a range, ties to even: clamping raises sat and nx, a NaN gives 0 and nv (R69, R146). -/
def toIntFmt (lo hi : Int) : FVal → Int × Flags
  | .nan _ => (0, fNV)
  | .inf neg => (if neg then lo else hi, fSAT ||| fNX)
  | .fin neg m e =>
    let (n, exact) := rneAt m 1 e
    let v : Int := if neg then -(n : Int) else n
    if v < lo then (lo, fSAT ||| fNX) else if hi < v then (hi, fSAT ||| fNX) else (v, if exact then 0 else fNX)

/-- A group of values in a format, with the flags. -/
def EFmt.encode (f : EFmt) (xs : List FVal) : Nat × Flags :=
  let x := xs.getD 0 (.fin false 0 0)
  match f with
  | .flt g => g.round x
  | .sx m => encodeSX xs m
  | .int w => let (v, fl) := toIntFmt (-(2 ^ (w - 1))) (2 ^ (w - 1) - 1) x; (ofSigned w v, fl)
  | .nat w => let (v, fl) := toIntFmt 0 (2 ^ w - 1) x; (v.toNat, fl)

/-- Cuts a number into n digits of base 2^w, lowest first. -/
def digits (w : Nat) : Nat → Nat → List Nat
  | 0, _ => []
  | n + 1, x => x % 2 ^ w :: digits w n (x / 2 ^ w)
/-- The number of some digits of base 2^w, lowest first. -/
def undigits (w : Nat) : List Nat → Nat
  | [] => 0
  | d :: ds => d % 2 ^ w + 2 ^ w * undigits w ds

/-- The n elements of a value in a format. -/
def EFmt.decodeAll (f : EFmt) (n x : Nat) : List FVal :=
  (digits (8 * f.groupBytes) (n / f.group) x).flatMap f.decode

/-- Cuts a list into runs of a length. -/
def runs {α : Type} (k : Nat) : Nat → List α → List (List α)
  | 0, _ => []
  | n + 1, l => l.take k :: runs k n (l.drop k)

/-- n values in a format, one after the other, and the OR of the flags. -/
def EFmt.encodeAll (f : EFmt) (xs : List FVal) : Nat × Flags :=
  let gs := (runs f.group (xs.length / f.group) xs).map f.encode
  (undigits (8 * f.groupBytes) (gs.map (·.1)), gs.foldl (fun fl g => fl ||| g.2) 0)

/-- The conversion of n elements (R68); bytes move unchanged between equal formats (R71). -/
def convert (src dst : EFmt) (n x : Nat) : Nat × Flags :=
  if src = dst then (x % 2 ^ (8 * src.bytes n), 0) else dst.encodeAll (src.decodeAll n x)

/-- The bank formats (R47); 0 is raw. -/
def bankFmt : Nat → Option EFmt
  | 1 => some (.flt fp32)
  | 2 => some (.flt fp16)
  | 3 => some (.flt bf16)
  | 4 => some (.sx 7)
  | 5 => some (.sx 4)
  | 6 => some (.sx 2)
  | 7 => some (.int 8)
  | 8 => some (.int 32)
  | _ => none

/-- The register formats of VLDC, VSTC, VLDB and VFCVT (R93). -/
def regFmt : Nat → EFmt
  | 0 => .flt fp32
  | 1 => .flt fp16
  | 2 => .flt bf16
  | 3 => .sx 7
  | 4 => .int 32
  | 5 => .int 16
  | _ => .int 8

/-- Elements that a register holds in a format (R140). -/
def EFmt.regCount : EFmt → Nat
  | .sx _ => 32
  | f => 256 / f.width

end Sys2Proof.Machine
end

