-- ==== Sys2Proof/Config.lean ====
section
/-!
DEFINITION. What an implementation fixes and the free values: constants without a body, so that nothing can be proved of
the number they give and a claim holds whatever it is. Each is applied to the step number `State.seq` (a value of its own at
every step) or to what it depends on. Each is named in the assumption log.
-/

namespace Sys2Proof.Config

/-- Which of several things that could happen next happens next (log 3). -/
opaque choice : Nat → Nat
/-- How many nanoseconds a step takes (log 4). -/
opaque lapse : Nat → Nat
/-- How many core cycles an access of memory leaves a core without an issue (R448; log 4). -/
opaque stallCycles : Nat → Nat
/-- An unpredictable 64-bit value (R6): registers a live map left out (R35), reads the manual calls unpredictable (log 5). -/
opaque freeWord : Nat → Nat → BitVec 64
/-- An unpredictable 256-bit value for a vector register a live map left out (R35; log 5). -/
opaque freeVec : Nat → Nat → BitVec 256
/-- What a load from a host device or another module returns (R53; log 6). -/
opaque freeByte : Nat → Nat → BitVec 8
/-- Whether a stale copy of a translation or of code is used where the manual lets either be used (R222, R392, R393; log 7). -/
opaque stale : Nat → Bool
/-- The set of a slice in which a line stands (R51; log 8). -/
opaque l2Set : Nat → Nat
/-- Which way of a set a fill takes (R49, R51; log 8). -/
opaque victim : Nat → Nat
/-- Whether a fill is delivered without being installed (R51; log 8). -/
opaque bypass : Nat → Bool
/-- The nanoseconds that a number of core cycles takes at a clock (log 9). -/
opaque cyclesToNs : Nat → Nat → Nat
/-- The fused entries of the V–F curve, in MHz (R439; log 15). -/
opaque fuse : Nat → Nat
/-- A reading of a sensor, a current or a power meter (R444, R451; log 10). -/
opaque sensor : Nat → Nat → Nat
/-- Whether a step of a start, or a write of a checkpoint's image, succeeds (R478, R484; log 10). -/
opaque succeeds : Nat → Bool
/-- SHA-256 of some bytes, as a number (R480, R481; log 38). -/
opaque sha256 : List (BitVec 8) → Nat
/-- Whether a signature by a key over some bytes verifies: SLH-DSA-SHA2-256s (R480; log 38). -/
opaque verifies : List (BitVec 8) → List (BitVec 8) → List (BitVec 8) → Bool
/-- Byte `k` of the signature by a private key over some bytes (R481; log 38). -/
opaque signature : List (BitVec 8) → List (BitVec 8) → Nat → BitVec 8
/-- CRC-64 of some bytes (R472; log 59). -/
opaque crc64 : List (BitVec 8) → Nat
/-- Whether a false match of a signature squashes a chunk (R211; log 11). -/
opaque falseMatch : Nat → Bool

end Sys2Proof.Config
end

