-- ==== Sys2Proof/Decode.lean ====
section
/-!
DEFINITION. Decoding (R79 to R94) and, after it, encoding.
A word is decoded by its major opcode, then by the fixed bits of each row of that major; what no row takes is no
instruction, and decoding says so by name (`DecodeError`): a reserved major, an unassigned minor code, a set must-be-zero
bit, a field value its row does not allow, the halfword 0x0000 (R94 row 2).
-/

namespace Sys2Proof

/-- Why bytes are not an instruction. -/
inductive DecodeError where
  /-- The bytes end inside an instruction. -/
  | short
  /-- A 16-bit word that is no instruction; carries the halfword. -/
  | illegal16 (h : Nat)
  /-- A 32-bit word that is no instruction; carries the word. -/
  | illegal32 (w : Nat)
deriving DecidableEq, Repr

/-- The rows of the 32-bit major opcode 0x01 (R88). -/
def decodeMajor01 (w : Nat) : Option Instr :=
  if bits w 10 1 = 0 then some (.add (bits w 25 21) (bits w 20 16) (bits w 15 11))
  else if bits w 10 1 = 1 then some (.sub (bits w 25 21) (bits w 20 16) (bits w 15 11))
  else if bits w 10 1 = 2 then some (.and (bits w 25 21) (bits w 20 16) (bits w 15 11))
  else if bits w 10 1 = 3 then some (.or (bits w 25 21) (bits w 20 16) (bits w 15 11))
  else if bits w 10 1 = 4 then some (.xor (bits w 25 21) (bits w 20 16) (bits w 15 11))
  else if bits w 10 1 = 5 then some (.andn (bits w 25 21) (bits w 20 16) (bits w 15 11))
  else if bits w 10 1 = 6 then some (.sll (bits w 25 21) (bits w 20 16) (bits w 15 11))
  else if bits w 10 1 = 7 then some (.srl (bits w 25 21) (bits w 20 16) (bits w 15 11))
  else if bits w 10 1 = 8 then some (.sra (bits w 25 21) (bits w 20 16) (bits w 15 11))
  else if bits w 10 1 = 9 then some (.slt (bits w 25 21) (bits w 20 16) (bits w 15 11))
  else if bits w 10 1 = 0xa then some (.sltn (bits w 25 21) (bits w 20 16) (bits w 15 11))
  else if bits w 10 1 = 0xb then some (.min (bits w 25 21) (bits w 20 16) (bits w 15 11))
  else if bits w 10 1 = 0xc then some (.max (bits w 25 21) (bits w 20 16) (bits w 15 11))
  else if bits w 10 1 = 0xd then some (.minn (bits w 25 21) (bits w 20 16) (bits w 15 11))
  else if bits w 10 1 = 0xe then some (.maxn (bits w 25 21) (bits w 20 16) (bits w 15 11))
  else if bits w 10 1 = 0xf then some (.addv (bits w 25 21) (bits w 20 16) (bits w 15 11))
  else if bits w 10 1 = 0x10 then some (.subv (bits w 25 21) (bits w 20 16) (bits w 15 11))
  else if bits w 15 1 = 0x11 then some (.clz (bits w 25 21) (bits w 20 16))
  else if bits w 15 1 = 0x12 then some (.ctz (bits w 25 21) (bits w 20 16))
  else if bits w 15 1 = 0x13 then some (.popc (bits w 25 21) (bits w 20 16))
  else if bits w 15 1 = 0x14 then some (.sextB (bits w 25 21) (bits w 20 16))
  else if bits w 15 1 = 0x15 then some (.sextH (bits w 25 21) (bits w 20 16))
  else if bits w 15 1 = 0x16 then some (.sextW (bits w 25 21) (bits w 20 16))
  else if bits w 15 1 = 0x17 then some (.zextB (bits w 25 21) (bits w 20 16))
  else if bits w 15 1 = 0x18 then some (.zextH (bits w 25 21) (bits w 20 16))
  else if bits w 15 1 = 0x19 then some (.zextW (bits w 25 21) (bits w 20 16))
  else none

/-- The rows of the 32-bit major opcode 0x02 (R88). -/
def decodeMajor02 (w : Nat) : Option Instr :=
  if bits w 10 1 = 0 then some (.mul (bits w 25 21) (bits w 20 16) (bits w 15 11))
  else if bits w 10 1 = 1 then some (.mulh (bits w 25 21) (bits w 20 16) (bits w 15 11))
  else if bits w 10 1 = 2 then some (.mulhn (bits w 25 21) (bits w 20 16) (bits w 15 11))
  else if bits w 10 1 = 3 then some (.mulv (bits w 25 21) (bits w 20 16) (bits w 15 11))
  else if bits w 10 1 = 4 then some (.div (bits w 25 21) (bits w 20 16) (bits w 15 11))
  else if bits w 10 1 = 5 then some (.divn (bits w 25 21) (bits w 20 16) (bits w 15 11))
  else if bits w 10 1 = 6 then some (.rem (bits w 25 21) (bits w 20 16) (bits w 15 11))
  else if bits w 10 1 = 7 then some (.remn (bits w 25 21) (bits w 20 16) (bits w 15 11))
  else none

/-- The rows of the 32-bit major opcode 0x03 (R88). -/
def decodeMajor03 (w : Nat) : Option Instr :=
  some (.addi (bits w 25 21) (bits w 20 16) (toSigned 15 (bits w 15 1)))

/-- The rows of the 32-bit major opcode 0x04 (R88). -/
def decodeMajor04 (w : Nat) : Option Instr :=
  some (.andi (bits w 25 21) (bits w 20 16) (toSigned 15 (bits w 15 1)))

/-- The rows of the 32-bit major opcode 0x05 (R88). -/
def decodeMajor05 (w : Nat) : Option Instr :=
  some (.ori (bits w 25 21) (bits w 20 16) (toSigned 15 (bits w 15 1)))

/-- The rows of the 32-bit major opcode 0x06 (R88). -/
def decodeMajor06 (w : Nat) : Option Instr :=
  some (.xori (bits w 25 21) (bits w 20 16) (toSigned 15 (bits w 15 1)))

/-- The rows of the 32-bit major opcode 0x07 (R88). -/
def decodeMajor07 (w : Nat) : Option Instr :=
  if bits w 15 7 = 0 then some (.slli (bits w 25 21) (bits w 20 16) (bits w 6 1))
  else if bits w 15 7 = 0x80 then some (.srli (bits w 25 21) (bits w 20 16) (bits w 6 1))
  else if bits w 15 7 = 0x100 then some (.srai (bits w 25 21) (bits w 20 16) (bits w 6 1))
  else none

/-- The rows of the 32-bit major opcode 0x08 (R88). -/
def decodeMajor08 (w : Nat) : Option Instr :=
  if bits w 15 15 = 0 then some (.slti (bits w 25 21) (bits w 20 16) (toSigned 14 (bits w 14 1)))
  else if bits w 15 15 = 1 then some (.sltni (bits w 25 21) (bits w 20 16) (toSigned 14 (bits w 14 1)))
  else none

/-- The rows of the 32-bit major opcode 0x09 (R88). -/
def decodeMajor09 (w : Nat) : Option Instr :=
  some (.li (bits w 25 21) (toSigned 20 (bits w 20 1)))

/-- The rows of the 32-bit major opcode 0x0A (R88). -/
def decodeMajor0A (w : Nat) : Option Instr :=
  if bits w 20 17 = 0 then some (.lis (bits w 25 21) (bits w 16 1))
  else none

/-- The rows of the 32-bit major opcode 0x0B (R88). -/
def decodeMajor0B (w : Nat) : Option Instr :=
  if bits w 15 1 = 0 ∧ bits w 25 21 < 8 then some (.oxw (bits w 25 21) (bits w 20 16))
  else if bits w 15 1 = 0x2000 ∧ bits w 20 16 < 8 then some (.oxr (bits w 25 21) (bits w 20 16))
  else if bits w 20 14 = 2 ∧ bits w 25 21 < 8 then some (.oxi (bits w 25 21) (toSigned 13 (bits w 13 1)))
  else none

/-- The rows of the 32-bit major opcode 0x0C (R88). -/
def decodeMajor0C (w : Nat) : Option Instr :=
  some (.beq (bits w 25 21) (bits w 20 16) (toSigned 15 (bits w 15 1)))

/-- The rows of the 32-bit major opcode 0x0D (R88). -/
def decodeMajor0D (w : Nat) : Option Instr :=
  some (.bne (bits w 25 21) (bits w 20 16) (toSigned 15 (bits w 15 1)))

/-- The rows of the 32-bit major opcode 0x0E (R88). -/
def decodeMajor0E (w : Nat) : Option Instr :=
  some (.blt (bits w 25 21) (bits w 20 16) (toSigned 15 (bits w 15 1)))

/-- The rows of the 32-bit major opcode 0x0F (R88). -/
def decodeMajor0F (w : Nat) : Option Instr :=
  some (.bge (bits w 25 21) (bits w 20 16) (toSigned 15 (bits w 15 1)))

/-- The rows of the 32-bit major opcode 0x10 (R88). -/
def decodeMajor10 (w : Nat) : Option Instr :=
  some (.bltn (bits w 25 21) (bits w 20 16) (toSigned 15 (bits w 15 1)))

/-- The rows of the 32-bit major opcode 0x11 (R88). -/
def decodeMajor11 (w : Nat) : Option Instr :=
  some (.bgen (bits w 25 21) (bits w 20 16) (toSigned 15 (bits w 15 1)))

/-- The rows of the 32-bit major opcode 0x12 (R88). -/
def decodeMajor12 (w : Nat) : Option Instr :=
  some (.jal (bits w 25 21) (toSigned 20 (bits w 20 1)))

/-- The rows of the 32-bit major opcode 0x13 (R88). -/
def decodeMajor13 (w : Nat) : Option Instr :=
  some (.jalr (bits w 25 21) (bits w 20 16) (toSigned 15 (bits w 15 1)))

/-- The rows of the 32-bit major opcode 0x14 (R88). -/
def decodeMajor14 (w : Nat) : Option Instr :=
  if bits w 25 22 = 0 ∧ 3 ≤ bits w 15 1 then some (.lsetup (bits w 21 21) (bits w 20 16) (bits w 15 1))
  else if bits w 25 22 = 1 ∧ 3 ≤ bits w 10 1 then some (.lsetupi (bits w 21 21) (bits w 20 11) (bits w 10 1))
  else none

/-- The rows of the 32-bit major opcode 0x15 (R88). -/
def decodeMajor15 (w : Nat) : Option Instr :=
  if bits w 20 13 = 0 then some (.mfs (bits w 25 21) (bits w 12 1))
  else if bits w 25 21 = 0 ∧ bits w 15 13 = 2 then some (.mts (bits w 20 16) (bits w 12 1))
  else if bits w 25 21 = 0 ∧ bits w 15 13 = 4 then some (.mset (bits w 20 16) (bits w 12 1))
  else if bits w 25 21 = 0 ∧ bits w 15 13 = 6 then some (.mclr (bits w 20 16) (bits w 12 1))
  else none

/-- The rows of the 32-bit major opcode 0x16 (R88). -/
def decodeMajor16 (w : Nat) : Option Instr :=
  if bits w 25 21 = 0 ∧ bits w 5 1 = 0 then some (.start (bits w 20 16) (bits w 15 11) (bits w 10 6))
  else if bits w 25 1 = 0x100000 then some (.retire)
  else if bits w 25 1 = 0x200000 then some (.yield)
  else if bits w 25 21 = 3 ∧ bits w 15 1 = 0 then some (.join (bits w 20 16))
  else if bits w 25 17 = 0x40 then some (.safe (bits w 16 1))
  else if bits w 25 21 = 5 ∧ bits w 5 1 = 0 then some (.mpost (bits w 20 16) (bits w 15 11) (bits w 10 6))
  else none

/-- The rows of the 32-bit major opcode 0x17 (R88). -/
def decodeMajor17 (w : Nat) : Option Instr :=
  if bits w 25 17 = 0 then some (.trap (bits w 16 1))
  else if bits w 25 17 = 0x10 then some (.brk (bits w 16 1))
  else if bits w 25 1 = 0x200000 then some (.eret)
  else if bits w 25 1 = 0x300000 then some (.uret)
  else if bits w 25 1 = 0x400000 then some (.wfi)
  else if bits w 25 1 = 0x500000 then some (.ifence)
  else if bits w 25 1 = 0x600000 then some (.chunk)
  else if bits w 25 1 = 0x700000 then some (.fenceS)
  else if bits w 25 1 = 0x800000 then some (.fenceF)
  else if bits w 25 1 = 0x900000 then some (.nop)
  else if bits w 25 21 = 0xa ∧ bits w 10 1 = 0 then some (.plbw (bits w 20 16) (bits w 15 11))
  else if bits w 25 21 = 0xb ∧ bits w 15 1 = 0 then some (.plbinv (bits w 20 16))
  else none

/-- The rows of the 32-bit major opcode 0x18 (R88). -/
def decodeMajor18 (w : Nat) : Option Instr :=
  if bits w 13 12 = 0 then some (.ld (bits w 25 21) (bits w 20 16) (bits w 15 14) (toSigned 11 (bits w 11 1)))
  else if bits w 13 12 = 1 ∧ bits w 15 14 < 3 then some (.ldSigned (bits w 25 21) (bits w 20 16) (bits w 15 14) (toSigned 11 (bits w 11 1)))
  else if bits w 13 12 = 2 ∧ bits w 6 1 = 0 then some (.ldx (bits w 25 21) (bits w 20 16) (bits w 15 14) (bits w 11 7))
  else if bits w 13 12 = 3 ∧ bits w 6 1 = 0 ∧ bits w 15 14 < 3 then some (.ldxSigned (bits w 25 21) (bits w 20 16) (bits w 15 14) (bits w 11 7))
  else none

/-- The rows of the 32-bit major opcode 0x19 (R88). -/
def decodeMajor19 (w : Nat) : Option Instr :=
  if bits w 13 12 = 0 then some (.st (bits w 25 21) (bits w 20 16) (bits w 15 14) (toSigned 11 (bits w 11 1)))
  else if bits w 13 12 = 2 ∧ bits w 6 1 = 0 then some (.stx (bits w 25 21) (bits w 20 16) (bits w 15 14) (bits w 11 7))
  else none

/-- The rows of the 32-bit major opcode 0x1A (R88). -/
def decodeMajor1A (w : Nat) : Option Instr :=
  if bits w 13 13 = 0 ∧ bits w 20 16 < 8 then some (.ldp (bits w 25 21) (bits w 20 16) (bits w 15 14) (bits w 12 12) (toSigned 11 (bits w 11 1)))
  else if bits w 13 13 = 1 ∧ bits w 20 16 < 8 then some (.stp (bits w 25 21) (bits w 20 16) (bits w 15 14) (bits w 12 12) (toSigned 11 (bits w 11 1)))
  else none

/-- The rows of the 32-bit major opcode 0x1B (R88). -/
def decodeMajor1B (w : Nat) : Option Instr :=
  if bits w 15 1 = 0 ∧ bits w 25 21 < 8 then some (.pset (bits w 25 21) (bits w 20 16))
  else if bits w 15 1 = 1 ∧ bits w 20 16 < 8 then some (.pget (bits w 25 21) (bits w 20 16))
  else if bits w 15 1 = 2 ∧ bits w 25 21 < 8 then some (.padd (bits w 25 21) (bits w 20 16))
  else if bits w 15 1 = 3 ∧ bits w 25 21 < 8 then some (.pcfg (bits w 25 21) (bits w 20 16))
  else none

/-- The rows of the 32-bit major opcode 0x1C (R88). -/
def decodeMajor1C (w : Nat) : Option Instr :=
  if bits w 10 7 = 0 ∧ bits w 5 1 = 0 then some (.amoAdd (bits w 25 21) (bits w 20 16) (bits w 15 11) (bits w 6 6))
  else if bits w 10 7 = 0 ∧ bits w 5 1 = 1 then some (.amoAnd (bits w 25 21) (bits w 20 16) (bits w 15 11) (bits w 6 6))
  else if bits w 10 7 = 0 ∧ bits w 5 1 = 2 then some (.amoOr (bits w 25 21) (bits w 20 16) (bits w 15 11) (bits w 6 6))
  else if bits w 10 7 = 0 ∧ bits w 5 1 = 3 then some (.amoXor (bits w 25 21) (bits w 20 16) (bits w 15 11) (bits w 6 6))
  else if bits w 10 7 = 0 ∧ bits w 5 1 = 4 then some (.amoMin (bits w 25 21) (bits w 20 16) (bits w 15 11) (bits w 6 6))
  else if bits w 10 7 = 0 ∧ bits w 5 1 = 5 then some (.amoMax (bits w 25 21) (bits w 20 16) (bits w 15 11) (bits w 6 6))
  else if bits w 10 7 = 0 ∧ bits w 5 1 = 6 then some (.amoMinn (bits w 25 21) (bits w 20 16) (bits w 15 11) (bits w 6 6))
  else if bits w 10 7 = 0 ∧ bits w 5 1 = 7 then some (.amoMaxn (bits w 25 21) (bits w 20 16) (bits w 15 11) (bits w 6 6))
  else if bits w 10 7 = 0 ∧ bits w 5 1 = 8 then some (.amoSwap (bits w 25 21) (bits w 20 16) (bits w 15 11) (bits w 6 6))
  else if bits w 10 7 = 0 ∧ bits w 5 1 = 9 then some (.cas (bits w 25 21) (bits w 20 16) (bits w 15 11) (bits w 6 6))
  else none

/-- The rows of the 32-bit major opcode 0x1D (R88). -/
def decodeMajor1D (w : Nat) : Option Instr :=
  if bits w 10 8 = 0 ∧ bits w 5 1 = 0 ∧ bits w 7 6 < 3 then some (.mredAdd (bits w 25 21) (bits w 20 16) (bits w 15 11) (bits w 7 6))
  else if bits w 10 8 = 0 ∧ bits w 5 1 = 8 ∧ bits w 7 6 < 3 then some (.mredMin (bits w 25 21) (bits w 20 16) (bits w 15 11) (bits w 7 6))
  else if bits w 10 8 = 0 ∧ bits w 5 1 = 0x10 ∧ bits w 7 6 < 3 then some (.mredMax (bits w 25 21) (bits w 20 16) (bits w 15 11) (bits w 7 6))
  else if bits w 10 8 = 0 ∧ bits w 5 1 = 1 ∧ bits w 7 6 < 2 then some (.mcas (bits w 25 21) (bits w 20 16) (bits w 15 11) (bits w 7 6))
  else if bits w 10 1 = 0x42 then some (.msca (bits w 25 21) (bits w 20 16) (bits w 15 11))
  else none

/-- The rows of the 32-bit major opcode 0x1E (R88). -/
def decodeMajor1E (w : Nat) : Option Instr :=
  if bits w 25 21 = 0 ∧ bits w 15 12 = 0 then some (.prefL1 (bits w 20 16) (toSigned 11 (bits w 11 1)))
  else if bits w 25 21 = 0 ∧ bits w 15 12 = 4 then some (.prefL2 (bits w 20 16) (toSigned 11 (bits w 11 1)))
  else if bits w 25 21 = 0 ∧ bits w 15 12 = 1 then some (.clean (bits w 20 16) (toSigned 11 (bits w 11 1)))
  else if bits w 25 21 = 0 ∧ bits w 15 12 = 2 then some (.dead (bits w 20 16) (toSigned 11 (bits w 11 1)))
  else none

/-- The rows of the 32-bit major opcode 0x1F (R88). -/
def decodeMajor1F (w : Nat) : Option Instr :=
  if bits w 10 1 = 0 ∧ 1 ≤ bits w 25 21 ∧ 1 ≤ bits w 20 16 then some (.sendr (bits w 25 21) (bits w 20 16) (bits w 15 11))
  else if bits w 20 1 = 0 ∧ 1 ≤ bits w 25 21 then some (.sendrArm (bits w 25 21))
  else if bits w 10 1 = 1 then some (.putq (bits w 25 21) (bits w 20 16) (bits w 15 11))
  else if bits w 20 1 = 2 ∧ 1 ≤ bits w 25 21 ∧ bits w 25 21 % 2 = 0 then some (.ibpop (bits w 25 21))
  else if bits w 20 1 = 3 then some (.iblen (bits w 25 21))
  else if bits w 10 1 = 4 then some (.wsmsg (bits w 25 21) (bits w 20 16) (bits w 15 11))
  else none

/-- The rows of the 32-bit major opcode 0x20 (R88). -/
def decodeMajor20 (w : Nat) : Option Instr :=
  if bits w 10 1 = 0 then some (.cpy (bits w 25 21) (bits w 20 16) (bits w 15 11))
  else if bits w 10 1 = 1 then some (.cpy2d (bits w 25 21) (bits w 20 16) (bits w 15 11))
  else if bits w 10 1 = 2 then some (.gath (bits w 25 21) (bits w 20 16) (bits w 15 11))
  else if bits w 10 1 = 3 then some (.scat (bits w 25 21) (bits w 20 16) (bits w 15 11))
  else if bits w 15 1 = 4 then some (.engq (bits w 25 21) (bits w 20 16))
  else if bits w 15 1 = 5 then some (.engrst (bits w 25 21) (bits w 20 16))
  else none

/-- The rows of the 32-bit major opcode 0x21 (R88). -/
def decodeMajor21 (w : Nat) : Option Instr :=
  if bits w 10 1 = 0 then some (.fadd (bits w 25 21) (bits w 20 16) (bits w 15 11))
  else if bits w 10 1 = 1 then some (.fsub (bits w 25 21) (bits w 20 16) (bits w 15 11))
  else if bits w 10 1 = 2 then some (.fmul (bits w 25 21) (bits w 20 16) (bits w 15 11))
  else if bits w 10 1 = 3 then some (.fdiv (bits w 25 21) (bits w 20 16) (bits w 15 11))
  else if bits w 15 1 = 4 then some (.fsqrt (bits w 25 21) (bits w 20 16))
  else if bits w 10 1 = 5 then some (.fmin (bits w 25 21) (bits w 20 16) (bits w 15 11))
  else if bits w 10 1 = 6 then some (.fmax (bits w 25 21) (bits w 20 16) (bits w 15 11))
  else if bits w 15 1 = 7 then some (.fabs (bits w 25 21) (bits w 20 16))
  else if bits w 15 1 = 8 then some (.fneg (bits w 25 21) (bits w 20 16))
  else if bits w 10 1 = 9 then some (.fsgnj (bits w 25 21) (bits w 20 16) (bits w 15 11))
  else if bits w 10 1 = 0xa then some (.feq (bits w 25 21) (bits w 20 16) (bits w 15 11))
  else if bits w 10 1 = 0xb then some (.flt (bits w 25 21) (bits w 20 16) (bits w 15 11))
  else if bits w 10 1 = 0xc then some (.fle (bits w 25 21) (bits w 20 16) (bits w 15 11))
  else if bits w 15 1 = 0xd then some (.fclass (bits w 25 21) (bits w 20 16))
  else none

/-- The rows of the 32-bit major opcode 0x22 (R88). -/
def decodeMajor22 (w : Nat) : Option Instr :=
  if bits w 15 9 = 0 ∧ bits w 8 5 < 7 ∧ bits w 4 1 < 7 ∧ bits w 8 5 ≠ bits w 4 1 ∧ (4 ≤ bits w 8 5 ∨ 4 ≤ bits w 4 1) then some (.fcvt (bits w 25 21) (bits w 20 16) (bits w 8 5) (bits w 4 1))
  else none

/-- The rows of the 32-bit major opcode 0x23 (R88). -/
def decodeMajor23 (w : Nat) : Option Instr :=
  if bits w 5 1 = 0 then some (.fma (bits w 25 21) (bits w 20 16) (bits w 15 11) (bits w 10 6))
  else if bits w 5 1 = 1 then some (.fms (bits w 25 21) (bits w 20 16) (bits w 15 11) (bits w 10 6))
  else if bits w 5 1 = 2 then some (.fnma (bits w 25 21) (bits w 20 16) (bits w 15 11) (bits w 10 6))
  else none

/-- The rows of the 32-bit major opcode 0x24 (R88). -/
def decodeMajor24 (w : Nat) : Option Instr :=
  if bits w 8 8 = 0 ∧ bits w 6 1 = 0 ∧ bits w 10 9 < 3 then some (.vadd (bits w 25 21) (bits w 20 16) (bits w 15 11) (bits w 10 9) (bits w 7 7))
  else if bits w 8 8 = 0 ∧ bits w 6 1 = 1 ∧ bits w 10 9 < 3 then some (.vsub (bits w 25 21) (bits w 20 16) (bits w 15 11) (bits w 10 9) (bits w 7 7))
  else if bits w 8 1 = 2 ∧ bits w 10 9 < 3 then some (.vmul (bits w 25 21) (bits w 20 16) (bits w 15 11) (bits w 10 9))
  else if bits w 8 7 = 0 ∧ bits w 5 1 = 3 ∧ bits w 10 9 < 3 then some (.vmin (bits w 25 21) (bits w 20 16) (bits w 15 11) (bits w 10 9) (bits w 6 6))
  else if bits w 8 7 = 0 ∧ bits w 5 1 = 4 ∧ bits w 10 9 < 3 then some (.vmax (bits w 25 21) (bits w 20 16) (bits w 15 11) (bits w 10 9) (bits w 6 6))
  else if bits w 8 1 = 5 ∧ bits w 10 9 < 3 then some (.vand (bits w 25 21) (bits w 20 16) (bits w 15 11) (bits w 10 9))
  else if bits w 8 1 = 6 ∧ bits w 10 9 < 3 then some (.vor (bits w 25 21) (bits w 20 16) (bits w 15 11) (bits w 10 9))
  else if bits w 8 1 = 7 ∧ bits w 10 9 < 3 then some (.vxor (bits w 25 21) (bits w 20 16) (bits w 15 11) (bits w 10 9))
  else if bits w 8 1 = 8 ∧ bits w 10 9 < 3 then some (.vsll (bits w 25 21) (bits w 20 16) (bits w 15 11) (bits w 10 9))
  else if bits w 8 1 = 9 ∧ bits w 10 9 < 3 then some (.vsrl (bits w 25 21) (bits w 20 16) (bits w 15 11) (bits w 10 9))
  else if bits w 8 1 = 0xa ∧ bits w 10 9 < 3 then some (.vsra (bits w 25 21) (bits w 20 16) (bits w 15 11) (bits w 10 9))
  else if bits w 8 1 = 0xb ∧ bits w 10 9 < 3 then some (.vcmpeq (bits w 25 21) (bits w 20 16) (bits w 15 11) (bits w 10 9))
  else if bits w 8 7 = 0 ∧ bits w 5 1 = 0xc ∧ bits w 10 9 < 3 then some (.vcmplt (bits w 25 21) (bits w 20 16) (bits w 15 11) (bits w 10 9) (bits w 6 6))
  else if bits w 8 1 = 0xd ∧ bits w 10 9 < 3 then some (.vsel (bits w 25 21) (bits w 20 16) (bits w 15 11) (bits w 10 9))
  else if bits w 15 11 = 0 ∧ bits w 8 1 = 0xe ∧ bits w 10 9 < 3 then some (.vabs (bits w 25 21) (bits w 20 16) (bits w 10 9))
  else none

/-- The rows of the 32-bit major opcode 0x25 (R88). -/
def decodeMajor25 (w : Nat) : Option Instr :=
  if bits w 8 1 = 0 ∧ bits w 10 9 < 3 then some (.vfadd (bits w 25 21) (bits w 20 16) (bits w 15 11) (bits w 10 9))
  else if bits w 8 1 = 1 ∧ bits w 10 9 < 3 then some (.vfsub (bits w 25 21) (bits w 20 16) (bits w 15 11) (bits w 10 9))
  else if bits w 8 1 = 2 ∧ bits w 10 9 < 3 then some (.vfmul (bits w 25 21) (bits w 20 16) (bits w 15 11) (bits w 10 9))
  else if bits w 8 1 = 3 ∧ bits w 10 9 < 3 then some (.vfdiv (bits w 25 21) (bits w 20 16) (bits w 15 11) (bits w 10 9))
  else if bits w 8 1 = 4 ∧ bits w 10 9 < 3 then some (.vfmin (bits w 25 21) (bits w 20 16) (bits w 15 11) (bits w 10 9))
  else if bits w 8 1 = 5 ∧ bits w 10 9 < 3 then some (.vfmax (bits w 25 21) (bits w 20 16) (bits w 15 11) (bits w 10 9))
  else if bits w 8 8 = 0 ∧ bits w 4 1 = 6 ∧ bits w 7 5 < 3 ∧ bits w 10 9 < 3 then some (.vfcmp (bits w 25 21) (bits w 20 16) (bits w 15 11) (bits w 10 9) (bits w 7 5))
  else if bits w 15 11 = 0 ∧ bits w 4 1 = 7 ∧ bits w 10 8 < 7 ∧ bits w 7 5 < 7 ∧ bits w 10 8 ≠ bits w 7 5 ∧ (bits w 10 8 < 4 ∨ bits w 7 5 < 4) then some (.vfcvt (bits w 25 21) (bits w 20 16) (bits w 10 8) (bits w 7 5))
  else none

/-- The rows of the 32-bit major opcode 0x26 (R88). -/
def decodeMajor26 (w : Nat) : Option Instr :=
  if bits w 5 5 = 0 ∧ bits w 2 1 = 0 ∧ bits w 4 3 < 3 then some (.vfma (bits w 25 21) (bits w 20 16) (bits w 15 11) (bits w 10 6) (bits w 4 3))
  else if bits w 5 5 = 0 ∧ bits w 2 1 = 1 ∧ bits w 4 3 < 3 then some (.vfms (bits w 25 21) (bits w 20 16) (bits w 15 11) (bits w 10 6) (bits w 4 3))
  else if bits w 10 1 = 2 then some (.vdot (bits w 25 21) (bits w 20 16) (bits w 15 11))
  else none

/-- The rows of the 32-bit major opcode 0x27 (R88). -/
def decodeMajor27 (w : Nat) : Option Instr :=
  if bits w 15 12 = 0 then some (.vld (bits w 25 21) (bits w 20 16) (toSigned 11 (bits w 11 1)))
  else if bits w 15 12 = 1 then some (.vst (bits w 25 21) (bits w 20 16) (toSigned 11 (bits w 11 1)))
  else if bits w 15 12 = 2 then some (.vlds (bits w 25 21) (bits w 20 16) (toSigned 11 (bits w 11 1)))
  else if bits w 15 12 = 3 then some (.vsts (bits w 25 21) (bits w 20 16) (toSigned 11 (bits w 11 1)))
  else if bits w 15 12 = 4 ∧ bits w 11 9 < 7 then some (.vldc (bits w 25 21) (bits w 20 16) (bits w 11 9) (toSigned 8 (bits w 8 1)))
  else if bits w 15 12 = 5 ∧ bits w 11 9 < 7 then some (.vstc (bits w 25 21) (bits w 20 16) (bits w 11 9) (toSigned 8 (bits w 8 1)))
  else if bits w 15 12 = 6 ∧ bits w 11 9 < 7 ∧ bits w 11 9 ≠ 3 then some (.vldb (bits w 25 21) (bits w 20 16) (bits w 11 9) (toSigned 8 (bits w 8 1)))
  else none

/-- The rows of the 32-bit major opcode 0x28 (R88). -/
def decodeMajor28 (w : Nat) : Option Instr :=
  if bits w 10 5 = 0 ∧ bits w 2 1 = 0 ∧ bits w 4 3 < 3 then some (.vperm (bits w 25 21) (bits w 20 16) (bits w 15 11) (bits w 4 3))
  else if bits w 15 5 = 0 ∧ bits w 2 1 = 1 ∧ bits w 4 3 < 3 then some (.vbcast (bits w 25 21) (bits w 20 16) (bits w 4 3))
  else if bits w 15 10 = 0 ∧ bits w 2 1 = 2 ∧ bits w 4 3 < 3 ∧ bits w 9 5 * 2 ^ bits w 4 3 < 32 then some (.vext (bits w 25 21) (bits w 20 16) (bits w 9 5) (bits w 4 3))
  else if bits w 15 10 = 0 ∧ bits w 2 1 = 3 ∧ bits w 4 3 < 3 ∧ bits w 9 5 * 2 ^ bits w 4 3 < 32 then some (.vins (bits w 25 21) (bits w 20 16) (bits w 9 5) (bits w 4 3))
  else none

/-- The rows of the 32-bit major opcode 0x29 (R88). -/
def decodeMajor29 (w : Nat) : Option Instr :=
  if bits w 15 6 = 0 ∧ bits w 2 1 = 0 ∧ bits w 5 3 < 6 then some (.vrsum (bits w 25 21) (bits w 20 16) (bits w 5 3))
  else if bits w 15 6 = 0 ∧ bits w 2 1 = 1 ∧ bits w 5 3 < 6 then some (.vrmax (bits w 25 21) (bits w 20 16) (bits w 5 3))
  else if bits w 15 6 = 0 ∧ bits w 2 1 = 2 ∧ bits w 5 3 < 6 then some (.vrmin (bits w 25 21) (bits w 20 16) (bits w 5 3))
  else none

/-- The rows of the 32-bit major opcode 0x2A (R88). -/
def decodeMajor2A (w : Nat) : Option Instr :=
  if bits w 25 21 = 0 ∧ bits w 15 1 = 0 then some (.tcfg (bits w 20 16))
  else if bits w 20 1 = 1 then some (.tcfgr (bits w 25 21))
  else if bits w 15 1 = 2 then some (.oclaim (bits w 25 21) (bits w 20 16))
  else if bits w 25 21 = 0 ∧ bits w 15 1 = 3 then some (.orel (bits w 20 16))
  else if bits w 25 21 = 0 ∧ bits w 10 1 = 4 then some (.oload (bits w 20 16) (bits w 15 11))
  else if bits w 25 21 = 0 ∧ bits w 10 1 = 5 then some (.ostore (bits w 20 16) (bits w 15 11))
  else if bits w 15 1 = 6 then some (.oclaimS (bits w 25 21) (bits w 20 16))
  else none

/-- The rows of the 32-bit major opcode 0x2B (R88). -/
def decodeMajor2B (w : Nat) : Option Instr :=
  if bits w 25 21 = 0 ∧ bits w 9 1 = 0 then some (.mma (bits w 20 16) (bits w 15 11) (bits w 10 10))
  else if bits w 9 1 = 1 then some (.mmar (bits w 25 21) (bits w 20 16) (bits w 15 11) (bits w 10 10))
  else if bits w 25 11 = 0 ∧ bits w 9 1 = 2 then some (.accz (bits w 10 10))
  else if bits w 25 21 = 0 ∧ bits w 15 11 = 0 ∧ bits w 9 1 = 3 then some (.accst (bits w 20 16) (bits w 10 10))
  else if bits w 25 21 = 0 ∧ bits w 15 11 = 0 ∧ bits w 9 1 = 4 then some (.accld (bits w 20 16) (bits w 10 10))
  else none

/-- The rows of the 32-bit major opcode 0x2C (R88). -/
def decodeMajor2C (w : Nat) : Option Instr :=
  if bits w 15 1 = 0 then some (.rsv (bits w 25 21) (bits w 20 16))
  else if bits w 15 1 = 1 then some (.rsvt (bits w 25 21) (bits w 20 16))
  else if bits w 20 1 = 2 then some (.rrel (bits w 25 21))
  else if bits w 15 1 = 3 then some (.rwait (bits w 25 21) (bits w 20 16))
  else if bits w 15 1 = 4 then some (.rrd (bits w 25 21) (bits w 20 16))
  else if bits w 15 1 = 5 then some (.rwaitFit (bits w 25 21) (bits w 20 16))
  else none

/-- The rows of the 32-bit major opcode 0x2D (R88). -/
def decodeMajor2D (w : Nat) : Option Instr :=
  if bits w 15 1 = 0 then some (.eqopen (bits w 25 21) (bits w 20 16))
  else if bits w 15 1 = 1 then some (.eqclose (bits w 25 21) (bits w 20 16))
  else if bits w 10 1 = 2 then some (.equnite (bits w 25 21) (bits w 20 16) (bits w 15 11))
  else if bits w 15 1 = 3 then some (.eqfind (bits w 25 21) (bits w 20 16))
  else if bits w 15 1 = 4 then some (.eqsize (bits w 25 21) (bits w 20 16))
  else if bits w 15 1 = 5 then some (.eqcount (bits w 25 21) (bits w 20 16))
  else if bits w 10 1 = 6 then some (.eqlabel (bits w 25 21) (bits w 20 16) (bits w 15 11))
  else if bits w 15 1 = 8 then some (.eqsnap (bits w 25 21) (bits w 20 16))
  else if bits w 15 1 = 9 then some (.equndo (bits w 25 21) (bits w 20 16))
  else if bits w 15 1 = 0xa then some (.eqkeep (bits w 25 21) (bits w 20 16))
  else if bits w 10 1 = 0x10 then some (.eqreduceAddF32 (bits w 25 21) (bits w 20 16) (bits w 15 11))
  else if bits w 10 1 = 0x11 then some (.eqreduceMinF32 (bits w 25 21) (bits w 20 16) (bits w 15 11))
  else if bits w 10 1 = 0x12 then some (.eqreduceMaxF32 (bits w 25 21) (bits w 20 16) (bits w 15 11))
  else if bits w 10 1 = 0x14 then some (.eqreduceAddI32 (bits w 25 21) (bits w 20 16) (bits w 15 11))
  else if bits w 10 1 = 0x15 then some (.eqreduceMinI32 (bits w 25 21) (bits w 20 16) (bits w 15 11))
  else if bits w 10 1 = 0x16 then some (.eqreduceMaxI32 (bits w 25 21) (bits w 20 16) (bits w 15 11))
  else none

/-- The rows of the 32-bit major opcode 0x2E (R88). -/
def decodeMajor2E (w : Nat) : Option Instr :=
  if bits w 25 21 = 0 ∧ bits w 10 1 = 0 then some (.tapPre (bits w 20 16) (bits w 15 11))
  else if bits w 25 21 = 0 ∧ bits w 10 1 = 1 then some (.tapPost (bits w 20 16) (bits w 15 11))
  else if bits w 15 1 = 2 then some (.taprd (bits w 25 21) (bits w 20 16))
  else none

/-- The rows of the 32-bit major opcode 0x2F (R88). -/
def decodeMajor2F (w : Nat) : Option Instr :=
  if bits w 15 1 = 0 then some (.wsrd (bits w 25 21) (bits w 20 16))
  else if bits w 25 21 = 0 ∧ bits w 15 1 = 1 then some (.wspf (bits w 20 16))
  else if bits w 10 1 = 2 then some (.wsupdAdd (bits w 25 21) (bits w 20 16) (bits w 15 11))
  else if bits w 10 1 = 3 then some (.wsupdMin (bits w 25 21) (bits w 20 16) (bits w 15 11))
  else if bits w 10 1 = 4 then some (.wsupdMax (bits w 25 21) (bits w 20 16) (bits w 15 11))
  else if bits w 10 1 = 5 then some (.wsupdOr (bits w 25 21) (bits w 20 16) (bits w 15 11))
  else if bits w 25 21 = 0 ∧ bits w 10 1 = 6 then some (.wsfwd (bits w 20 16) (bits w 15 11))
  else if bits w 25 1 = 7 then some (.wsdone)
  else if bits w 25 1 = 8 then some (.wsdoneKeep)
  else if bits w 25 1 = 9 then some (.wsdoneBypass)
  else none

/-- A 32-bit word (bit 0 is 1), by its major opcode in bits 31:26 (R82, R88). -/
def decode32 (w : Nat) : Option Instr :=
  match w / 2 ^ 26 with
  | 1 => decodeMajor01 w
  | 2 => decodeMajor02 w
  | 3 => decodeMajor03 w
  | 4 => decodeMajor04 w
  | 5 => decodeMajor05 w
  | 6 => decodeMajor06 w
  | 7 => decodeMajor07 w
  | 8 => decodeMajor08 w
  | 9 => decodeMajor09 w
  | 10 => decodeMajor0A w
  | 11 => decodeMajor0B w
  | 12 => decodeMajor0C w
  | 13 => decodeMajor0D w
  | 14 => decodeMajor0E w
  | 15 => decodeMajor0F w
  | 16 => decodeMajor10 w
  | 17 => decodeMajor11 w
  | 18 => decodeMajor12 w
  | 19 => decodeMajor13 w
  | 20 => decodeMajor14 w
  | 21 => decodeMajor15 w
  | 22 => decodeMajor16 w
  | 23 => decodeMajor17 w
  | 24 => decodeMajor18 w
  | 25 => decodeMajor19 w
  | 26 => decodeMajor1A w
  | 27 => decodeMajor1B w
  | 28 => decodeMajor1C w
  | 29 => decodeMajor1D w
  | 30 => decodeMajor1E w
  | 31 => decodeMajor1F w
  | 32 => decodeMajor20 w
  | 33 => decodeMajor21 w
  | 34 => decodeMajor22 w
  | 35 => decodeMajor23 w
  | 36 => decodeMajor24 w
  | 37 => decodeMajor25 w
  | 38 => decodeMajor26 w
  | 39 => decodeMajor27 w
  | 40 => decodeMajor28 w
  | 41 => decodeMajor29 w
  | 42 => decodeMajor2A w
  | 43 => decodeMajor2B w
  | 44 => decodeMajor2C w
  | 45 => decodeMajor2D w
  | 46 => decodeMajor2E w
  | 47 => decodeMajor2F w
  | _ => none

/-- The rows of the 16-bit major opcode 0x01 (R85). -/
def decodeShort01 (w : Nat) : Option Instr :=
  some (.cMv (bits w 10 6) (bits w 5 1))

/-- The rows of the 16-bit major opcode 0x02 (R85). -/
def decodeShort02 (w : Nat) : Option Instr :=
  some (.cAdd (bits w 10 6) (bits w 5 1))

/-- The rows of the 16-bit major opcode 0x03 (R85). -/
def decodeShort03 (w : Nat) : Option Instr :=
  some (.cSub (bits w 10 6) (bits w 5 1))

/-- The rows of the 16-bit major opcode 0x04 (R85). -/
def decodeShort04 (w : Nat) : Option Instr :=
  some (.cAddi (bits w 10 6) (toSigned 5 (bits w 5 1)))

/-- The rows of the 16-bit major opcode 0x05 (R85). -/
def decodeShort05 (w : Nat) : Option Instr :=
  some (.cLi (bits w 10 6) (toSigned 5 (bits w 5 1)))

/-- The rows of the 16-bit major opcode 0x06 (R85). -/
def decodeShort06 (w : Nat) : Option Instr :=
  some (.cSlli (bits w 10 6) (bits w 5 1))

/-- The rows of the 16-bit major opcode 0x07 (R85). -/
def decodeShort07 (w : Nat) : Option Instr :=
  some (.cSrai (bits w 10 6) (bits w 5 1))

/-- The rows of the 16-bit major opcode 0x08 (R85). -/
def decodeShort08 (w : Nat) : Option Instr :=
  some (.cAnd (bits w 10 6) (bits w 5 1))

/-- The rows of the 16-bit major opcode 0x09 (R85). -/
def decodeShort09 (w : Nat) : Option Instr :=
  some (.cOr (bits w 10 6) (bits w 5 1))

/-- The rows of the 16-bit major opcode 0x0A (R85). -/
def decodeShort0A (w : Nat) : Option Instr :=
  some (.cXor (bits w 10 6) (bits w 5 1))

/-- The rows of the 16-bit major opcode 0x0B (R85). -/
def decodeShort0B (w : Nat) : Option Instr :=
  some (.cLd (bits w 10 6) (bits w 5 1))

/-- The rows of the 16-bit major opcode 0x0C (R85). -/
def decodeShort0C (w : Nat) : Option Instr :=
  some (.cSt (bits w 10 6) (bits w 5 1))

/-- The rows of the 16-bit major opcode 0x0D (R85). -/
def decodeShort0D (w : Nat) : Option Instr :=
  some (.cBeqz (bits w 10 6) (toSigned 5 (bits w 5 1)))

/-- The rows of the 16-bit major opcode 0x0E (R85). -/
def decodeShort0E (w : Nat) : Option Instr :=
  some (.cBnez (bits w 10 6) (toSigned 5 (bits w 5 1)))

/-- The rows of the 16-bit major opcode 0x0F (R85). -/
def decodeShort0F (w : Nat) : Option Instr :=
  some (.cJ (toSigned 10 (bits w 10 1)))

/-- The rows of the 16-bit major opcode 0x10 (R85). -/
def decodeShort10 (w : Nat) : Option Instr :=
  if bits w 10 6 = 0 then some (.cJr (bits w 5 1))
  else none

/-- The rows of the 16-bit major opcode 0x11 (R85). -/
def decodeShort11 (w : Nat) : Option Instr :=
  if bits w 10 1 = 0 then some (.cNop)
  else if bits w 10 1 = 1 then some (.cBrk)
  else none

/-- A 16-bit word (bit 0 is 0), by its major opcode in bits 15:11 (R84, R85). -/
def decode16 (w : Nat) : Option Instr :=
  match w / 2 ^ 11 with
  | 1 => decodeShort01 w
  | 2 => decodeShort02 w
  | 3 => decodeShort03 w
  | 4 => decodeShort04 w
  | 5 => decodeShort05 w
  | 6 => decodeShort06 w
  | 7 => decodeShort07 w
  | 8 => decodeShort08 w
  | 9 => decodeShort09 w
  | 10 => decodeShort0A w
  | 11 => decodeShort0B w
  | 12 => decodeShort0C w
  | 13 => decodeShort0D w
  | 14 => decodeShort0E w
  | 15 => decodeShort0F w
  | 16 => decodeShort10 w
  | 17 => decodeShort11 w
  | _ => none

/-- The little-endian value of bytes (R1). -/
def leNat : List Byte → Nat
  | [] => 0
  | b :: bs => b.toNat + 256 * leNat bs

/-- The `n` little-endian bytes of a value. -/
def leBytes : Nat → Nat → List Byte
  | 0, _ => []
  | n + 1, v => BitVec.ofNat 8 v :: leBytes n (v / 256)

/-- Decodes the first instruction of a list of bytes and returns the bytes after it: bit 0 of the first halfword gives
the length (R79). -/
def decode : List Byte → Except DecodeError (Instr × List Byte)
  | b0 :: b1 :: rest =>
    let h := leNat [b0, b1]
    if h % 2 = 0 then
      match decode16 h with
      | some i => .ok (i, rest)
      | none => .error (.illegal16 h)
    else
      match rest with
      | b2 :: b3 :: rest' =>
        let w := leNat [b0, b1, b2, b3]
        match decode32 w with
        | some i => .ok (i, rest')
        | none => .error (.illegal32 w)
      | _ => .error .short
  | _ => .error .short

/-- The instruction whose bits are `w`, numbered as the opcode table numbers them, with zeros above `nbits`: the word is laid out
in little-endian bytes and given to the decoder. -/
def decodeTableWord (nbits w : Nat) : Option Instr :=
  match decode (leBytes 4 (w % 2 ^ nbits)) with
  | .ok (i, _) => some i
  | .error _ => none

/-- A word: its fixed bits and its fields, each with the number of its lowest bit. -/
def wordOf (base : Nat) : List (Nat × Nat) → Nat
  | [] => base
  | (v, lo) :: fs => v * 2 ^ lo + wordOf base fs

/-- The encoding of an instruction: its length in bits and its word. Happenings have none. -/
def encode : Instr → Option (Nat × Nat)
  | .add d a b => some (32, wordOf 0x4000001 [(d, 21), (a, 16), (b, 11)])
  | .sub d a b => some (32, wordOf 0x4000003 [(d, 21), (a, 16), (b, 11)])
  | .and d a b => some (32, wordOf 0x4000005 [(d, 21), (a, 16), (b, 11)])
  | .or d a b => some (32, wordOf 0x4000007 [(d, 21), (a, 16), (b, 11)])
  | .xor d a b => some (32, wordOf 0x4000009 [(d, 21), (a, 16), (b, 11)])
  | .andn d a b => some (32, wordOf 0x400000b [(d, 21), (a, 16), (b, 11)])
  | .sll d a b => some (32, wordOf 0x400000d [(d, 21), (a, 16), (b, 11)])
  | .srl d a b => some (32, wordOf 0x400000f [(d, 21), (a, 16), (b, 11)])
  | .sra d a b => some (32, wordOf 0x4000011 [(d, 21), (a, 16), (b, 11)])
  | .slt d a b => some (32, wordOf 0x4000013 [(d, 21), (a, 16), (b, 11)])
  | .sltn d a b => some (32, wordOf 0x4000015 [(d, 21), (a, 16), (b, 11)])
  | .min d a b => some (32, wordOf 0x4000017 [(d, 21), (a, 16), (b, 11)])
  | .max d a b => some (32, wordOf 0x4000019 [(d, 21), (a, 16), (b, 11)])
  | .minn d a b => some (32, wordOf 0x400001b [(d, 21), (a, 16), (b, 11)])
  | .maxn d a b => some (32, wordOf 0x400001d [(d, 21), (a, 16), (b, 11)])
  | .addv d a b => some (32, wordOf 0x400001f [(d, 21), (a, 16), (b, 11)])
  | .subv d a b => some (32, wordOf 0x4000021 [(d, 21), (a, 16), (b, 11)])
  | .clz d a => some (32, wordOf 0x4000023 [(d, 21), (a, 16)])
  | .ctz d a => some (32, wordOf 0x4000025 [(d, 21), (a, 16)])
  | .popc d a => some (32, wordOf 0x4000027 [(d, 21), (a, 16)])
  | .sextB d a => some (32, wordOf 0x4000029 [(d, 21), (a, 16)])
  | .sextH d a => some (32, wordOf 0x400002b [(d, 21), (a, 16)])
  | .sextW d a => some (32, wordOf 0x400002d [(d, 21), (a, 16)])
  | .zextB d a => some (32, wordOf 0x400002f [(d, 21), (a, 16)])
  | .zextH d a => some (32, wordOf 0x4000031 [(d, 21), (a, 16)])
  | .zextW d a => some (32, wordOf 0x4000033 [(d, 21), (a, 16)])
  | .mul d a b => some (32, wordOf 0x8000001 [(d, 21), (a, 16), (b, 11)])
  | .mulh d a b => some (32, wordOf 0x8000003 [(d, 21), (a, 16), (b, 11)])
  | .mulhn d a b => some (32, wordOf 0x8000005 [(d, 21), (a, 16), (b, 11)])
  | .mulv d a b => some (32, wordOf 0x8000007 [(d, 21), (a, 16), (b, 11)])
  | .div d a b => some (32, wordOf 0x8000009 [(d, 21), (a, 16), (b, 11)])
  | .divn d a b => some (32, wordOf 0x800000b [(d, 21), (a, 16), (b, 11)])
  | .rem d a b => some (32, wordOf 0x800000d [(d, 21), (a, 16), (b, 11)])
  | .remn d a b => some (32, wordOf 0x800000f [(d, 21), (a, 16), (b, 11)])
  | .addi d a i => some (32, wordOf 0xc000001 [(d, 21), (a, 16), (ofSigned 15 i, 1)])
  | .andi d a i => some (32, wordOf 0x10000001 [(d, 21), (a, 16), (ofSigned 15 i, 1)])
  | .ori d a i => some (32, wordOf 0x14000001 [(d, 21), (a, 16), (ofSigned 15 i, 1)])
  | .xori d a i => some (32, wordOf 0x18000001 [(d, 21), (a, 16), (ofSigned 15 i, 1)])
  | .slli d a h => some (32, wordOf 0x1c000001 [(d, 21), (a, 16), (h, 1)])
  | .srli d a h => some (32, wordOf 0x1c004001 [(d, 21), (a, 16), (h, 1)])
  | .srai d a h => some (32, wordOf 0x1c008001 [(d, 21), (a, 16), (h, 1)])
  | .slti d a i => some (32, wordOf 0x20000001 [(d, 21), (a, 16), (ofSigned 14 i, 1)])
  | .sltni d a i => some (32, wordOf 0x20008001 [(d, 21), (a, 16), (ofSigned 14 i, 1)])
  | .li d i => some (32, wordOf 0x24000001 [(d, 21), (ofSigned 20 i, 1)])
  | .lis d i => some (32, wordOf 0x28000001 [(d, 21), (i, 1)])
  | .oxw d a => some (32, wordOf 0x2c000001 [(d, 21), (a, 16)])
  | .oxr d a => some (32, wordOf 0x2c004001 [(d, 21), (a, 16)])
  | .oxi d i => some (32, wordOf 0x2c008001 [(d, 21), (ofSigned 13 i, 1)])
  | .beq a b i => some (32, wordOf 0x30000001 [(a, 21), (b, 16), (ofSigned 15 i, 1)])
  | .bne a b i => some (32, wordOf 0x34000001 [(a, 21), (b, 16), (ofSigned 15 i, 1)])
  | .blt a b i => some (32, wordOf 0x38000001 [(a, 21), (b, 16), (ofSigned 15 i, 1)])
  | .bge a b i => some (32, wordOf 0x3c000001 [(a, 21), (b, 16), (ofSigned 15 i, 1)])
  | .bltn a b i => some (32, wordOf 0x40000001 [(a, 21), (b, 16), (ofSigned 15 i, 1)])
  | .bgen a b i => some (32, wordOf 0x44000001 [(a, 21), (b, 16), (ofSigned 15 i, 1)])
  | .jal d i => some (32, wordOf 0x48000001 [(d, 21), (ofSigned 20 i, 1)])
  | .jalr d a i => some (32, wordOf 0x4c000001 [(d, 21), (a, 16), (ofSigned 15 i, 1)])
  | .lsetup n a i => some (32, wordOf 0x50000001 [(n, 21), (a, 16), (i, 1)])
  | .lsetupi n c i => some (32, wordOf 0x50400001 [(n, 21), (c, 11), (i, 1)])
  | .mfs d r => some (32, wordOf 0x54000001 [(d, 21), (r, 1)])
  | .mts a r => some (32, wordOf 0x54004001 [(a, 16), (r, 1)])
  | .mset a r => some (32, wordOf 0x54008001 [(a, 16), (r, 1)])
  | .mclr a r => some (32, wordOf 0x5400c001 [(a, 16), (r, 1)])
  | .start a b c => some (32, wordOf 0x58000001 [(a, 16), (b, 11), (c, 6)])
  | .retire => some (32, wordOf 0x58200001 [])
  | .yield => some (32, wordOf 0x58400001 [])
  | .join a => some (32, wordOf 0x58600001 [(a, 16)])
  | .safe i => some (32, wordOf 0x58800001 [(i, 1)])
  | .mpost a b c => some (32, wordOf 0x58a00001 [(a, 16), (b, 11), (c, 6)])
  | .trap i => some (32, wordOf 0x5c000001 [(i, 1)])
  | .brk i => some (32, wordOf 0x5c200001 [(i, 1)])
  | .eret => some (32, wordOf 0x5c400001 [])
  | .uret => some (32, wordOf 0x5c600001 [])
  | .wfi => some (32, wordOf 0x5c800001 [])
  | .ifence => some (32, wordOf 0x5ca00001 [])
  | .chunk => some (32, wordOf 0x5cc00001 [])
  | .fenceS => some (32, wordOf 0x5ce00001 [])
  | .fenceF => some (32, wordOf 0x5d000001 [])
  | .nop => some (32, wordOf 0x5d200001 [])
  | .plbw a b => some (32, wordOf 0x5d400001 [(a, 16), (b, 11)])
  | .plbinv a => some (32, wordOf 0x5d600001 [(a, 16)])
  | .ld d a s i => some (32, wordOf 0x60000001 [(d, 21), (a, 16), (s, 14), (ofSigned 11 i, 1)])
  | .ldSigned d a s i => some (32, wordOf 0x60001001 [(d, 21), (a, 16), (s, 14), (ofSigned 11 i, 1)])
  | .ldx d a s b => some (32, wordOf 0x60002001 [(d, 21), (a, 16), (s, 14), (b, 7)])
  | .ldxSigned d a s b => some (32, wordOf 0x60003001 [(d, 21), (a, 16), (s, 14), (b, 7)])
  | .st d a s i => some (32, wordOf 0x64000001 [(d, 21), (a, 16), (s, 14), (ofSigned 11 i, 1)])
  | .stx d a s b => some (32, wordOf 0x64002001 [(d, 21), (a, 16), (s, 14), (b, 7)])
  | .ldp d a s p i => some (32, wordOf 0x68000001 [(d, 21), (a, 16), (s, 14), (p, 12), (ofSigned 11 i, 1)])
  | .stp d a s p i => some (32, wordOf 0x68002001 [(d, 21), (a, 16), (s, 14), (p, 12), (ofSigned 11 i, 1)])
  | .pset d a => some (32, wordOf 0x6c000001 [(d, 21), (a, 16)])
  | .pget d a => some (32, wordOf 0x6c000003 [(d, 21), (a, 16)])
  | .padd d a => some (32, wordOf 0x6c000005 [(d, 21), (a, 16)])
  | .pcfg d a => some (32, wordOf 0x6c000007 [(d, 21), (a, 16)])
  | .amoAdd d a b w => some (32, wordOf 0x70000001 [(d, 21), (a, 16), (b, 11), (w, 6)])
  | .amoAnd d a b w => some (32, wordOf 0x70000003 [(d, 21), (a, 16), (b, 11), (w, 6)])
  | .amoOr d a b w => some (32, wordOf 0x70000005 [(d, 21), (a, 16), (b, 11), (w, 6)])
  | .amoXor d a b w => some (32, wordOf 0x70000007 [(d, 21), (a, 16), (b, 11), (w, 6)])
  | .amoMin d a b w => some (32, wordOf 0x70000009 [(d, 21), (a, 16), (b, 11), (w, 6)])
  | .amoMax d a b w => some (32, wordOf 0x7000000b [(d, 21), (a, 16), (b, 11), (w, 6)])
  | .amoMinn d a b w => some (32, wordOf 0x7000000d [(d, 21), (a, 16), (b, 11), (w, 6)])
  | .amoMaxn d a b w => some (32, wordOf 0x7000000f [(d, 21), (a, 16), (b, 11), (w, 6)])
  | .amoSwap d a b w => some (32, wordOf 0x70000011 [(d, 21), (a, 16), (b, 11), (w, 6)])
  | .cas d a b w => some (32, wordOf 0x70000013 [(d, 21), (a, 16), (b, 11), (w, 6)])
  | .mredAdd d a b t => some (32, wordOf 0x74000001 [(d, 21), (a, 16), (b, 11), (t, 6)])
  | .mredMin d a b t => some (32, wordOf 0x74000011 [(d, 21), (a, 16), (b, 11), (t, 6)])
  | .mredMax d a b t => some (32, wordOf 0x74000021 [(d, 21), (a, 16), (b, 11), (t, 6)])
  | .mcas d a b t => some (32, wordOf 0x74000003 [(d, 21), (a, 16), (b, 11), (t, 6)])
  | .msca d a b => some (32, wordOf 0x74000085 [(d, 21), (a, 16), (b, 11)])
  | .prefL1 a i => some (32, wordOf 0x78000001 [(a, 16), (ofSigned 11 i, 1)])
  | .prefL2 a i => some (32, wordOf 0x78004001 [(a, 16), (ofSigned 11 i, 1)])
  | .clean a i => some (32, wordOf 0x78001001 [(a, 16), (ofSigned 11 i, 1)])
  | .dead a i => some (32, wordOf 0x78002001 [(a, 16), (ofSigned 11 i, 1)])
  | .sendr d a b => some (32, wordOf 0x7c000001 [(d, 21), (a, 16), (b, 11)])
  | .sendrArm d => some (32, wordOf 0x7c000001 [(d, 21)])
  | .putq d a b => some (32, wordOf 0x7c000003 [(d, 21), (a, 16), (b, 11)])
  | .ibpop d => some (32, wordOf 0x7c000005 [(d, 21)])
  | .iblen d => some (32, wordOf 0x7c000007 [(d, 21)])
  | .wsmsg d a b => some (32, wordOf 0x7c000009 [(d, 21), (a, 16), (b, 11)])
  | .cpy d a b => some (32, wordOf 0x80000001 [(d, 21), (a, 16), (b, 11)])
  | .cpy2d d a b => some (32, wordOf 0x80000003 [(d, 21), (a, 16), (b, 11)])
  | .gath d a b => some (32, wordOf 0x80000005 [(d, 21), (a, 16), (b, 11)])
  | .scat d a b => some (32, wordOf 0x80000007 [(d, 21), (a, 16), (b, 11)])
  | .engq d a => some (32, wordOf 0x80000009 [(d, 21), (a, 16)])
  | .engrst d a => some (32, wordOf 0x8000000b [(d, 21), (a, 16)])
  | .fadd d a b => some (32, wordOf 0x84000001 [(d, 21), (a, 16), (b, 11)])
  | .fsub d a b => some (32, wordOf 0x84000003 [(d, 21), (a, 16), (b, 11)])
  | .fmul d a b => some (32, wordOf 0x84000005 [(d, 21), (a, 16), (b, 11)])
  | .fdiv d a b => some (32, wordOf 0x84000007 [(d, 21), (a, 16), (b, 11)])
  | .fsqrt d a => some (32, wordOf 0x84000009 [(d, 21), (a, 16)])
  | .fmin d a b => some (32, wordOf 0x8400000b [(d, 21), (a, 16), (b, 11)])
  | .fmax d a b => some (32, wordOf 0x8400000d [(d, 21), (a, 16), (b, 11)])
  | .fabs d a => some (32, wordOf 0x8400000f [(d, 21), (a, 16)])
  | .fneg d a => some (32, wordOf 0x84000011 [(d, 21), (a, 16)])
  | .fsgnj d a b => some (32, wordOf 0x84000013 [(d, 21), (a, 16), (b, 11)])
  | .feq d a b => some (32, wordOf 0x84000015 [(d, 21), (a, 16), (b, 11)])
  | .flt d a b => some (32, wordOf 0x84000017 [(d, 21), (a, 16), (b, 11)])
  | .fle d a b => some (32, wordOf 0x84000019 [(d, 21), (a, 16), (b, 11)])
  | .fclass d a => some (32, wordOf 0x8400001b [(d, 21), (a, 16)])
  | .fcvt d a t s => some (32, wordOf 0x88000001 [(d, 21), (a, 16), (t, 5), (s, 1)])
  | .fma d a b c => some (32, wordOf 0x8c000001 [(d, 21), (a, 16), (b, 11), (c, 6)])
  | .fms d a b c => some (32, wordOf 0x8c000003 [(d, 21), (a, 16), (b, 11), (c, 6)])
  | .fnma d a b c => some (32, wordOf 0x8c000005 [(d, 21), (a, 16), (b, 11), (c, 6)])
  | .vadd d a b w s => some (32, wordOf 0x90000001 [(d, 21), (a, 16), (b, 11), (w, 9), (s, 7)])
  | .vsub d a b w s => some (32, wordOf 0x90000003 [(d, 21), (a, 16), (b, 11), (w, 9), (s, 7)])
  | .vmul d a b w => some (32, wordOf 0x90000005 [(d, 21), (a, 16), (b, 11), (w, 9)])
  | .vmin d a b w u => some (32, wordOf 0x90000007 [(d, 21), (a, 16), (b, 11), (w, 9), (u, 6)])
  | .vmax d a b w u => some (32, wordOf 0x90000009 [(d, 21), (a, 16), (b, 11), (w, 9), (u, 6)])
  | .vand d a b w => some (32, wordOf 0x9000000b [(d, 21), (a, 16), (b, 11), (w, 9)])
  | .vor d a b w => some (32, wordOf 0x9000000d [(d, 21), (a, 16), (b, 11), (w, 9)])
  | .vxor d a b w => some (32, wordOf 0x9000000f [(d, 21), (a, 16), (b, 11), (w, 9)])
  | .vsll d a b w => some (32, wordOf 0x90000011 [(d, 21), (a, 16), (b, 11), (w, 9)])
  | .vsrl d a b w => some (32, wordOf 0x90000013 [(d, 21), (a, 16), (b, 11), (w, 9)])
  | .vsra d a b w => some (32, wordOf 0x90000015 [(d, 21), (a, 16), (b, 11), (w, 9)])
  | .vcmpeq d a b w => some (32, wordOf 0x90000017 [(d, 21), (a, 16), (b, 11), (w, 9)])
  | .vcmplt d a b w u => some (32, wordOf 0x90000019 [(d, 21), (a, 16), (b, 11), (w, 9), (u, 6)])
  | .vsel d a b w => some (32, wordOf 0x9000001b [(d, 21), (a, 16), (b, 11), (w, 9)])
  | .vabs d a w => some (32, wordOf 0x9000001d [(d, 21), (a, 16), (w, 9)])
  | .vfadd d a b f => some (32, wordOf 0x94000001 [(d, 21), (a, 16), (b, 11), (f, 9)])
  | .vfsub d a b f => some (32, wordOf 0x94000003 [(d, 21), (a, 16), (b, 11), (f, 9)])
  | .vfmul d a b f => some (32, wordOf 0x94000005 [(d, 21), (a, 16), (b, 11), (f, 9)])
  | .vfdiv d a b f => some (32, wordOf 0x94000007 [(d, 21), (a, 16), (b, 11), (f, 9)])
  | .vfmin d a b f => some (32, wordOf 0x94000009 [(d, 21), (a, 16), (b, 11), (f, 9)])
  | .vfmax d a b f => some (32, wordOf 0x9400000b [(d, 21), (a, 16), (b, 11), (f, 9)])
  | .vfcmp d a b f p => some (32, wordOf 0x9400000d [(d, 21), (a, 16), (b, 11), (f, 9), (p, 5)])
  | .vfcvt d a t s => some (32, wordOf 0x9400000f [(d, 21), (a, 16), (t, 8), (s, 5)])
  | .vfma d a b c f => some (32, wordOf 0x98000001 [(d, 21), (a, 16), (b, 11), (c, 6), (f, 3)])
  | .vfms d a b c f => some (32, wordOf 0x98000003 [(d, 21), (a, 16), (b, 11), (c, 6), (f, 3)])
  | .vdot d a b => some (32, wordOf 0x98000005 [(d, 21), (a, 16), (b, 11)])
  | .vld d a i => some (32, wordOf 0x9c000001 [(d, 21), (a, 16), (ofSigned 11 i, 1)])
  | .vst d a i => some (32, wordOf 0x9c001001 [(d, 21), (a, 16), (ofSigned 11 i, 1)])
  | .vlds d a i => some (32, wordOf 0x9c002001 [(d, 21), (a, 16), (ofSigned 11 i, 1)])
  | .vsts d a i => some (32, wordOf 0x9c003001 [(d, 21), (a, 16), (ofSigned 11 i, 1)])
  | .vldc d a f i => some (32, wordOf 0x9c004001 [(d, 21), (a, 16), (f, 9), (ofSigned 8 i, 1)])
  | .vstc d a f i => some (32, wordOf 0x9c005001 [(d, 21), (a, 16), (f, 9), (ofSigned 8 i, 1)])
  | .vldb d a f i => some (32, wordOf 0x9c006001 [(d, 21), (a, 16), (f, 9), (ofSigned 8 i, 1)])
  | .vperm d a b w => some (32, wordOf 0xa0000001 [(d, 21), (a, 16), (b, 11), (w, 3)])
  | .vbcast d a w => some (32, wordOf 0xa0000003 [(d, 21), (a, 16), (w, 3)])
  | .vext d a x w => some (32, wordOf 0xa0000005 [(d, 21), (a, 16), (x, 5), (w, 3)])
  | .vins d a x w => some (32, wordOf 0xa0000007 [(d, 21), (a, 16), (x, 5), (w, 3)])
  | .vrsum d a t => some (32, wordOf 0xa4000001 [(d, 21), (a, 16), (t, 3)])
  | .vrmax d a t => some (32, wordOf 0xa4000003 [(d, 21), (a, 16), (t, 3)])
  | .vrmin d a t => some (32, wordOf 0xa4000005 [(d, 21), (a, 16), (t, 3)])
  | .tcfg a => some (32, wordOf 0xa8000001 [(a, 16)])
  | .tcfgr d => some (32, wordOf 0xa8000003 [(d, 21)])
  | .oclaim d a => some (32, wordOf 0xa8000005 [(d, 21), (a, 16)])
  | .orel a => some (32, wordOf 0xa8000007 [(a, 16)])
  | .oload a b => some (32, wordOf 0xa8000009 [(a, 16), (b, 11)])
  | .ostore a b => some (32, wordOf 0xa800000b [(a, 16), (b, 11)])
  | .oclaimS d a => some (32, wordOf 0xa800000d [(d, 21), (a, 16)])
  | .mma a b n => some (32, wordOf 0xac000001 [(a, 16), (b, 11), (n, 10)])
  | .mmar d a b n => some (32, wordOf 0xac000003 [(d, 21), (a, 16), (b, 11), (n, 10)])
  | .accz n => some (32, wordOf 0xac000005 [(n, 10)])
  | .accst a n => some (32, wordOf 0xac000007 [(a, 16), (n, 10)])
  | .accld a n => some (32, wordOf 0xac000009 [(a, 16), (n, 10)])
  | .rsv d a => some (32, wordOf 0xb0000001 [(d, 21), (a, 16)])
  | .rsvt d a => some (32, wordOf 0xb0000003 [(d, 21), (a, 16)])
  | .rrel d => some (32, wordOf 0xb0000005 [(d, 21)])
  | .rwait d a => some (32, wordOf 0xb0000007 [(d, 21), (a, 16)])
  | .rrd d a => some (32, wordOf 0xb0000009 [(d, 21), (a, 16)])
  | .rwaitFit d a => some (32, wordOf 0xb000000b [(d, 21), (a, 16)])
  | .eqopen d a => some (32, wordOf 0xb4000001 [(d, 21), (a, 16)])
  | .eqclose d a => some (32, wordOf 0xb4000003 [(d, 21), (a, 16)])
  | .equnite d a b => some (32, wordOf 0xb4000005 [(d, 21), (a, 16), (b, 11)])
  | .eqfind d a => some (32, wordOf 0xb4000007 [(d, 21), (a, 16)])
  | .eqsize d a => some (32, wordOf 0xb4000009 [(d, 21), (a, 16)])
  | .eqcount d a => some (32, wordOf 0xb400000b [(d, 21), (a, 16)])
  | .eqlabel d a b => some (32, wordOf 0xb400000d [(d, 21), (a, 16), (b, 11)])
  | .eqsnap d a => some (32, wordOf 0xb4000011 [(d, 21), (a, 16)])
  | .equndo d a => some (32, wordOf 0xb4000013 [(d, 21), (a, 16)])
  | .eqkeep d a => some (32, wordOf 0xb4000015 [(d, 21), (a, 16)])
  | .eqreduceAddF32 d a b => some (32, wordOf 0xb4000021 [(d, 21), (a, 16), (b, 11)])
  | .eqreduceMinF32 d a b => some (32, wordOf 0xb4000023 [(d, 21), (a, 16), (b, 11)])
  | .eqreduceMaxF32 d a b => some (32, wordOf 0xb4000025 [(d, 21), (a, 16), (b, 11)])
  | .eqreduceAddI32 d a b => some (32, wordOf 0xb4000029 [(d, 21), (a, 16), (b, 11)])
  | .eqreduceMinI32 d a b => some (32, wordOf 0xb400002b [(d, 21), (a, 16), (b, 11)])
  | .eqreduceMaxI32 d a b => some (32, wordOf 0xb400002d [(d, 21), (a, 16), (b, 11)])
  | .tapPre a b => some (32, wordOf 0xb8000001 [(a, 16), (b, 11)])
  | .tapPost a b => some (32, wordOf 0xb8000003 [(a, 16), (b, 11)])
  | .taprd d a => some (32, wordOf 0xb8000005 [(d, 21), (a, 16)])
  | .wsrd d a => some (32, wordOf 0xbc000001 [(d, 21), (a, 16)])
  | .wspf a => some (32, wordOf 0xbc000003 [(a, 16)])
  | .wsupdAdd d a b => some (32, wordOf 0xbc000005 [(d, 21), (a, 16), (b, 11)])
  | .wsupdMin d a b => some (32, wordOf 0xbc000007 [(d, 21), (a, 16), (b, 11)])
  | .wsupdMax d a b => some (32, wordOf 0xbc000009 [(d, 21), (a, 16), (b, 11)])
  | .wsupdOr d a b => some (32, wordOf 0xbc00000b [(d, 21), (a, 16), (b, 11)])
  | .wsfwd a b => some (32, wordOf 0xbc00000d [(a, 16), (b, 11)])
  | .wsdone => some (32, wordOf 0xbc00000f [])
  | .wsdoneKeep => some (32, wordOf 0xbc000011 [])
  | .wsdoneBypass => some (32, wordOf 0xbc000013 [])
  | .cMv d a => some (16, wordOf 0x800 [(d, 6), (a, 1)])
  | .cAdd d a => some (16, wordOf 0x1000 [(d, 6), (a, 1)])
  | .cSub d a => some (16, wordOf 0x1800 [(d, 6), (a, 1)])
  | .cAddi d i => some (16, wordOf 0x2000 [(d, 6), (ofSigned 5 i, 1)])
  | .cLi d i => some (16, wordOf 0x2800 [(d, 6), (ofSigned 5 i, 1)])
  | .cSlli d i => some (16, wordOf 0x3000 [(d, 6), (i, 1)])
  | .cSrai d i => some (16, wordOf 0x3800 [(d, 6), (i, 1)])
  | .cAnd d a => some (16, wordOf 0x4000 [(d, 6), (a, 1)])
  | .cOr d a => some (16, wordOf 0x4800 [(d, 6), (a, 1)])
  | .cXor d a => some (16, wordOf 0x5000 [(d, 6), (a, 1)])
  | .cLd d a => some (16, wordOf 0x5800 [(d, 6), (a, 1)])
  | .cSt d a => some (16, wordOf 0x6000 [(d, 6), (a, 1)])
  | .cBeqz d i => some (16, wordOf 0x6800 [(d, 6), (ofSigned 5 i, 1)])
  | .cBnez d i => some (16, wordOf 0x7000 [(d, 6), (ofSigned 5 i, 1)])
  | .cJ i => some (16, wordOf 0x7800 [(ofSigned 10 i, 1)])
  | .cJr a => some (16, wordOf 0x8000 [(a, 1)])
  | .cNop => some (16, wordOf 0x8800 [])
  | .cBrk => some (16, wordOf 0x8802 [])
  | .courierArrival => none
  | .courierSlotStart => none
  | .caravanStart => none
  | .helpersEnded => none
  | .safedlDeadline => none
  | .contextSave => none
  | .chunkCommit => none
  | .priorityTokenGrant => none
  | .remoteStoreGroup => none
  | .remoteAtomic => none
  | .remoteRead => none
  | .scratchStoreAck => none
  | .peerWriteArrival => none
  | .peerLoadArrival => none
  | .peerAck => none
  | .hostWrite => none
  | .hostRead => none
  | .hostSnoop => none
  | .backInvalidate => none
  | .l2Fill => none
  | .bankOpAccept => none
  | .bankOpPerform => none
  | .engineAccept => none
  | .enginePieceDone => none
  | .arriveLoad => none
  | .arriveStore => none
  | .barrierCfgWrite => none
  | .pendWrite => none
  | .barrierAbort => none
  | .chainArrival => none
  | .chainRelease => none
  | .lock => none
  | .lockRelease => none
  | .tryLock => none
  | .wait => none
  | .lineWrite => none
  | .take => none
  | .matrixTake => none
  | .matrixRetire => none
  | .tapAccept => none
  | .reservoirTick => none
  | .sprintCut => none
  | .supplySettle => none
  | .ratioSwitch => none
  | .sensorSample => none
  | .arbiterSample => none
  | .fthrNAssert => none
  | .currentSenseAssert => none
  | .fastThrottleRelease => none
  | .timer => none
  | .userTrapEntry => none
  | .supervisorEntry => none
  | .preemptRequest => none
  | .preemptCancel => none
  | .bankFormatWrite => none
  | .ctxDomWrite => none
  | .errRingMove => none
  | .sendrDelivery => none
  | .senderCompletion => none
  | .putqArrival => none
  | .wsmsgArrival => none
  | .wsfwdArrival => none
  | .handlerStart => none
  | .handlerOverrun => none
  | .handlerTableWrite => none
  | .handlerMemoryWrite => none
  | .eqAsyncCompletion => none
  | .admissionAttempt => none
  | .coreReservation => none
  | .post => none
  | .schedPreempt => none
  | .caravanPreemptTick => none
  | .caravanSave => none
  | .signal => none
  | .cancel => none
  | .endcar => none
  | .pcolsWrite => none
  | .fclose => none
  | .bstop => none
  | .preset => none
  | .snapGo => none
  | .snapRelease => none
  | .snapTimer => none
  | .dbgsnapN => none
  | .snapshotLatch => none
  | .vfReqWrite => none
  | .throtFwWrite => none
  | .rsvFillfwWrite => none
  | .tmStep => none
  | .timingMessage => none
  | .slackWindow => none
  | .slackFigure => none
  | .migrationCount => none
  | .migrationFinish => none
  | .counterHalving => none
  | .tinv => none
  | .promote => none
  | .promotionFinish => none
  | .darkTierPowerUp => none
  | .courierDoorbell => none
  | .powerOn => none
  | .startGo => none
  | .perst => none
  | .startDone => none
  | .startStageTimeout => none
  | .attestDoorbell => none
  | .attestReport => none
  | .checkpointGo => none
  | .checkpointEnd => none
  | .trailFlitReceive => none
  | .tlTrain => none
  | .registerWrite => none
  | .illegalEncoding => none
  | .tierPowerOff => none
  | .hostLinkDown => none
  | .hostLinkUp => none
  | .trailLinkUp => none
  | .startStepEnd => none

/-- The bytes of an instruction in the order of memory. -/
def encodeBytes (i : Instr) : List Byte :=
  match encode i with
  | some (n, w) => leBytes (n / 8) w
  | none => []

/-- The length of an instruction in bytes: 2 for the 16-bit forms, 4 otherwise (R79). -/
def Instr.size (i : Instr) : Nat :=
  match encode i with
  | some (16, _) => 2
  | _ => 4

end Sys2Proof
end

