-- ==== Sys2Proof/Machine/Access.lean ====
section
/-!
DEFINITION. Reading and writing the parts of the state: coordinates (R9), records of units, bytes of memory, messages.
Every other file reaches registers, memory and units through these.
-/

namespace Sys2Proof.Machine

open Sys2Proof

/-! ## Coordinates (R9, R30, R98) -/

/-- Core index in the order stack, y, x. -/
def coreOf (stack y x : Nat) : Nat := stack * 12544 + y * 112 + x
def coreStack (c : Nat) : Nat := c / 12544
def coreY (c : Nat) : Nat := c % 12544 / 112
def coreX (c : Nat) : Nat := c % 112
/-- Column of a core, counted over the module: 64 × stack + c (R9, R50). -/
def colOf (c : Nat) : Nat := 64 * coreStack c + 8 * (coreY c / 14) + coreX c / 14
/-- Quad of a core, counted over the module: 49 × column + q (R9). -/
def quadOf (c : Nat) : Nat := 49 * colOf c + 7 * (coreY c % 14 / 2) + coreX c % 14 / 2
/-- Quad lane of a core (R9). -/
def laneOf (c : Nat) : Nat := 2 * (coreY c % 2) + coreX c % 2
/-- The core of a quad in a lane, from one of the quad's cores (R9). -/
def coreInLane (core lane : Nat) : Nat :=
  coreOf (coreStack core) (coreY core / 2 * 2 + lane / 2) (coreX core / 2 * 2 + lane % 2)
/-- core.id (R98). -/
def coreId (c : Nat) : Nat := coreStack c * 2 ^ 16 + coreY c * 2 ^ 8 + coreX c
/-- The Iluet's core.id (R356). -/
def iluetId : Nat := 0xFFFF
/-- Whether stack, y and x are on the grid. -/
def onGrid (stack y x : Int) : Bool := 0 ≤ stack && stack < 8 && 0 ≤ y && y < 112 && 0 ≤ x && x < 112
/-- The core of a value in the form of core.id, if it is on the grid. -/
def coreOfId (v : Nat) : Option Nat :=
  let st := bits v 18 16
  let y := bits v 15 8
  let x := bits v 7 0
  if y < 112 ∧ x < 112 then some (coreOf st y x) else none
/-- The cores of a column, lowest index first. -/
def coresOfCol (col : Nat) : List Nat :=
  let st := col / 64
  let y0 := 14 * (col % 64 / 8)
  let x0 := 14 * (col % 8)
  (List.range 196).map (fun k => coreOf st (y0 + k / 14) (x0 + k % 14))

/-! ## Cause codes -/

/-- Cause codes (R358). -/
def cILLEGAL : Nat := 0x01
def cPRIV : Nat := 0x02
def cALIGN : Nat := 0x03
def cPROT : Nat := 0x04
def cPAGE : Nat := 0x05
def cDARK : Nat := 0x06
def cBOUNDS : Nat := 0x07
def cOVF : Nat := 0x08
def cFPX : Nat := 0x09
def cTILE : Nat := 0x0A
def cENGINE : Nat := 0x0B
def cCUT : Nat := 0x0C
def cREVOKE : Nat := 0x0D
def cEQ : Nat := 0x0E
def cPROBE : Nat := 0x0F
def cUE : Nat := 0x10
def cBRK : Nat := 0x11
def cSYSCALL : Nat := 0x12
def cFLOW : Nat := 0x13
def cDOUBLE : Nat := 0x14
def cTIMER : Nat := 0x20
def cINBOX : Nat := 0x21
def cTHROTTLE : Nat := 0x22
def cCARAVAN : Nat := 0x23
def cPREEMPT : Nat := 0x24
def cTHERMAL : Nat := 0x30
def cCURRENT : Nat := 0x31
def cERRLOG : Nat := 0x32

/-! ## Records of units -/

def State.core (s : State) (k : Nat) : Core := look {} s.cores k
def State.setCore (s : State) (k : Nat) (c : Core) : State := { s with cores := put k c s.cores }
def State.modCore (s : State) (k : Nat) (f : Core → Core) : State := s.setCore k (f (s.core k))
def State.col (s : State) (k : Nat) : Column := look {} s.cols k
def State.setCol (s : State) (k : Nat) (c : Column) : State := { s with cols := put k c s.cols }
def State.modCol (s : State) (k : Nat) (f : Column → Column) : State := s.setCol k (f (s.col k))
def State.quad (s : State) (k : Nat) : Quad := look {} s.quads k
def State.setQuad (s : State) (k : Nat) (c : Quad) : State := { s with quads := put k c s.quads }
def State.slice (s : State) (k : Nat) : Slice := look {} s.slices k
def State.setSlice (s : State) (k : Nat) (c : Slice) : State := { s with slices := put k c s.slices }
def State.modSlice (s : State) (k : Nat) (f : Slice → Slice) : State := s.setSlice k (f (s.slice k))

/-- The context of an agent. -/
def State.ctx (s : State) : Agent → Ctx
  | .ctx core n => look {} (s.core core).ctxs n
  | .iluet => s.iluet
  | .ws k => (s.slice k).ctx

def State.setCtx (s : State) (ag : Agent) (c : Ctx) : State :=
  match ag with
  | .ctx core n => s.modCore core (fun k => { k with ctxs := put n c k.ctxs })
  | .iluet => { s with iluet := c }
  | .ws k => s.modSlice k (fun l => { l with ctx := c })

def State.modCtx (s : State) (ag : Agent) (f : Ctx → Ctx) : State := s.setCtx ag (f (s.ctx ag))

/-- The registers of an agent. -/
def State.regs (s : State) (ag : Agent) : Regs := (s.ctx ag).r
/-- A change of registers by the context's own instruction. -/
def State.modR (s : State) (ag : Agent) (f : Regs → Regs) : State :=
  s.modCtx ag (fun c => { c with r := f c.r })
/-- A change of registers by the device: it survives a squash (R101, R212). -/
def State.devR (s : State) (ag : Agent) (f : Regs → Regs) : State :=
  s.modCtx ag (fun c => { c with r := f c.r, chunk := { c.chunk with save := f c.chunk.save } })

/-- The core of an agent, where it has one. -/
def Agent.core? : Agent → Option Nat
  | .ctx core _ => some core
  | _ => none
/-- The place from which an agent's messages start: its core, or a number of its own. -/
def Agent.place : Agent → Nat
  | .ctx core _ => core
  | .iluet => 100352
  | .ws _ => 100353
/-- The stack at which an agent's accesses enter the L2 (the Iluet sits in stack 0; R356). -/
def Agent.stack : Agent → Nat
  | .ctx core _ => coreStack core
  | .iluet => 0
  | .ws k => k / 64

/-- A live context (R18). -/
def Ctx.live (c : Ctx) : Bool := c.st = .ready || c.st = .stalled || c.st = .waiting
/-- A context that may be chosen for new work (R18, R19). -/
def Ctx.free (c : Ctx) : Bool := c.st = .idle || c.st = .saved
/-- Nothing of an instruction is under way any more: its requests, its charge and what it waited for. -/
def Ctx.noInstr (c : Ctx) : Ctx :=
  { c with asked := none, reply := none, got := [], waitOn := none, infl := 0, issued := false, missed := false, bankFmt := none }
/-- Wakes a context whose wait has ended, which a frozen one's never does: it is ready and the instruction at its pc runs again. -/
def Ctx.wake (c : Ctx) : Ctx :=
  if c.st = .stalled || (c.st = .waiting && c.why ≠ 6) then { c with st := .ready, why := 0, held := false, waitOn := none } else c
def State.wake (s : State) (ag : Agent) : State := s.modCtx ag Ctx.wake

/-! ## Scalar and other registers (R7) -/

/-- S(n): s0 reads zero. -/
def Regs.S (r : Regs) (n : Nat) : W64 := if n = 0 then 0 else look 0 r.s n
/-- A write of S(n): discarded for s0; otherwise the presence bit is set too (R178). Inside a user handler s24 to s31 are the handler's
own, which have no presence bit. -/
def Regs.setS (r : Regs) (n : Nat) (v : W64) : Regs :=
  if n = 0 then r
  else { r with s := put n v r.s, tpend := del n r.tpend,
                absent := if r.act && 24 ≤ n then r.absent else r.absent &&& ~~~(BitVec.ofNat 32 (2 ^ n)) }
def Regs.V (r : Regs) (n : Nat) : V256 := look 0 r.v n
def Regs.setV (r : Regs) (n : Nat) (v : V256) : Regs := { r with v := put n v r.v }
def Regs.OX (r : Regs) (n : Nat) : W64 := look 0 r.ox n
def Regs.setOX (r : Regs) (n : Nat) (v : W64) : Regs := { r with ox := put n v r.ox }
def Regs.P (r : Regs) (n : Nat) : W64 := look 0 r.p n
def Regs.setP (r : Regs) (n : Nat) (v : W64) : Regs := { r with p := put n v r.p }
def Regs.PW (r : Regs) (n : Nat) : W64 := look 0 r.pw n
def Regs.setPW (r : Regs) (n : Nat) (v : W64) : Regs := { r with pw := put n v r.pw }
/-- Whether a read of S(n) finds it present (R178), and no TCFGR has still to write it (R242). -/
def Regs.present (r : Regs) (n : Nat) : Bool :=
  n = 0 || (!has r.tpend n && ((r.act && 24 ≤ n) || !r.absent.getLsbD n))

/-! ## Memory: keys and bytes

A byte of memory has one key: DRAM by stack and stack-local address, scratchpads by core and offset, handler memories by slice and
offset, host memory by its physical address. -/

def dramKey (stack pa : Nat) : Nat := stack * 2 ^ 35 + pa
def scratchKey (core off : Nat) : Nat := 2 ^ 40 + core * 2 ^ 17 + off
def handlerKey (slice off : Nat) : Nat := 2 ^ 41 + slice * 2 ^ 16 + off
/-- A byte of a physical operand slot of a quad (R246). -/
def slotKey (quad slot off : Nat) : Nat := 2 ^ 42 + (quad * 24 + slot) * 4096 + off
/-- Where the correcting code of a context's accumulator stands among the granules that errors may lie in (R250). -/
def accKey (core n acc : Nat) : Nat := 2 ^ 43 + ((core * 4 + n) * 2 + acc) * 64
def hostKey (pa : Nat) : Nat := 2 ^ 64 + pa
/-- The core whose scratchpad holds a key. -/
def keyCore (k : Nat) : Nat := (k - 2 ^ 40) / 2 ^ 17
def isScratch (k : Nat) : Bool := 2 ^ 40 ≤ k && k < 2 ^ 41
def isDram (k : Nat) : Bool := k < 2 ^ 38

/-- What an unlisted address reads as: memory is cleared at start (R478). -/
def memDefault : Byte := 0

/-- One byte of memory. -/
def memByte (m : List Host.Cell) (k : Nat) : Byte := look memDefault m k
/-- Writes one byte and keeps the canonical form: the byte that an unlisted address reads as is not listed. -/
def memSet (m : List Host.Cell) (k : Nat) (b : Byte) : List Host.Cell :=
  if b = memDefault then del k m else put k b m
/-- The canonical form: addresses strictly rising, no entry equal to what an unlisted address reads as. -/
def Memory.wf : List Host.Cell → Bool
  | [] => true
  | [(_, b)] => b ≠ memDefault
  | (a, b) :: (a', b') :: m => b ≠ memDefault && a < a' && Memory.wf ((a', b') :: m)

def State.byte (s : State) (k : Nat) : Byte := memByte s.mem k
/-- `n` bytes from a key upwards. -/
def State.bytes (s : State) (k n : Nat) : List Byte := (List.range n).map (fun i => s.byte (k + i))
/-- The little-endian value of `n` bytes (R1, R7). -/
def State.value (s : State) (k n : Nat) : Nat := leNat (s.bytes k n)
/-- Writes bytes from a key upwards. -/
def memWrite (m : List Host.Cell) (k : Nat) : List Byte → List Host.Cell
  | [] => m
  | b :: bs => memWrite (memSet m k b) (k + 1) bs
def State.writeBytes (s : State) (k : Nat) (bs : List Byte) : State := { s with mem := memWrite s.mem k bs }

/-- A byte of DRAM itself, below a dirty sector that holds a newer one (R391, R393). -/
def State.rawByte (s : State) (k : Nat) : Byte := look (s.byte k) s.under k
def State.rawValue (s : State) (k n : Nat) : Nat := leNat ((List.range n).map (fun i => s.rawByte (k + i)))

/-! ## Messages and falling due -/

/-- Operand `k` of the happening that runs. -/
def State.arg (s : State) (k : Nat) : Nat := s.args.getD k 0

/-- Puts a message under way and gives its number. -/
def State.send (s : State) (m : Msg) : State :=
  { s with flight := s.flight ++ [(s.nextMsg, m)], nextMsg := s.nextMsg + 1 }
/-- Takes a message out. -/
def State.drop (s : State) (id : Nat) : State := { s with flight := del id s.flight }
/-- A message by its number. -/
def State.msg? (s : State) (id : Nat) : Option Msg := (s.flight.find? (fun e => e.1 = id)).map (·.2)
/-- Whether a message is an access of the host, which no start takes away. -/
def Msg.ofHost (m : Msg) : Bool := m.ev.row = .hostWrite || m.ev.row = .hostRead || m.ev.row = .hostSnoop || m.ev.row = .backInvalidate

/-- Puts an activity of a unit under way: it has a channel of its own. -/
def State.activity (s : State) (row : Instr) (args : List Nat) : State := s.send { chan := 2 ^ 40 + s.nextMsg, ev := ⟨row, args⟩ }
/-- Whether an activity is already under way. -/
def State.underWay (s : State) (row : Instr) (args : List Nat) : Bool := s.flight.any (fun e => e.2.ev = ⟨row, args⟩)
/-- Puts an activity under way unless it already is. -/
def State.start (s : State) (row : Instr) (args : List Nat) : State := if s.underWay row args then s else s.activity row args
/-- Channel of messages from one source core to one destination core (R180, R216). -/
def chanOf (src dst : Nat) : Nat := src * 2 ^ 17 + dst

/-- Notes a happening for a time, behind those due earlier or at the same time. -/
def later (t : Nat) (ev : Event) : List (Nat × Event) → List (Nat × Event)
  | [] => [(t, ev)]
  | (u, e) :: rest => if u ≤ t then (u, e) :: later t ev rest else (t, ev) :: (u, e) :: rest
def State.at (s : State) (t : Nat) (row : Instr) (args : List Nat) : State := { s with agenda := later t ⟨row, args⟩ s.agenda }

/-- Words leave the module through a port or flow. -/
def State.out (s : State) (port : Nat) (words : List Nat) : State := { s with outbox := s.outbox ++ [(port, words)] }

/-- Whether a 64-byte granule (key / 64) is poisoned or holds an uncorrectable error: no consumer uses it (R401). -/
def State.bad (s : State) (g : Nat) : Bool := s.poison.contains g || s.flaws.contains g
def State.noBad (s : State) : Bool := s.poison.isEmpty && s.flaws.isEmpty

end Sys2Proof.Machine
end

