-- ==== Sys2Proof/Machine/Points.lean ====
section
/-!
DEFINITION. Operating points (R13, R245, R280, R439 to R442): the V–F curve, the point at which each column's base and each core stands, how a change of
point proceeds, and when a core's crossing FIFO admits nothing.

A column has a base point, which every core of it has that neither sprints nor changes its own point. A change has phases: 0 the supply rises, 1 the clock is
to change, 2 the crossing FIFO drains for it, 3 the supply falls. The instants are free numbers within the bounds of the rules (log 4).
-/

namespace Sys2Proof.Machine

open Sys2Proof

/-- A fused entry of the V–F curve, in MHz: F(300 + 25 j), or F(480) for j = 8. The curve is the part's (log 15), and what R439 says of
every part holds of it: F(300) ≥ 1,800, F(350) ≥ 2,500, and 15 F(450) + 10 F(475) ≥ 25 × 3,200, which is the interpolation at 460 mV. -/
def fuse (j : Nat) : Nat :=
  let raw (j : Nat) : Nat := Config.fuse j % 2 ^ 16
  if j = 0 then max 1800 (raw 0) else if j = 2 then max 2500 (raw 2)
  else if j = 7 then max ((80000 - 15 * raw 6 + 9) / 10) (raw 7) else raw j
/-- The clock at a supply in mV with a ceiling: the largest multiple of 25 MHz not above the linear interpolation of the curve. -/
def clockAt (ceiling mv : Nat) : Nat :=
  let j := if mv < 475 then (mv - 300) / 25 else 7
  let v0 := 300 + 25 * j
  let dv : Int := if j = 7 then 5 else 25
  let f0 : Int := fuse j
  let f1 : Int := fuse (j + 1)
  min ceiling ((f0 * dv + (f1 - f0) * ((mv : Int) - v0)) / (dv * 25) * 25).toNat

/-- B: the base supply in force (R440). -/
def State.baseSupply (s : State) (col : Nat) : Nat := max 300 (bits (s.col col).vfReq.toNat 8 0 - 25 * s.power.k)
/-- The base point that a column is to have. -/
def State.baseAim (s : State) (col : Nat) : Point := (s.baseSupply col, clockAt 2500 (s.baseSupply col))
/-- The sprint point of a column (R280). -/
def State.sprintAim (s : State) (col : Nat) : Point :=
  let v := bits (s.col col).vfReq.toNat 24 16
  (v, clockAt 3200 v)

/-- The point of a core, before any division by the fast throttle. -/
def State.point (s : State) (core : Nat) : Point := (s.core core).own.getD (s.col (colOf core)).base
/-- The supply in mV and the clock in MHz of a core; the fast throttle divides the clock by four (R452). -/
def State.corePoint (s : State) (core : Nat) : Point :=
  let p := s.point core
  (p.1, if s.power.act then p.2 / 4 else p.2)
/-- A quad unit runs at the operating point of the highest of its four cores, one of which is named (R245). -/
def State.quadPoint (s : State) (core : Nat) : Point :=
  (List.range 4).foldl (fun best l => let p := s.corePoint (coreInLane core l); if best.2 < p.2 then p else best) (s.corePoint core)

/-! ## The crossing FIFO (R442) -/

/-- Whether a change of a column's or a core's clock has its FIFO draining. -/
def drains (m : Option Move) : Bool := m.any (fun m => m.phase = 2)
/-- Whether the FIFO of a core admits no request: it drains for a change of the clock ratio. -/
def State.coreClosed (s : State) (core : Nat) : Bool :=
  s.power.drain.isSome || drains (s.core core).move || ((s.core core).own.isNone && drains (s.col (colOf core)).move)
/-- Whether the memory tiers are shut off from an agent, so that an instruction of it that needs them is Stalled. Each context has at most one request in
its core's FIFO, which has 32 entries, so that it is never full. -/
def State.closed (s : State) (ag : Agent) : Bool :=
  match ag.core? with
  | some core => s.coreClosed core
  | none => false

/-! ## Changes of a point -/

/-- Begins a change of the clock ratio: `what` 0 a core's, 1 a column's base, 2 the fast throttle's (`who` 1 its division, 0 the end of that). -/
def State.askRatio (s : State) (what who : Nat) (ns : Nat) : State := s.at (s.time + ns) .ratioSwitch [what, who, 0]

/-- A change from one point to another begins: a rise raises the supply first, settling within 200 ns, a fall begins with the clock (R280, R441). -/
def beginMove (now aim : Point) : Option Move :=
  if now = aim then none else some { aim := aim, phase := if now.1 < aim.1 then 0 else 1 }

/-- What a change waits for at its beginning; `what` 0 a core, 1 a column's base. -/
def State.startMove (s : State) (what who : Nat) (m : Option Move) : State :=
  match m with
  | none => s
  | some m =>
    if m.phase = 0 then s.at (s.time + Config.lapse s.seq % 201) .supplySettle [who, 1, what] else s.askRatio what who 0

/-- A core goes for the point that it is to have, unless a change is under way: that one is completed first (R280, R442). -/
def State.repoint (s : State) (core : Nat) : State :=
  let c := s.core core
  if c.move.isSome then s else
  let aim := if c.holder.isSome then s.sprintAim (colOf core) else (s.col (colOf core)).base
  match beginMove (s.point core) aim with
  | none => if c.holder.isNone && c.own.isSome then s.modCore core (fun c => { c with own := none }) else s
  | some m => (s.modCore core (fun c => { c with own := some (s.point core), move := some m })).startMove 0 core (some m)

/-- A column's base goes for the point that it is to have: a new B reaches its cores within 1 µs (R441). -/
def State.rebase (s : State) (col : Nat) : State :=
  let k := s.col col
  if k.move.isSome then s else
  match beginMove k.base (s.baseAim col) with
  | none => s
  | some m => (s.modCol col (fun k => { k with move := some m })).startMove 1 col (some m)

/-- The supply or the base of a column has been set anew, or the slack offset: whatever is to change its point begins. -/
def State.repointCol (s : State) (col : Nat) : State :=
  ((s.cores.map (·.1)).filter (fun k => colOf k = col)).foldl State.repoint (s.rebase col)
/-- Every column's base is looked at again. -/
def State.rebaseAll (s : State) : State := (List.range 512).foldl State.rebase s

/-- A change that core or column `who` has under way, with the point it stands at. -/
def State.moveOf (s : State) (what who : Nat) : Option (Point × Move) :=
  if what = 0 then (s.core who).move.map (fun m => (s.point who, m)) else (s.col who).move.map (fun m => ((s.col who).base, m))
/-- A step of a change: the point, and what is still to be done; a change that has ended looks whether another is due. -/
def State.setMove (s : State) (what who : Nat) (p : Point) (m : Option Move) : State :=
  if what = 0 then
    let s := s.modCore who (fun c => { c with own := some p, move := m })
    if m.isNone then s.repoint who else s
  else
    let s := s.modCol who (fun k => { k with base := p, move := m })
    if m.isNone then s.rebase who else s

/-- The supply has settled: a rising clock follows, a fall is complete (R280, R441). -/
def State.settleSupply (s : State) (what who : Nat) (up : Bool) : State :=
  match s.moveOf what who with
  | none => s
  | some (p, m) =>
    if up && m.phase = 0 then (s.setMove what who (m.aim.1, p.2) (some { m with phase := 1 })).askRatio what who 0
    else if !up && m.phase = 3 then s.setMove what who m.aim none
    else s

/-- A source of the fast throttle asserts it, or both have not been clear for the release delay (R452). -/
def State.fastHeld (s : State) : Bool := s.power.pin || s.power.sense || s.time < s.power.clearAt + 1000 * max 1 s.power.hold
/-- Both sources are clear: the release is looked at when their delay has passed (R452). -/
def State.lookRelease (s : State) : State :=
  s.at (Nat.max s.time (s.power.clearAt + 1000 * max 1 s.power.hold)) .fastThrottleRelease []

/-- The FIFO stops admitting requests, and drains within 64 cycles of the slower clock, which is 450 MHz at least; where another change is being made, that one is completed
first (R442). -/
def State.beginDrain (s : State) (what who : Nat) : State :=
  let due (s : State) : State := s.at (s.time + Config.lapse s.seq % 143) .ratioSwitch [what, who, 1]
  let again : State := s.askRatio what who 1
  if what = 2 then
    if s.power.act = (who = 1) then s
    else if s.power.drain.isSome || s.cores.any (fun e => drains e.2.move) || s.cols.any (fun e => drains e.2.move) then again
    else due { s with power := { s.power with drain := some (who = 1) } }
  else
    match s.moveOf what who with
    | none => s
    | some (p, m) =>
      if m.phase ≠ 1 then s
      else if s.power.drain.isSome || (what = 0 && drains (s.col (colOf who)).move) then again
      else due (s.setMove what who p (some { m with phase := 2 }))

/-- The FIFO is empty and the ratio switches; admission resumes. A falling supply then follows the clock within 200 ns. A division by the fast throttle that
nothing holds any more ends when its delay has passed, and an end of it that a new assertion has overtaken is none (R442, R452). -/
def State.switchRatio (s : State) (what who : Nat) : State :=
  if what = 2 then
    let act : Bool := s.fastHeld && (who = 1 || s.power.act)
    let s := { s with power := { s.power with drain := none, act := act } }
    if act && !s.power.pin && !s.power.sense then s.lookRelease else s
  else
    match s.moveOf what who with
    | none => s
    | some (p, m) =>
      if m.phase ≠ 2 then s
      else if m.aim.1 ≤ p.1 && p.1 ≠ m.aim.1 then
        (s.setMove what who (p.1, m.aim.2) (some { m with phase := 3 })).at (s.time + Config.lapse s.seq % 201) .supplySettle [who, 0, what]
      else s.setMove what who m.aim none

/-- Whether a core of the column is changing its point. -/
def State.stepping (s : State) (col : Nat) : Bool :=
  (s.col col).move.isSome || s.cores.any (fun e => colOf e.1 = col && e.2.move.isSome)

/-- vf.state (R440). -/
def State.vfState (s : State) (col : Nat) : W64 :=
  let nsp := (s.cores.filter (fun e => colOf e.1 = col && e.2.holder.isSome)).length
  let b := s.baseSupply col
  n64 (nsp % 256 * 2 ^ 48 + clockAt 2500 b % 2 ^ 16 * 2 ^ 32 + b * 2 ^ 16 + s.power.k * 2 ^ 8 +
       (if s.stepping col then 16 else 0) + (if s.power.act then 2 else 0) + (if (s.col col).vfDeny then 1 else 0))

/-- A write of vf.req. One outside the limits is denied whole (R440). -/
def State.writeVf (s : State) (col v : Nat) : State :=
  let base := bits v 8 0
  let sprint := bits v 24 16
  if 300 ≤ base && base ≤ 350 && base % 5 = 0 && base + 5 ≤ sprint && sprint ≤ 480 && sprint % 5 = 0 then
    (s.modCol col (fun k => { k with vfReq := n64 (sprint * 2 ^ 16 + base) })).repointCol col
  else s.modCol col (fun k => { k with vfDeny := true })

end Sys2Proof.Machine
end

