-- ==== Sys2Proof/Machine/Bank.lean ====
section
/-!
DEFINITION. Memory below the caches: granules, the uncorrectable errors that a read meets (R401), writes past the caches, the bank-side operations
(R132 to R134), and memory as a reader finds it: an accepted bank-side operation has its place in the chunk order already, so that whatever reads
or writes its sector afterwards finds it performed (R133, R215).
-/

namespace Sys2Proof.Machine

open Sys2Proof

/-! ## Granules -/

/-- The 256-byte granules of `n` bytes at a key. -/
def granules (key n : Nat) : List Nat := (List.range ((key % 256 + n - 1) / 256 + 1)).map (fun i => key / 256 + i)
/-- The 64-byte granules of `n` bytes at a key. -/
def granules64 (key n : Nat) : List Nat := (List.range ((key % 64 + n - 1) / 64 + 1)).map (fun i => key / 64 + i)

/-! ## Errors (R401, R427 to R429) -/

/-- The home slice of a Global line on its home stack (R50). -/
def homeSlice (stack va : Nat) : Nat := 64 * stack + bits va 15 10
/-- Where a slice says a record comes from (R428). -/
def sliceLoc (k : Nat) : Nat := (k / 64) * 2 ^ 16 + 0xFF00 + k % 64
/-- The bad 64-byte granules of a sector, as a bitmap (R429). -/
def badMap (bad : List Nat) (sector : Nat) : Nat := ((List.range 4).filter (fun i => bad.contains (sector * 4 + i))).foldl (fun m i => m + 2 ^ i) 0

/-- Notes a record, to be written before the step ends. -/
def State.record (s : State) (e : ErrRec) : State := { s with errs := s.errs ++ [e] }

/-- Bytes are read: an uncorrectable error in them is found, and its granule is marked poisoned where it lies. In a line, one record for each
sector goes to the owner domain, with the sector's bad granules (R401, R429). -/
def State.findFlaws (s : State) (tag : Option LineTag) (va key n : Nat) : State :=
  if s.flaws.isEmpty then s else
  let hit := (granules64 key n).filter s.flaws.contains
  if hit.isEmpty then s else
  let s := { s with flaws := s.flaws.filter (fun g => !hit.contains g), poison := s.poison ++ hit.filter (fun g => !s.poison.contains g) }
  match tag with
  | none => s
  | some t =>
    (hit.map (· / 4)).eraseDups.foldl (init := s) fun s g =>
      s.record { dom := t.own, src := 2, sub := 3, loc := sliceLoc t.home, addr := va + g * 256 - key,
                 w4 := badMap (s.poison ++ s.flaws) g }

/-! ## Writes past the caches -/

/-- Writes bytes past every cache (uncached DRAM; R389). Where a sector holds newer bytes, only the bytes below it change. -/
def State.rawWrite (s : State) (key : Nat) : List Byte → State
  | [] => s
  | b :: bs =>
    let s := if has s.under key then { s with under := put key b s.under } else { s with mem := memSet s.mem key b }
    State.rawWrite s (key + 1) bs

/-! ## Answers and flags -/

/-- Gives a context the answer to the request it waits for. -/
def State.reply (s : State) (code id : Nat) (r : List Nat) : State :=
  let ag := Agent.ofCode code
  if (s.ctx ag).asked = some id then s.modCtx ag (fun c => { c.wake with reply := some r, waitOn := none }) else s

/-- The enable bits 13:8 of fx.status (R61). -/
def Regs.enables (r : Regs) : Flags := BitVec.ofNat 6 (r.fx.toNat / 2 ^ 8)

/-! ## Bank-side operations (R132 to R134) -/

/-- The new value and the flags of a bank-side operation: `op` 0 MRED add, 1 min, 2 max, 3 MCAS, 4 MSCA; `ty` 0 i32, 1 i64, 2 FP32. -/
def bankNew (op ty old y e sc : Nat) : Nat × Flags :=
  let w := if ty = 1 then 64 else 32
  match op with
  | 0 => if ty = 2 then fp32.addOp (fp32.decode old) (fp32.decode y) else ((old + y) % 2 ^ w, 0)
  | 1 => if ty = 2 then fp32.minMax false old y else (if toSigned w y < toSigned w old then y else old, 0)
  | 2 => if ty = 2 then fp32.minMax true old y else (if toSigned w old < toSigned w y then y else old, 0)
  | 3 => (if old = e then y else old, 0)
  | _ => fp32.fma (fp32.decode old) (fp32.decode sc) (fp32.decode y)

/-- One indivisible step at the bank unit (R132), for an accepted operation by its message; a poisoned word is left alone (R134). The words are key,
operation, type, y, e, scale, posted, the domain, the operation's minor code, VA, owner, home slice. -/
def State.bankPerform (s : State) (id : Nat) : State :=
  match s.msg? id with
  | none => s
  | some m =>
    let w (k : Nat) := m.words.getD k 0
    let (key, op, ty) := (w 0, w 1, w 2)
    let ag := Agent.ofCode m.src
    let posted : Bool := w 6 = 1
    let n := if ty = 1 then 8 else 4
    let s := (s.drop id).findFlaws (some { va := w 9 / 256, key := key / 256, home := w 11, ty := 0, own := w 10 }) (w 9) key n
    if s.bad (key / 64) then
      if posted then
        s.record { dom := w 7, src := 4, sub := 1, ctx := m.src % 4, loc := coreId ((ag.core?).getD 0), addr := w 9, w4 := w 8 }
      else s.reply m.src id [1, cUE, w 9 / 64 * 64]
    else
      let old := s.rawValue key n
      let (new, fl) := bankNew op ty old (w 3) (w 4) (w 5)
      if !posted && fl &&& (s.regs ag).enables ≠ 0 then s.reply m.src id [1, cFPX, fl.toNat]
      else (s.rawWrite key (leBytes n new)).reply m.src id [0, old, fl.toNat]

/-- The operations accepted and not yet performed on some 256-byte sectors, in the order of their acceptance. -/
def State.bankPending (s : State) (gs : List Nat) : List Nat :=
  (s.flight.filter (fun e => e.2.ev.row = .bankOpPerform && gs.contains (e.2.words.getD 0 0 / 256))).map (·.1)
/-- The operations accepted on some sectors are performed: what reads or writes the sectors now stands behind them (R133, R215). -/
def State.settleBank (s : State) (gs : List Nat) : State := (s.bankPending gs).foldl State.bankPerform s
/-- Every accepted operation is performed. -/
def State.settleAll (s : State) : State :=
  ((s.flight.filter (fun e => e.2.ev.row = .bankOpPerform)).map (·.1)).foldl State.bankPerform s

/-! ## Memory as a reader finds it -/

/-- Bytes of memory at their place in the chunk order. -/
def State.memBytes (s : State) (key n : Nat) : List Byte := (s.settleBank (granules key n)).bytes key n
/-- Bytes of DRAM below the caches at their place in the chunk order. -/
def State.rawBytes (s : State) (key n : Nat) : List Byte :=
  let s' := s.settleBank (granules key n)
  (List.range n).map (fun i => s'.rawByte (key + i))

end Sys2Proof.Machine
end

