-- ==== Sys2Proof/Machine/Cache.lean ====
section
/-!
DEFINITION. L1, L2 slices and the waystation events they raise (R49 to R55, R329 to R331).

Caches hold tags; the bytes are those of memory as the coherent parties read it. What the caches decide is which accesses need a dark
tier (R54), which translation an access uses (R392), what a walk reads (`under`, R393) and which events a waystation sees.
-/

namespace Sys2Proof.Machine

open Sys2Proof

/-- Tier of a DRAM key, as 8 × stack + tier (R52). -/
def tierOf (key : Nat) : Nat := key / 2 ^ 32
/-- Whether a DRAM byte lies in a dark tier, or a scratchpad byte in a dark column (R54, R435). -/
def State.darkAt (s : State) (key : Nat) : Bool :=
  if isDram key then s.dark.contains (tierOf key)
  else if isScratch key then s.darkCols.contains (colOf (keyCore key))
  else false

/-- The tag of the line `i` lines above a tag. -/
def LineTag.up (t : LineTag) (i : Nat) : LineTag :=
  if i = 0 then t else
  { t with va := t.va + i, key := t.key + i, home := t.home / 64 * 64 + (t.va + i) / 4 % 64 }

/-- Whether a line must reach memory that is dark: a dark DRAM tier, or a HOST page whose port has no link up (ports serve home
stacks 0 to 3 and 4 to 7; R54, R468). -/
def State.darkLine (s : State) (t : LineTag) : Bool :=
  if t.ty = 1 then !(look {} s.ports (t.home / 256)).up else s.darkAt (t.key * 256)

/-! ## Slices -/

/-- The sector of a virtual address in a slice, if lookup finds it. -/
def Slice.find (l : Slice) (va : Nat) : Option Sector :=
  l.sectors.find? (fun e => e.tag.va = va / 256 && !e.kept)
/-- The sector that holds a key. -/
def Slice.findKey (l : Slice) (key : Nat) : Option Sector :=
  l.sectors.find? (fun e => e.tag.key = key / 256 && !e.kept)
/-- The sectors of the 1,024-byte line of a virtual address that lookup finds. -/
def Slice.line (l : Slice) (va : Nat) : List Sector :=
  l.sectors.filter (fun e => e.tag.va / 4 = va / 1024 && !e.kept)
/-- Their bitmap, one bit per sector. -/
def Slice.present (l : Slice) (va : Nat) : Nat :=
  (l.line va).foldl (fun m e => m ||| 2 ^ (e.tag.va % 4)) 0
def Slice.modSectors (l : Slice) (f : Sector → Sector) : Slice := { l with sectors := l.sectors.map f }

/-- The 1,024 bytes of a line, zero where a sector is absent; fill data under way to a requester stands for its sector. -/
def State.lineBytes (s : State) (l : Slice) (va : Nat) (fill : Option LineTag := none) : List Byte :=
  (List.range 4).flatMap fun j =>
    match l.sectors.find? (fun e => e.tag.va = va / 1024 * 4 + j && !e.kept), fill with
    | some e, _ => s.bytes (e.tag.key * 256) 256
    | none, some t => if t.va = va / 1024 * 4 + j then s.bytes (t.key * 256) 256 else List.replicate 256 0
    | none, none => List.replicate 256 0

/-- The bytes of the sector become those of DRAM: nothing of it stands under the cache any more. -/
def State.writeBack (s : State) (key : Nat) : State :=
  { s with under := s.under.filter (fun e => e.1 / 256 ≠ key) }

/-! ## Waystation events (R329, R330) -/

/-- Word w of handler entry e. -/
def Slice.word (l : Slice) (e w : Nat) : Nat := (look 0 l.table (4 * e + w)).toNat
/-- The lowest-numbered live entry for an event kind over a line, of a domain (R329). -/
def Slice.handler (l : Slice) (kind va dom : Nat) : Option Nat :=
  (List.range 16).find? fun e =>
    let w0 := l.word e 0
    let w1 := l.word e 1
    bit w0 0 && bit w1 kind && bits w0 63 16 ≤ bits va 63 16 && bits va 63 16 ≤ bits w1 63 16 && bits (l.word e 2) 63 48 = dom

/-- Steps a saturating 16-bit count in word 3 of an entry: drops (bits 63:48) or aborts (bits 47:32). -/
def Slice.stepCount (l : Slice) (e lo : Nat) : Slice :=
  let w := l.word e 3
  if bits w (lo + 15) lo = 0xFFFF then l else { l with table := put (4 * e + 3) (n64 (w + 2 ^ lo)) l.table }

/-- Raises an event at a slice: it enters the queue of 32, or is dropped and counted (R330). The result says whether a handler of the
domain is registered and whether the event was taken. -/
def State.raiseWs (s : State) (k : Nat) (ev : WsEvent) : State × Bool × Bool :=
  let l := s.slice k
  match l.handler ev.kind ev.va ev.dom with
  | none => (s, false, false)
  | some e =>
    if 32 ≤ l.queue.length then
      (if ev.kind = 3 then s else s.setSlice k (l.stepCount e 48), true, false)
    else
      let ev := { ev with entry := e }
      ((s.setSlice k { l with queue := l.queue ++ [ev] }).start .handlerStart [k], true, true)

/-! ## Eviction and filling -/

/-- An eviction meets the uncorrectable errors of the sectors it takes out: the granules of a dirty one are poisoned as it is written back, a clean
one is dropped and memory holds its copy; each makes a record to the owner domain (R401). -/
def State.evictFlaws (s : State) (k : Nat) (out : List Sector) : State :=
  if s.flaws.isEmpty then s else
  out.foldl (init := s) fun s e =>
    let hit := s.flaws.filter (fun g => g / 4 = e.tag.key)
    if hit.isEmpty then s else
    { s with flaws := s.flaws.filter (fun g => g / 4 ≠ e.tag.key),
             poison := if e.dirty then s.poison ++ hit.filter (fun g => !s.poison.contains g) else s.poison,
             errs := s.errs ++ [{ dom := e.tag.own, src := 2, sub := if e.dirty then 1 else 2, loc := sliceLoc k, addr := e.tag.va * 256,
                                  w4 := badMap (s.poison ++ hit) e.tag.key }] }

/-- Sectors leave a slice, or its dirty ones are written back while they stay: the errors in them are met, and the bytes of the dirty ones become those
of memory (R51, R401). -/
def State.writeOut (s : State) (k : Nat) (out : List Sector) : State :=
  (out.filter (fun e => e.dirty)).foldl (fun s e => s.writeBack e.tag.key) (s.evictFlaws k out)

/-- Evicts a line: its dirty sectors are written back and EVICT is raised for the owner's domain, with a holding entry if one is
free (R51, R331). -/
def State.evict (s : State) (k line : Nat) : State :=
  let l := s.slice k
  let out := l.line (line * 1024)
  let own := match out with
    | e :: _ => e.tag.own
    | [] => 0
  let hold : Bool := l.holds < 4
  let ev : WsEvent :=
    { kind := 2, entry := 0, va := line * 1024, sectors := l.present (line * 1024), dom := own,
      line := (if hold then s.lineBytes l (line * 1024) else []), holdCopy := hold, tags := out.map (·.tag) }
  let r := s.raiseWs k ev
  let s := if hold && r.2.2 then r.1.modSlice k (fun l => { l with holds := l.holds + 1 }) else r.1
  (s.writeOut k out).modSlice k (fun l => { l with sectors := l.sectors.filter (fun e => e.kept || e.tag.va / 4 ≠ line) })

/-- The ways of a line's set that are taken: the line that stands in each, by virtual address and key, and whether it is out of lookup, held for a
tier that is dark. -/
def Slice.ways (l : Slice) (line : Nat) : List (Nat × Nat × Bool) :=
  ((l.sectors.filter (fun e => Config.l2Set (e.tag.va / 4) % 1024 = Config.l2Set line % 1024)).map
    (fun e => (e.tag.va / 4, e.tag.key / 4, e.kept))).eraseDups

/-- Makes room for a line: if its set is full, a victim is chosen, a line marked dead first. A line with a dirty sector for a dark tier is
never a victim: it is pinned, with a record, and another way is taken (R55, R135). The result says whether there is room: where every way of the set
is held for a tier that is dark, none is taken (DESIGN CHOICE, log 8). -/
def State.makeRoom : Nat → State → Nat → Nat → Nat → State × Bool
  | 0, s, _, _, _ => (s, false)
  | fuel + 1, s, k, line, key =>
    let l := s.slice k
    if l.sectors.length < 16 then (s, true) else
    let ways := l.ways line
    if ways.length < 16 || ways.contains (line, key, false) then (s, true) else
    let ok := ways.filter (fun x => !x.2.2 && !(l.sectors.any (fun e => e.tag.va / 4 = x.1 && e.pinned)))
    let dead := ok.filter (fun x => l.sectors.any (fun e => e.tag.va / 4 = x.1 && e.dead && !e.kept))
    let pick := if dead.isEmpty then ok else dead
    match pick[Config.victim s.seq % pick.length]? with
    | none => (s, false)
    | some v =>
      let dark := (l.line (v.1 * 1024)).filter (fun e => e.dirty && s.darkAt (e.tag.key * 256))
      match dark with
      | _ :: _ =>
        let s := s.modSlice k (fun l => l.modSectors (fun e => if e.tag.va / 4 = v.1 && !e.kept then { e with pinned := true } else e))
        let s := dark.foldl (fun s e => s.record { dom := e.tag.own, src := 2, sub := 4, loc := sliceLoc k, addr := e.tag.va * 256,
                                                   w4 := badMap (s.poison ++ s.flaws) e.tag.key }) s
        State.makeRoom fuel s k line key
      | [] => (s.evict k v.1, true)

/-- Who an access is made for: domain, descriptor word 2 of R334 and depth of the prefetching handler (R329). -/
structure Requester where
  dom : Nat := 0
  word : Nat := 0
  depth : Nat := 0
  /-- The requesting stack, where the access counts towards a migration, and the requesting core's mig.thresh<15:0> (R396, R397). -/
  stack : Option Nat := none
  thresh : Nat := 0
deriving DecidableEq, Repr

/-- The requester that a compute context is. -/
def State.requester (s : State) (ag : Agent) : Requester :=
  match ag with
  | .ctx core n =>
    { dom := (s.regs ag).dom.toNat, word := n * 2 ^ 20 + coreId core, stack := some (coreStack core),
      thresh := (s.core core).migThresh.toNat % 2 ^ 16 }
  | .iluet => { dom := (s.regs ag).dom.toNat, word := iluetId, stack := some 0, thresh := s.iluetMig.toNat % 2 ^ 16 }
  | _ => { dom := (s.regs ag).dom.toNat }

/-- Installs a sector in its slice, evicting as needed; without room it is not installed. -/
def State.install (s : State) (k : Nat) (t : LineTag) (dirty : Bool) : State :=
  let r := State.makeRoom 17 s k (t.va / 4) (t.key / 4)
  if r.2 then r.1.modSlice k (fun l => { l with sectors := l.sectors ++ [{ tag := t, dirty := dirty }] }) else r.1

/-- A sector comes into its slice, unless the next fill of its line is to be delivered without allocation (R51, R338). -/
def State.allocate (s : State) (k : Nat) (t : LineTag) : State :=
  if (s.slice k).noAlloc.contains (t.va / 4) then s.modSlice k (fun l => { l with noAlloc := l.noAlloc.filter (· ≠ t.va / 4) })
  else s.install k t false

/-- Fill data arrives at a slice, behind the bank-side operations accepted on its sector: the sector is installed or delivered without allocation, and
FILL is raised (R51, R133, R329). -/
def State.fillSector (s : State) (k : Nat) (t : LineTag) (rq : Requester) : State :=
  let s := s.settleBank [t.key]
  let s := if Config.bypass s.seq && !(s.slice k).noAlloc.contains (t.va / 4) then s else s.allocate k t
  let l := s.slice k
  let ev : WsEvent :=
    { kind := 1, entry := 0, va := t.va * 256 / 1024 * 1024, depth := rq.depth, dom := rq.dom, req := rq.word,
      sectors := l.present (t.va * 256) ||| 2 ^ (t.va % 4), line := s.lineBytes l (t.va * 256) (some t) }
  if rq.depth < 7 then (s.raiseWs k ev).1 else s

/-- The home slice of a DRAM line sends a count to the counting slice of its 64 KiB unit (R396). -/
def State.countUse (s : State) (t : LineTag) (rq : Requester) : State :=
  match rq.stack with
  | some st =>
    if t.ty ≠ 0 then s
    else s.send { chan := 2 ^ 38 + s.nextMsg, ev := ⟨.migrationCount, [s.nextMsg]⟩, words := [t.va * 256, t.home / 64, st, rq.thresh] }
  | none => s

/-- A demand access reaches its home slice: a hit, or a miss that raises MISS and fills (R51, R329). -/
def State.demand (s : State) (k : Nat) (t : LineTag) (rq : Requester) : State :=
  match (s.slice k).find (t.va * 256) with
  | some _ => s
  | none =>
    let l := s.slice k
    let r := s.raiseWs k { kind := 0, entry := 0, va := t.va * 256 / 1024 * 1024, dom := rq.dom, req := rq.word,
                           sectors := l.present (t.va * 256), line := if (l.handler 0 (t.va * 256) rq.dom).isSome then s.lineBytes l (t.va * 256) else [] }
    (r.1.countUse t rq).fillSector k t rq

/-! ## L1 (R49) -/

/-- The L1 tag of a virtual address. -/
def Core.l1Find (c : Core) (va : Nat) : Option LineTag := c.l1.find? (fun t => t.va = va / 256)
/-- Brings a line into L1: four ways in each of 16 sets, which VA<11:8> index (R49; log 8). -/
def Core.l1Fill (c : Core) (seq : Nat) (t : LineTag) : Core :=
  if c.l1.any (fun u => u.va = t.va) then c else
  let inSet := c.l1.filter (fun u => u.va % 16 = t.va % 16)
  if inSet.length < 4 then { c with l1 := c.l1 ++ [t] } else
  match inSet[Config.victim seq % 4]? with
  | some v => { c with l1 := c.l1.filter (· ≠ v) ++ [t] }
  | none => { c with l1 := c.l1 ++ [t] }

/-- Removes L1 copies of the lines of some granules (key / 256) from every core but one (R209). -/
def State.dropL1 (s : State) (keys : List Nat) (but : Option Nat) : State :=
  { s with cores := s.cores.map fun (j, c) =>
      if but = some j then (j, c) else (j, { c with l1 := c.l1.filter (fun t => !keys.contains t.key) }) }

/-! ## Writing Global memory -/

/-- Writes bytes of one sector of Global DRAM or HOST memory at the home slice, behind the bank-side operations accepted on it: the sector is brought in,
by a demand miss where the writer is one that makes them, and becomes dirty; the old bytes of DRAM stay below it. Where its fill is delivered without
allocation, or its set has no room, the bytes go to memory (R49, R51, R338, R393). -/
def State.sectorWrite (s : State) (t : LineTag) (rq : Option Requester) (w : List (Nat × Byte)) : State :=
  if w.isEmpty then s else
  let s := s.settleBank [t.key]
  let here (s : State) : Bool := ((s.slice t.home).find (t.va * 256)).isSome
  let s := if here s then s else
    match rq with
    | some r => s.demand t.home t r
    | none => s.allocate t.home t
  if here s then
    w.foldl (fun s e => { s with under := if has s.under e.1 then s.under else put e.1 (s.byte e.1) s.under, mem := memSet s.mem e.1 e.2 })
      (s.modSlice t.home (fun l => l.modSectors (fun e => if e.tag.va = t.va && !e.kept then { e with dirty := true } else e)))
  else { s with mem := w.foldl (fun m e => memSet m e.1 e.2) s.mem }

/-- Writes bytes from a key upwards, sector by sector; the tag is that of the first. -/
def State.linesWrite (s : State) (t : LineTag) (rq : Option Requester) (key : Nat) (bs : List Byte) : State :=
  let w := bs.zipIdx.map (fun e => (key + e.2, e.1))
  (List.range ((key % 256 + bs.length - 1) / 256 + 1)).foldl
    (fun s i => s.sectorWrite (t.up i) rq (w.filter (fun e => e.1 / 256 = key / 256 + i))) s

end Sys2Proof.Machine
end

