-- ==== Sys2Proof/Machine/Translate.lean ====
section
/-!
DEFINITION. Addresses, protection and translation: the ordered checks of R39, the protection lookaside buffer (R380, R381), the
mesh, event and courier windows (R40 to R42), the walk of the translation table (R387 to R390) and what an access lands on (R53).
-/

namespace Sys2Proof.Machine

open Sys2Proof

/-- A precise trap (R7): its cause, its info word, and for a PROT or PAGE of the PLB or of translation what plb.ctl and plb.fva
record: kind, level and the faulting address (R386); whether the info word is the address concerned (R427). -/
structure Trap where
  cause : Nat
  info : W64
  detail : Nat := 0
  plb : Option (Nat × Nat × W64) := none
  addr : Bool := false
deriving DecidableEq, Repr

/-- Rights an access needs (R123, R381). -/
structure Rights where
  r : Bool := false
  w : Bool := false
  x : Bool := false
  at_ : Bool := false
  e : Bool := false
deriving DecidableEq, Repr

def rdR : Rights := { r := true }
def wrR : Rights := { w := true }
def amoR : Rights := { r := true, w := true, at_ := true }
def exR : Rights := { x := true }

/-! ## The PLB (R380, R381) -/

/-- Whether an entry serves a domain and an address. -/
def PlbEntry.hit (p : PlbEntry) (dom va : Nat) : Bool :=
  p.v && p.dom = dom && bits va 55 0 / 2 ^ p.sz = p.base / 2 ^ p.sz

def PlbEntry.allows (p : PlbEntry) (n : Rights) : Bool :=
  (!n.r || p.r) && (!n.w || p.w) && (!n.x || p.x) && (!n.at_ || p.at_) && (!n.e || p.e)

/-- The lowest-numbered valid entry for a domain and an address: `none` passes, `some 1` is a miss, `some 2` a denial. -/
def plbCheck (plb : Tab PlbEntry) (dom va : Nat) (n : Rights) : Option Nat :=
  match plb.find? (fun e => e.2.hit dom va) with
  | none => some 1
  | some e => if e.2.allows n then none else some 2

/-- The PLB that an agent's accesses are checked against: its core's, or the Iluet's (R356). -/
def State.plbOf (s : State) : Agent → Tab PlbEntry
  | .ctx core _ => (s.core core).plb
  | _ => s.iluetPlb

/-! ## The table (R387 to R390) -/

/-- Why a walk ends without a leaf (R390). -/
inductive WalkFail where
  | page (kind lvl : Nat)
  | dark
  | ue
deriving DecidableEq, Repr

/-- The index bits of each level, and log2 of its tables' alignment (R387). -/
def levelHi : Nat → Nat
  | 0 => 55 | 1 => 47 | 2 => 38 | 3 => 29 | _ => 20
def levelLo : Nat → Nat
  | 0 => 48 | 1 => 39 | 2 => 30 | 3 => 21 | _ => 16
def levelAlign : Nat → Nat
  | 0 => 11 | 4 => 8 | _ => 12

/-- Whether a word keeps the rules of a pointer to a table of a level (R388). -/
def pointerOk (w lvl : Nat) : Bool :=
  bits w 63 51 = 0 && bits w 7 2 = 0 && bits w 47 8 * 2 ^ 8 < 2 ^ 35 && bits w 47 0 / 2 ^ 8 * 2 ^ 8 % 2 ^ levelAlign lvl = 0

/-- Whether a leaf's frame keeps the rules of its type (R388, R389). -/
def frameOk (ty frame size : Nat) : Bool :=
  frame % 2 ^ (size - 16) = 0 &&
  match ty with
  | 0 => frame * 2 ^ 16 + 2 ^ size ≤ 2 ^ 35
  | 3 =>
    if bit frame 31 = false then true
    else if bit frame 30 = false then bits frame 29 0 * 2 ^ 16 + 2 ^ size ≤ 2 ^ 35
    else bits frame 23 7 = 0 && (1 ≤ bits frame 29 24 && bits frame 29 24 ≤ 4) &&
      (bits frame 29 24 < 3 || bit frame 6 = false)
  | 4 => frame = 0
  | _ => true

/-- Reads a leaf at a level; `none` when it is malformed (R388, R390). -/
def parseLeaf (w lvl key : Nat) : Option Leaf :=
  let size := match lvl with | 2 => 30 | 3 => 21 | _ => 16
  let ty := bits w 6 4
  let frame := bits w 47 16
  if lvl < 2 || bit w 2 || 5 ≤ ty || (ty ≠ 2 && (bits w 12 8 ≠ 0 || bit w 7)) || !frameOk ty frame size then none
  else some { own := bits w 63 48, frame := frame, stack := bits w 15 13, flow := bits w 12 8, ord := bit w 7, ty := ty,
              pin := bit w 3, size := size, level := lvl, entry := key }

/-- Walks on from the table that pointer `w` names, at level `lvl`. -/
def State.walkFrom (s : State) (va : Nat) : Nat → Nat → Nat → Except WalkFail Leaf
  | 0, _, _ => .error (.page 4 4)
  | fuel + 1, w, lvl =>
    let key := dramKey (bits w 50 48) (bits w 47 8 * 2 ^ 8 + 8 * bits va (levelHi lvl) (levelLo lvl))
    if s.darkAt key then .error .dark
    else if s.bad (key / 64) then .error .ue
    else
      let e := leNat (s.rawBytes key 8)
      if bit e 0 = false then .error (.page 3 lvl)
      else if bit e 1 then
        match parseLeaf e lvl key with
        | some l => .ok l
        | none => .error (.page 4 lvl)
      else if 4 ≤ lvl || !pointerOk e (lvl + 1) then .error (.page 4 lvl)
      else s.walkFrom va fuel e (lvl + 1)

/-- The walk of an address from tr.root (R387). -/
def State.walk (s : State) (va : Nat) : Except WalkFail Leaf :=
  let w := s.trRoot.toNat
  if bit w 0 = false then .error (.page 3 0)
  else if bit w 1 || !pointerOk w 0 then .error (.page 4 0)
  else s.walkFrom va 5 w 0

/-- The translation of an address at a translation cache: the walk's outcome, or a stale leaf that the cache still holds, which the
manual lets it use until TINV (R391, R393). -/
def State.translate (s : State) (tc va : Nat) : Except WalkFail Leaf :=
  let fresh := s.walk va
  match (look [] s.tcs tc).find? (fun e => e.base = va / 2 ^ e.leaf.size * 2 ^ e.leaf.size) with
  | none => fresh
  | some e =>
    match fresh with
    | .ok l => if l = e.leaf then fresh else if Config.stale s.seq then .ok e.leaf else fresh
    | .error _ => if Config.stale s.seq then .ok e.leaf else fresh

/-- Remembers a leaf in a translation cache. -/
def State.keepLeaf (s : State) (tc va : Nat) (l : Leaf) : State :=
  let e : TcEntry := ⟨va / 2 ^ l.size * 2 ^ l.size, l⟩
  let t := look [] s.tcs tc
  if t.contains e then s else { s with tcs := put tc (t.filter (fun x => x.base ≠ e.base) ++ [e]) s.tcs }

/-- The memory key of an address under a DRAM or HOST leaf (R389). -/
def Leaf.key (l : Leaf) (va : Nat) : Nat :=
  let pa := l.frame * 2 ^ 16 + va % 2 ^ l.size
  if l.ty = 1 then hostKey pa else dramKey l.stack pa

/-! ## What an access lands on (R38, R53, R124) -/

/-- The target of a checked access. -/
inductive Target where
  /-- Cacheable Global memory, DRAM or HOST: home slice, tag of the first line, key of the first byte. -/
  | mem (slice : Nat) (tag : LineTag) (key : Nat)
  /-- Uncached DRAM (R389): key of the first byte, and the tag that its line would have. -/
  | raw (key : Nat) (tag : LineTag)
  /-- Host MMIO: host physical address. -/
  | host (pa : Nat)
  /-- An on-module block: kind, number (for kind 1 the slice), offset. -/
  | block (kind n off : Nat)
  /-- Another module: flow, ordered class, global VA there (R389). -/
  | peer (flow : Nat) (ord : Bool) (va : Nat)
  /-- A scratchpad: core and offset. -/
  | scratch (core off : Nat)
  /-- The event page of a column (module-wide number), offset (R42). -/
  | event (col off : Nat)
  /-- The courier window of a core. -/
  | courier (core : Nat)
  /-- The management region (firmware). -/
  | mgmt (va : Nat)
deriving DecidableEq, Repr

/-- The 64 KiB pieces of an access: the address of the first byte in each. -/
def pieces (va n : Nat) : List Nat :=
  (List.range ((va % 65536 + n - 1) / 65536 + 1)).map (fun i => if i = 0 then va else (va / 65536 + i) * 65536 % 2 ^ 64)

/-- The resolved core of a window address with stack, y and x in bits 46:28 and rel in bit 47 (R40, R41). -/
def resolve (ag : Agent) (va : Nat) : Option Nat :=
  if bit va 47 then
    match ag with
    | .ctx core _ =>
      let st := (coreStack core : Int) + toSigned 3 (bits va 46 44)
      let y := (coreY core : Int) + toSigned 8 (bits va 43 36)
      let x := (coreX core : Int) + toSigned 8 (bits va 35 28)
      if onGrid st y x then some (coreOf st.toNat y.toNat x.toNat) else none
    | _ => none
  else if bits va 43 36 < 112 ∧ bits va 35 28 < 112 then some (coreOf (bits va 46 44) (bits va 43 36) (bits va 35 28))
  else none

/-- The absolute window address of a core in region `reg` (0x80 or 0x82), with the low 28 bits kept (R41, R381). -/
def absolute (reg core low : Nat) : Nat :=
  0xFF * 2 ^ 56 + reg * 2 ^ 48 + coreStack core * 2 ^ 44 + coreY core * 2 ^ 36 + coreX core * 2 ^ 28 + low

def trapAt (cause va : Nat) : Trap := { cause := cause, info := n64 va, addr := true }
def plbTrap (cause va kind lvl fva : Nat) : Trap := { cause := cause, info := n64 va, plb := some (kind, lvl, n64 fva), addr := true }

/-- Orders 2 to 5 of R39 for the first `n` bytes at `va`: the core of a window address, if any. -/
def addrCheck (ag : Agent) (va n : Nat) (conv : Bool) : Except Trap (Option Nat) :=
  let top := bits va 63 56
  let reg := bits va 55 48
  if ag = .iluet && top = 0xFF && (reg < 0x80 || reg = 0xFF) then .ok none
  else if top ≠ (if bit va 55 then 0xFF else 0) then .error (trapAt cPAGE va)
  else if reg < 0x80 then
    match (pieces va n).find? (fun a => 0x80 ≤ bits a 63 48) with
    | some a => .error (trapAt cPAGE a)
    | none => .ok none
  else if 0x83 ≤ reg && reg ≤ 0xFE then .error (plbTrap cPAGE va 6 7 va)
  else if reg = 0xFF then .error (trapAt cPROT va)
  else if reg = 0x80 then
    if bits va 27 17 ≠ 0 then .error (trapAt cBOUNDS va)
    else match resolve ag va with
      | none => .error (trapAt cBOUNDS va)
      | some c =>
        let off := bits va 16 0
        if 0x20000 < off + n then .error (trapAt cBOUNDS (va + (0x20000 - off)))
        else if conv && off / 2 ^ 14 ≠ (off + n - 1) / 2 ^ 14 then .error (trapAt cALIGN va)
        else .ok (some c)
  else if reg = 0x81 then
    if bits va 47 21 ≠ 0 then .error (trapAt cBOUNDS va) else .ok none
  else
    if bits va 27 0 ≠ 0 then .error (trapAt cBOUNDS va)
    else match resolve ag va with
      | none => .error (trapAt cBOUNDS va)
      | some c => .ok (some c)

/-- The address that the PLB and the walk see: a window address resolved, one of the courier window too (R41; DEDUCED, log 17). -/
def seenVa (va : Nat) : Option Nat → Nat
  | some c => absolute (bits va 55 48) c (bits va 27 0)
  | none => va

/-- Order 6 of R39: the domain's rights for every byte. -/
def rightsCheck (plb : Tab PlbEntry) (dom va seen n : Nat) (need : Rights) : Except Trap Unit :=
  match (pieces seen n).findSome? (fun a => (plbCheck plb dom a need).map (fun k => (a, k))) with
  | some (a, k) => .error (plbTrap cPROT (va + (a - seen)) k 7 a)
  | none => .ok ()

/-- The leaf of one address as an access finds it: an L1 or home-slice tag first, then the walk (R391, R392). The result says too
whether the leaf came from a tag. -/
def State.leafFor (s : State) (ag : Agent) (va : Nat) : Except WalkFail Leaf :=
  s.translate (homeSlice ag.stack va) va

/-- The line tag that an access to Global memory hits in L1, or in the slice it is sent to. -/
def State.tagHit (s : State) (ag : Agent) (va : Nat) : Option LineTag :=
  match ag.core? with
  | some c =>
    match (s.core c).l1Find va with
    | some t => some t
    | none => ((s.slice (homeSlice ag.stack va)).find va).map (·.tag)
  | none => ((s.slice (homeSlice ag.stack va)).find va).map (·.tag)

/-- A failed walk as the trap of an access: info the address as issued, plb.fva the address walked (R39, R390). -/
def walkTrap (va seen : Nat) : WalkFail → Trap
  | .page k l => plbTrap cPAGE va k l seen
  | .dark => trapAt cDARK va
  | .ue => trapAt cUE va

/-- Whether a Global access of some bytes needs a dark tier: some line of it is dark and hits neither L1 nor its slice (R54). -/
def State.needsDark (s : State) (ag : Agent) (t : LineTag) (va n : Nat) : Option Nat :=
  ((List.range ((va % 256 + n - 1) / 256 + 1)).map (fun i => if i = 0 then 0 else i * 256 - va % 256)).find? fun o =>
    let u := t.up ((va % 256 + o) / 256)
    s.darkLine u &&
    ((s.slice u.home).find (va + o)).isNone &&
    (match ag.core? with
     | some c => ((s.core c).l1Find (va + o)).isNone
     | none => true)

/-- Whether an agent may use a flow: FLOW with reason 1 when it is closed, 2 for another partition's (R475). Firmware and
partitionless cores belong to no flow's partition. -/
def State.flowDenied (s : State) (part : Option Nat) (flow : Nat) : Option Trap :=
  let w := (look 0 s.flows flow).toNat
  let t (r : Nat) : Trap := { cause := cFLOW, info := n64 (r * 2 ^ 8 + flow) }
  if bit w 63 = false then some (t 1)
  else if part ≠ some (bits w 53 48) then some (t 2)
  else none

/-- The partition whose PCOLS bit is set for a column (R422). -/
def State.partOfCol (s : State) (col : Nat) : Option Nat :=
  (s.parts.find? (fun e => bit (look 0 e.2.pcols (col / 64)).toNat (col % 64))).map (·.1)
/-- The partition of an agent's core. -/
def State.partOf (s : State) (ag : Agent) : Option Nat := ag.core?.bind (fun c => s.partOfCol (colOf c))

/-- What a Global address lands on, by an L1 or slice tag or by its leaf (R50, R388, R389, R392). -/
def State.globalTarget (s : State) (ag : Agent) (va : Nat) : Except Trap (Target × Option Leaf) :=
  match s.tagHit ag va with
  | some t =>
    .ok (.mem t.home t (t.key * 256 + va % 256), none)
  | none =>
    match s.leafFor ag va with
    | .error f => .error (walkTrap va va f)
    | .ok l =>
      match l.ty with
      | 2 => .ok (.peer l.flow l.ord (l.frame * 2 ^ 16 + va % 2 ^ l.size), some l)
      | 3 =>
        let o := va % 2 ^ l.size
        if bit l.frame 31 = false then .ok (.host (bits l.frame 30 0 * 2 ^ 16 + o), some l)
        else if bit l.frame 30 = false then 
          let key := dramKey l.stack (bits l.frame 29 0 * 2 ^ 16 + o)
          .ok (.raw key ⟨va / 256, key / 256, homeSlice l.stack va, 0, l.own⟩, some l)
        else
          let k := bits l.frame 29 24
          if k = 1 then .ok (.block 1 (64 * l.stack + bits l.frame 5 0) ((if bit l.frame 6 then 65536 else 0) + o), some l)
          else .ok (.block k (bits l.frame 5 0) o, some l)
      | 4 => .error (plbTrap cPAGE va 5 l.level va)
      | _ =>
        let key := l.key va
        .ok (.mem (homeSlice l.stack va) ⟨va / 256, key / 256, homeSlice l.stack va, l.ty, l.own⟩ key, some l)

/-- Cached Global memory. -/
def Target.isMem : Target → Bool
  | .mem .. => true
  | _ => false
/-- The targets that atomics and the vector accesses reach: cached memory, other modules, scratchpads (R124, R152). -/
def Target.words : Target → Bool
  | .mem .. | .peer .. | .scratch .. => true
  | _ => false
/-- Global memory of type DRAM (R124). -/
def Target.isDram : Target → Bool
  | .mem _ t _ => t.ty = 0
  | _ => false

/-- Order 7 for one page: the walk, whether the target's type fits the instruction, and for an access that is made there, whether the flow of a PEER page
or the partition of a partition block is open to the agent (R53, R124, R424, R475). -/
def State.pageTarget (s : State) (ag : Agent) (fit : Target → Bool) (peer : Bool) (va : Nat) : Except Trap Target :=
  (s.globalTarget ag va).bind fun (t, l) =>
    if !fit t then .error (plbTrap cPAGE va 5 ((l.map (·.level)).getD 7) va)
    else
      match t with
      | .peer flow _ _ => if peer then (match s.flowDenied (s.partOf ag) flow with | some e => .error e | none => .ok t) else .ok t
      | .block 4 p _ => if ag.core?.isSome && s.partOf ag ≠ some p then .error (plbTrap cPROT va 2 7 va) else .ok t
      | _ => .ok t

/-- The cache that translates a window address: the core's scratch translation cache, or a slice's (R391). -/
def Agent.scratchTc (ag : Agent) (seen : Nat) : Nat :=
  match ag.core? with
  | some c => 512 + c
  | none => homeSlice 0 seen

/-- Order 7 for the mesh window: the page of the resolved address must be of type SCRATCH (R53). -/
def State.meshPage (s : State) (ag : Agent) (va seen : Nat) : Except Trap Leaf :=
  match s.translate (ag.scratchTc seen) seen with
  | .error f => .error (walkTrap va seen f)
  | .ok l => if l.ty = 4 then .ok l else .error (plbTrap cPAGE va 5 l.level seen)

/-- An access to a scratchpad leaves its leaf in the scratch translation cache (R391). -/
def State.keepScratch (s : State) (ag : Agent) (core off : Nat) : State :=
  let seen := absolute 0x80 core off
  match s.translate (ag.scratchTc seen) seen with
  | .ok l => s.keepLeaf (ag.scratchTc seen) seen l
  | .error _ => s

/-- The part of an access in each 64 KiB piece: its first address and its length. -/
def piecesLen (va n : Nat) : List (Nat × Nat) :=
  (pieces va n).map fun a => if a = va then (a, min n (65536 - va % 65536)) else (a, min 65536 (n - (a + 2 ^ 64 - va) % 2 ^ 64))

/-- Order 8 for a part of a Global access: the distance to its first byte that lies in a dark tier (R54). -/
def State.globalDark (s : State) (ag : Agent) (t : Target) (va n : Nat) : Option Nat :=
  match t with
  | .mem _ tag _ => s.needsDark ag tag va n
  | .raw key _ => if s.darkAt key then some 0 else none
  | _ => none

/-- Orders 7 and 8 of R39, for the targets that fit an instruction; an access of some bytes has the target of its first. Every page passes order 7 before
one is asked whether it is dark. -/
def State.landing (s : State) (ag : Agent) (va n : Nat) (win : Option Nat) (fit : Target → Bool := fun _ => true) (peer : Bool := true) :
    Except Trap Target :=
  let reg := bits va 55 48
  let seen := seenVa va win
  let window (t : Target) (dark : Bool) : Except Trap Target :=
    if !fit t then .error (plbTrap cPAGE va 5 7 seen) else if dark then .error (trapAt cDARK va) else .ok t
  if bits va 63 56 = 0xFF && (reg < 0x80 || reg = 0xFF) then window (.mgmt va) false
  else if reg < 0x80 then
    ((piecesLen va n).mapM (fun (p : Nat × Nat) => (s.pageTarget ag fit peer p.1).map (fun t => (p.1, p.2, t)))).bind fun ts =>
      match ts.findSome? (fun (a, len, t) => (s.globalDark ag t a len).map (a + ·)) with
      | some a => .error (trapAt cDARK a)
      | none =>
        match ts with
        | (_, _, t) :: _ => .ok t
        | [] => .error (trapAt cPAGE va)
  else if reg = 0x80 then
    match win with
    | none => .error (trapAt cBOUNDS va)
    | some c =>
      let t := Target.scratch c (bits va 16 0)
      ((pieces seen n).mapM (fun a => (s.meshPage ag (va + (a - seen)) a))).bind fun ls =>
        if !fit t then .error (plbTrap cPAGE va 5 ((ls.head?.map (·.level)).getD 7) seen)
        else if s.darkCols.contains (colOf c) then .error (trapAt cDARK va) else .ok t
  else if reg = 0x81 then
    let col := 64 * bits va 20 18 + bits va 17 12
    window (.event col (bits va 11 0)) (s.darkCols.contains col)
  else
    match win with
    | none => .error (trapAt cBOUNDS va)
    | some c => window (.courier c) false

/-- The check of an access under a table of rights and a domain (R39, R380): management addresses have no entry. -/
def checkWith (s : State) (ag : Agent) (rights : Tab PlbEntry) (dom va n : Nat) (need : Rights) (conv : Bool := false)
    (fit : Target → Bool := fun _ => true) (peer : Bool := true) : Except Trap Target :=
  (addrCheck ag va n conv).bind fun win =>
  (if bits va 63 56 = 0xFF && (bits va 55 48 < 0x80 || bits va 55 48 = 0xFF) then .ok ()
   else rightsCheck rights dom va (seenVa va win) n need).bind fun _ =>
  s.landing ag va n win fit peer

/-- The checks of R39 from order 2 on, for an access of an agent with its own domain. -/
def State.check (s : State) (ag : Agent) (va n : Nat) (need : Rights) (conv : Bool := false)
    (fit : Target → Bool := fun _ => true) (peer : Bool := true) : Except Trap Target :=
  checkWith s ag (s.plbOf ag) (s.regs ag).dom.toNat va n need conv fit peer

/-- An address of the event window, the courier window or, for firmware, the management region, where accesses take 8 bytes alone: the alignment rule of
the loads and stores there (R124). -/
def wordOnly (ag : Agent) (va : Nat) : Bool :=
  let reg := bits va 55 48
  bits va 63 56 = 0xFF && (reg = 0x81 || reg = 0x82 || (ag = .iluet && (reg < 0x80 || reg = 0xFF)))

end Sys2Proof.Machine
end

