-- ==== Sys2Proof/Machine/Chunks.lean ====
section
/-!
DEFINITION. Chunks: what a context's loads and stores do inside a chunk, commit, squash and the priority token (R125, R208 to R216).
-/

namespace Sys2Proof.Machine

open Sys2Proof

/-- Why a meaning does not complete: a precise trap of the instruction; a trap taken in a state the instruction has already changed;
or the state in which the instruction waits or its chunk starts again. -/
inductive Stop where
  | trap (t : Trap)
  | trapIn (s : State) (t : Trap)
  | later (s : State)

/-- The outcome of a part of a meaning. -/
abbrev Try (α : Type) := Except Stop α

/-- A checked access as part of a meaning. -/
def liftT {α : Type} : Except Trap α → Try α
  | .ok a => .ok a
  | .error t => .error (.trap t)

/-- The context waits in the Stalled state and tries again. -/
def State.stallNow (s : State) (ag : Agent) : State := s.modCtx ag (fun c => { c with st := .stalled, held := false })
/-- The instruction at pc is Stalled before it issues: it issues afresh, with its test and its charge, when what it needs may be there (R174, R239, R282,
R442). -/
def State.holdIssue (s : State) (ag : Agent) : State :=
  s.modCtx ag (fun c => { c with st := .stalled, held := false, issued := false, infl := 0, bankFmt := none })
/-- The cycles for which an access of memory keeps a core from issuing are added to stall.mem (R448): a free number. -/
def State.addStall (s : State) (ag : Agent) : State :=
  match ag with
  | .ctx core _ => s.modCol (colOf core) (fun k => { k with stallMem := k.stallMem + n64 (Config.stallCycles s.seq) })
  | _ => s
/-- The instruction at pc needs the memory tiers, and its core's crossing FIFO takes no request now: it is Stalled, before it issues unless earlier requests
of it have been answered (R442, R448). -/
def State.fifoHold (s : State) (ag : Agent) : State :=
  if (s.ctx ag).got.isEmpty then (s.addStall ag).holdIssue ag else (s.addStall ag).stallNow ag
/-- What needs the memory tiers goes on, unless the crossing FIFO is shut (R442). -/
def State.needTiers {α : Type} (s : State) (ag : Agent) (go : Try α) : Try α := if s.closed ag then .error (.later (s.fifoHold ag)) else go
/-- The context waits in the Stalled state until a reply or a wake. -/
def State.stallHeld (s : State) (ag : Agent) : State := s.modCtx ag (fun c => { c with st := .stalled, held := true })

/-! ## The running chunk -/

/-- Starts a chunk at the present registers if none runs. -/
def State.beginChunk (s : State) (ag : Agent) : State :=
  s.modCtx ag (fun c => if c.chunk.run then c else { c with chunk := { run := true, save := c.r } })

/-- Adds to a list what it does not hold. -/
def addAll (l xs : List Nat) : List Nat := xs.foldl (fun l x => if l.contains x then l else l ++ [x]) l

/-- The place of a PEER granule among the granules that a chunk counts (R125): flow and address there. -/
def peerKey (flow va : Nat) : Nat := 2 ^ 80 + flow * 2 ^ 64 + va
/-- A granule of Global memory of type DRAM or HOST: what a touch set holds (R209). -/
def globalGranule (g : Nat) : Bool := g * 256 < 2 ^ 38 || (2 ^ 64 ≤ g * 256 && g * 256 < 2 ^ 80)
/-- A granule of an agent's own scratchpad. -/
def ownGranule (ag : Agent) (g : Nat) : Bool := isScratch (g * 256) && ag.core? = some (keyCore (g * 256))
/-- The granules that the commit of an agent's chunk writes itself: those of Global memory and of its own scratchpad. Stores that leave are written where
they arrive (R209, R211). -/
def committing (ag : Agent) (gs : List Nat) : List Nat := gs.filter (fun g => globalGranule g || ownGranule ag g)

/-- Every agent that has a record in the state. -/
def State.agents (s : State) : List Agent :=
  s.cores.flatMap (fun (k, c) => c.ctxs.map (fun (n, _) => Agent.ctx k n)) ++ [.iluet] ++ s.slices.map (fun (k, _) => .ws k)

/-- Whether a granule is reserved by another context's priority chunk: a Global one that it touches, or one of its own core's scratchpad (R213). -/
def State.reserved (s : State) (ag : Agent) (gs : List Nat) : Bool :=
  match s.tokenHolder with
  | none => false
  | some code =>
    if code = ag.code then false else
    let c := s.ctx (Agent.ofCode code)
    c.token && c.chunk.run && (committing (Agent.ofCode code) gs).any (fun g => c.chunk.reads.contains g || c.chunk.writes.contains g)

/-- The commands waiting in a core's port. -/
def State.port (s : State) (core : Nat) : List MCmd := look [] (s.quad (quadOf core)).ports (laneOf core)
def State.setPort (s : State) (core : Nat) (l : List MCmd) : State :=
  let q := s.quad (quadOf core)
  s.setQuad (quadOf core) { q with ports := put (laneOf core) l q.ports }

/-- Removes an agent's commands from its core's port (R243); a TAP, whose batch is the unit's, stays. -/
def State.dropCommands (s : State) (ag : Agent) : State :=
  match ag with
  | .ctx core _ =>
    let mine (m : MCmd) : Bool := m.ag = ag.code && m.op ≠ 4
    if (s.port core).any mine then (s.setPort core ((s.port core).filter (fun m => !mine m))).start .matrixTake [quadOf core] else s
  | _ => s
/-- The commands of R242 of an agent that the unit has still to take. -/
def State.queuedCount (s : State) (ag : Agent) : Nat :=
  match ag with
  | .ctx core _ => ((s.port core).filter (fun m => m.ag = ag.code && m.op < 4)).length
  | _ => 0
/-- Whether the unit has still to take a command of the agent (R242). -/
def State.queued (s : State) (ag : Agent) : Bool := 0 < s.queuedCount ag

/-! ## Special registers outside the context's own registers (R101) -/

/-- A request for pre-emption is withdrawn, or has been acted on: req and preq are cleared (R370, R372). -/
def State.clearPreempt (s : State) (ag : Agent) : State :=
  (s.devR ag (fun r => { r with preReq := false })).modCtx ag (fun c =>
    { c with deadline := c.deadline + 1, dlAt := none, preDue := false, dlLeft := 0 })

/-- The running chunk is about to write ctx.preempt: a squash will want the count as it stands. -/
def State.notePre (s : State) (ag : Agent) : State :=
  s.modCtx ag fun c => if c.chunk.run && c.chunk.pre.isNone then { c with chunk := { c.chunk with pre := some (c.dlAt, c.dlLeft, c.preDue) } } else c
/-- A request that the squashed chunk has withdrawn stands again, with its count as it was. -/
def State.restorePre (s : State) (ag : Agent) (pre : Option Nat × Nat × Bool) : State :=
  let c := s.ctx ag
  let s := (s.devR ag (fun r => { r with preReq := true })).modCtx ag (fun c =>
    { c with deadline := c.deadline + 1, dlAt := pre.1, dlLeft := pre.2.1, preDue := pre.2.2 })
  match pre.1 with
  | some t => s.at (Nat.max s.time t) .safedlDeadline [ag.code, c.deadline + 1]
  | none => s

/-- The value of a special register that stands outside `Regs`: the bank formats, mig.thresh and tap.tbase of the core, the firmware trap registers, and
ctx.preempt.req, which the device writes too. -/
def State.special (s : State) (ag : Agent) (n : Nat) : W64 :=
  let k := match ag with | .ctx core _ => s.core core | _ => {}
  if 0x020 ≤ n ∧ n ≤ 0x027 then n64 (look 0 k.bfmt (n - 0x020))
  else if n = 0x20B then (if (s.regs ag).preReq then 1 else 0)
  else if n = 0x220 then (match ag with | .ctx .. => k.migThresh | _ => s.iluetMig)
  else if n = 0x228 then k.tapTbase
  else if n = 0x400 then s.fw.fvec
  else if n = 0x401 then s.fw.fpc
  else if n = 0x402 then s.fw.fcause
  else if n = 0x403 then s.fw.finfo
  else s.fw.fstat

/-- Gives such a register a value. -/
def State.setSpecial (s : State) (ag : Agent) (n : Nat) (v : W64) : State :=
  let core (f : Core → Core) : State := match ag with | .ctx core _ => s.modCore core f | _ => s
  if 0x020 ≤ n ∧ n ≤ 0x027 then core (fun k => { k with bfmt := put (n - 0x020) v.toNat k.bfmt })
  else if n = 0x20B then
    (if v = 0 then s.clearPreempt ag else match (s.ctx ag).chunk.pre with
      | some pre => s.restorePre ag pre
      | none => s)
  else if n = 0x220 then (match ag with | .ctx .. => core (fun k => { k with migThresh := v }) | _ => { s with iluetMig := v })
  else if n = 0x228 then core (fun k => { k with tapTbase := v })
  else if n = 0x400 then { s with fw := { s.fw with fvec := v } }
  else if n = 0x401 then { s with fw := { s.fw with fpc := v } }
  else if n = 0x402 then { s with fw := { s.fw with fcause := v } }
  else if n = 0x403 then { s with fw := { s.fw with finfo := v } }
  else { s with fw := { s.fw with fstat := v } }

/-- Notes that the running chunk has given such a register its present value; `old` is the one it had. -/
def State.noteSpecial (s : State) (ag : Agent) (n : Nat) (old : W64) : State :=
  let now := s.special ag n
  s.modCtx ag fun c =>
    if !c.chunk.run then c else
    let first := ((c.chunk.special.find? (fun e => e.1 = n)).map (·.2.1)).getD old
    { c with chunk := { c.chunk with special := c.chunk.special.filter (fun e => e.1 ≠ n) ++ [(n, first, now)] } }

/-- A squash returns each to its value at the start of the chunk, unless the device or another party has changed it since (R101). -/
def State.undoSpecial (s : State) (ag : Agent) (k : Chunk) : State :=
  k.special.foldl (fun s e => if s.special ag e.1 = e.2.2 then s.setSpecial ag e.1 e.2.1 else s) s

/-- A TIMER raised from a value of tmr.cmp that a squash undoes is withdrawn: what was pending before the chunk wrote tmr.cmp first stays, and a restored
value that has itself been reached is pending (R494). -/
def fixTimer (s : State) (c : Ctx) (k : Chunk) : Ctx :=
  match k.timer with
  | none => c
  | some before =>
    if c.r.tmrCmp ≠ 0 ∧ c.r.tmrCmp.toNat ≤ s.time then { c with pend := put cTIMER c.r.tmrCmp c.pend }
    else match before with
      | some v => { c with pend := put cTIMER v c.pend }
      | none => { c with pend := del cTIMER c.pend }

/-! ## Squash -/

/-- A context whose instruction a cut holds at issue no longer stands there: the cut goes on without a trap (R283). -/
def State.uncut (s : State) (ag : Agent) : State :=
  match ag with
  | .ctx core n =>
    match (s.core core).cut with
    | some (m, k, true) => if m = n then s.modCore core (fun c => { c with cut := some (m, k, false) }) else s
    | _ => s
  | _ => s

/-- Squashes the running chunk of an agent: buffered stores are dropped, own-scratchpad granules and registers restored, and the
chunk starts again; after the second squash the context asks for the priority token (R211, R213). -/
def State.squash (s : State) (ag : Agent) : State :=
  let c := s.ctx ag
  if !c.chunk.run then s else
  let s := c.chunk.undo.foldl (fun s e => s.writeBytes (e.1 * 64) e.2) s
  let s := { s with poison := s.poison ++ c.chunk.mended, flaws := s.flaws ++ c.chunk.cured }
  let s := match c.asked with
    | some id => s.drop id
    | none => s
  let s := c.chunk.retires.foldl (fun s id => s.drop id) s
  let gone := s.queuedCount ag + c.chunk.retires.length
  let s := s.dropCommands ag
  let asks : Bool := 1 ≤ c.attempts && !c.token
  let s := (s.undoSpecial ag c.chunk).uncut ag
  let s := s.modCtx ag fun x =>
    fixTimer s { x.noInstr with r := x.chunk.save, chunk := {}, why := 0, mcmds := c.mcmds - gone, attempts := c.attempts + 1,
                                st := (if asks then .stalled else .ready), held := asks } c.chunk
  if asks then ({ s with tokenQ := addAll s.tokenQ [ag.code] }).start .priorityTokenGrant [] else s

/-- Whether a running chunk's signatures meet some granules; false matches are allowed (R211). -/
def Chunk.meets (k : Chunk) (seq : Nat) (gs : List Nat) : Bool :=
  k.run && !(k.reads.isEmpty && k.writes.isEmpty) &&
  (gs.any (fun g => k.reads.contains g || k.writes.contains g) || Config.falseMatch seq)

/-- Squashes every other running chunk that a write of some granules conflicts with (R211). A priority chunk is never squashed:
what meets its granules has been held back before. -/
def State.squashOthers (s : State) (by_ : Option Agent) (gs : List Nat) : State :=
  if gs.isEmpty then s else
  s.agents.foldl (init := s) fun s ag =>
    if by_ = some ag then s
    else
      let c := s.ctx ag
      if c.chunk.meets s.seq gs && !c.token then s.squash ag else s

/-- A write of Global granules enters the chunk order: other L1 copies are invalidated, conflicting chunks squashed (R209, R211). -/
def State.enter (s : State) (by_ : Option Agent) (gs : List Nat) : State :=
  (s.dropL1 gs (by_.bind Agent.core?)).squashOthers by_ gs

/-- Whether a singleton, host, engine, waystation or bank-side write may enter now: it waits while it meets a granule reserved by a
priority chunk (R213). -/
def State.mayEnter (s : State) (ag : Agent) (gs : List Nat) : Bool := !s.reserved ag gs

/-! ## Commit (R209) -/

/-- The sequence number of what an errand waits for on a flow. -/
def Errand.asks (e : Errand) (flow : Nat) : Option Nat :=
  match e.ask, e.got with
  | some (f, q), none => if f = flow then some q else none
  | _, _ => none

/-- The accesses of a flow that are outstanding. -/
def State.outstanding (s : State) (flow : Nat) : List Nat :=
  let sched := s.errands.filterMap (fun (e : Errand) => e.asks flow)
  let others := s.agents.flatMap fun ag =>
    let c := s.ctx ag
    (c.unackedPeer.filter (fun p => p.1 = flow)).map (·.2) ++
    (match c.asked with
     | some q => if 2 ^ 48 ≤ q && q < 2 ^ 60 && (q - 2 ^ 48) / 2 ^ 32 = flow then [q % 2 ^ 32] else []
     | none => []) ++
    c.slots.flatMap (fun e => (e.2.peer.filter (fun q => q.flow = flow && q.ack.isNone)).map (·.seq)) ++
    (s.flight.filter (fun e => e.2.ev.row = .tapAccept && 8 < e.2.words.length && e.2.words.getD 8 0 = flow)).map (fun e => e.2.words.getD 9 0)
  (sched ++ others).eraseDups

/-- Whether `n` more accesses may leave on a flow: the reorder buffer at its other end has 256 entries, and without credit the sender waits (R473). -/
def State.credit (s : State) (flow n : Nat) : Bool := (s.outstanding flow).length + min n 256 ≤ 256

/-- A PEER store or atomic leaves on its flow with the flow's next sequence number (R217). -/
def State.sendPeer (s : State) (ag : Agent) (flow : Nat) (words : List Nat) : State :=
  let seq := look 0 s.flowSeq flow
  let s := { s with flowSeq := put flow ((seq + 1) % 2 ^ 32) s.flowSeq }
  (s.out (0x1000 + flow) (seq :: words)).modCtx ag (fun c => { c with unackedPeer := c.unackedPeer ++ [(flow, seq)] })

/-- The words by which a PEER write is described when it leaves: kind 1, ordered class, address, length, little-endian data. -/
def PStore.words (p : PStore) : List Nat := [1, if p.ord then 1 else 0, p.va, p.bytes.length, leNat p.bytes]

/-- A committed PEER store leaves. On a flow that is broken it does not, and is marked against its context (R475). -/
def State.commitPeer (s : State) (ag : Agent) (p : PStore) : State :=
  if bit (look 0 s.flows p.flow).toNat 62 then s.modCtx ag (fun c => { c with flowMarks := c.flowMarks ++ [(p.flow, 3)] })
  else s.sendPeer ag p.flow p.words

/-- The stores of a chunk go out: one group to each destination core, PEER stores on their flows (R209, R216, R217). -/
def State.sendStores (s : State) (ag : Agent) (k : Chunk) : State :=
  let src := ag.place
  let s := ((k.remote.map (·.core)).eraseDups).foldl (init := s) fun s dst =>
    (s.send { chan := chanOf src dst, ev := ⟨.remoteStoreGroup, [s.nextMsg]⟩, src := ag.code, words := [dst],
              stores := k.remote.filter (fun r => r.core = dst) }).modCtx ag
      (fun c => { c with unackedScratch := c.unackedScratch + 1 })
  k.peer.foldl (fun s p => s.commitPeer ag p) s

/-- A chunk's Global writes reach their home slices, sector by sector, under the tags of their lines (R49, R209). -/
def State.applyStores (s : State) (ag : Agent) (tags : List LineTag) (w : Tab Byte) : State :=
  let x := tags.foldl (init := (s, w)) fun (x : State × Tab Byte) t =>
    (x.1.sectorWrite t (some (x.1.requester ag)) (x.2.filter (fun e => e.1 / 256 = t.key)), x.2.filter (fun e => e.1 / 256 ≠ t.key))
  { x.1 with mem := x.2.foldl (fun m e => memSet m e.1 e.2) x.1.mem }

/-- Whether the priority chunk waits for a granule that a chunk has written speculatively (R125). -/
def State.awaited (s : State) (ag : Agent) : Bool :=
  match s.tokenHolder with
  | none => false
  | some code => ((s.ctx (Agent.ofCode code)).waitOn.map (fun g => has (s.ctx ag).chunk.undo g)).getD false

/-- The chunk of an agent ends and commits, or its touch set meets a granule reserved by a priority chunk and it is squashed (R208, R209, R213). It does not
commit while the quad unit has still to take one of its commands (R242), or while stores of it cannot cross to the tiers or have no credit on their flow
(R442, R473). A chunk that has written a granule of its own scratchpad that a priority chunk of the core has touched waits, like the other writes of R213
into that scratchpad, and is squashed where the priority chunk waits for it (DEDUCED, log 66). -/
def State.endChunk (s : State) (ag : Agent) : Try State :=
  let c := s.ctx ag
  if !c.chunk.run then .ok s
  else if s.queued ag then .error (.later (s.holdIssue ag))
  else if (c.chunk.peer.map (·.flow)).eraseDups.any (fun f => !s.credit f (c.chunk.peer.filter (fun p => p.flow = f)).length) then
    .error (.later (s.holdIssue ag))
  else if s.closed ag && !(c.chunk.wbuf.isEmpty && c.chunk.peer.isEmpty) then .error (.later (s.fifoHold ag))
  else if s.reserved ag ((c.chunk.reads ++ c.chunk.writes).filter globalGranule) then .error (.later (s.squash ag))
  else if s.reserved ag (committing ag c.chunk.writes) then .error (.later (if s.awaited ag then s.squash ag else s.stallNow ag))
  else
    let k := c.chunk
    let s := s.applyStores ag k.tags k.wbuf
    let s := s.modCtx ag (fun c => { c with chunk := {}, attempts := 0, token := false, serial := false })
    let s := if c.token then
        (if s.tokenQ.isEmpty then { s with tokenHolder := none } else { s with tokenHolder := none }.start .priorityTokenGrant []) else s
    let s := s.enter (some ag) (committing ag k.writes)
    .ok (s.sendStores ag k)

/-! ## Accesses inside a chunk (R125) -/

/-- Another context of the core whose running chunk has written a 64-byte granule of the scratchpad (R125). -/
def State.specHolder (s : State) (core : Nat) (but : Agent) (g : Nat) : Option Agent :=
  ((s.core core).ctxs.map (fun (n, _) => Agent.ctx core n)).find? fun ag =>
    ag ≠ but && (s.ctx ag).chunk.run && has (s.ctx ag).chunk.undo g

/-- Whether some running chunk of a core has written bytes of its scratchpad. -/
def State.specAny (s : State) (core key n : Nat) : Bool := (granules64 key n).any (fun g => (s.specHolder core (.ws 0) g).isSome)

/-- Scratchpad bytes as parties outside the chunk read them: the old bytes of a granule that a running chunk has written (R125). -/
def State.committed (s : State) (core off n : Nat) : List Byte :=
  let key := scratchKey core off
  let old := (s.core core).ctxs.flatMap (fun e => if e.2.chunk.run then e.2.chunk.undo else [])
  if old.isEmpty then s.bytes key n
  else (List.range n).map fun i =>
    match old.find? (fun e => e.1 = (key + i) / 64) with
    | some e => e.2.getD ((key + i) % 64) 0
    | none => s.byte (key + i)

/-- The chain of contexts that wait for granules, from a context on (R125). -/
def State.waitChain : Nat → State → Agent → List Agent
  | 0, _, _ => []
  | fuel + 1, s, ag =>
    match (s.ctx ag).waitOn with
    | none => [ag]
    | some g =>
      match s.specHolder (keyCore (g * 64)) ag g with
      | none => [ag]
      | some h => ag :: State.waitChain fuel s h

/-- Waits for a speculative granule; a wait that would close a cycle squashes the chunk instead, or, where that is a priority chunk, the
chunk waited on (R125). -/
def State.waitGranule (s : State) (ag holder : Agent) (g : Nat) : Stop :=
  if (State.waitChain 402000 s holder).contains ag then
    if (s.ctx ag).token then .later (s.squash holder) else .later (s.squash ag)
  else .later (s.modCtx ag (fun c => { c with st := .stalled, held := false, waitOn := some g }))

/-- A store that would need a 33rd granule of the undo log ends the chunk before it; `gs` are the 64-byte granules of one instruction's stores to the own
scratchpad (R125). -/
def State.undoRoom (s : State) (ag : Agent) (gs : List Nat) : Try State :=
  let undo := (s.ctx ag).chunk.undo
  if 32 < undo.length + (gs.eraseDups.filter (fun g => !has undo g)).length then (s.endChunk ag).map (fun s => s.beginChunk ag) else .ok s

/-- The bytes of the core's own scratchpad as a context reads them; they enter the chunk's read signature. -/
def State.readScratch (s : State) (ag : Agent) (core off n : Nat) : Try (State × List Byte) :=
  let key := scratchKey core off
  match (granules64 key n).findSome? (fun g => (s.specHolder core ag g).map (fun h => (g, h))) with
  | some (g, h) => .error (s.waitGranule ag h g)
  | none =>
    .ok (s.modCtx ag (fun c => if c.chunk.run then
           { c with waitOn := none, chunk := { c.chunk with reads := addAll c.chunk.reads (granules key n),
                                                            vas := addAll c.chunk.vas (granules (absolute 0x80 core off) n) } }
           else { c with waitOn := none }),
         s.bytes key n)

/-- A store of the running chunk writes bytes of its own scratchpad: the errors of every 64-byte granule that it writes whole are gone, unless the chunk is
squashed (R401). -/
def State.mendGranules (s : State) (ag : Agent) (key n : Nat) : State :=
  if s.noBad then s else
  let whole (g : Nat) : Bool := key ≤ g * 64 && g * 64 + 64 ≤ key + n
  let mended := s.poison.filter whole
  let found := s.flaws.filter whole
  { s with poison := s.poison.filter (fun g => !whole g), flaws := s.flaws.filter (fun g => !whole g) }.modCtx ag fun c =>
    { c with chunk := { c.chunk with mended := c.chunk.mended ++ mended, cured := c.chunk.cured ++ found } }

/-- Stores to the core's own scratchpad inside the chunk: the old granule goes to the undo log; a 33rd granule ends the chunk first
(R125). -/
def State.writeScratch (s : State) (ag : Agent) (core off : Nat) (bs : List Byte) : Try State :=
  let key := scratchKey core off
  let gs := granules64 key bs.length
  match gs.findSome? (fun g => (s.specHolder core ag g).map (fun h => (g, h))) with
  | some (g, h) => .error (s.waitGranule ag h g)
  | none =>
    (s.undoRoom ag gs).map fun s =>
      let old := gs.filter (fun g => !has (s.ctx ag).chunk.undo g)
      let s := s.modCtx ag fun c =>
        { c with waitOn := none,
                 chunk := { c.chunk with undo := old.foldl (fun u g => put g (s.bytes (g * 64) 64) u) c.chunk.undo,
                                         writes := addAll c.chunk.writes (granules key bs.length),
                                         vas := addAll c.chunk.vas (granules (absolute 0x80 core off) bs.length) } }
      (s.mendGranules ag key bs.length).writeBytes key bs

/-- Global bytes as the chunk reads them: its own buffered stores over memory (R125, R223). -/
def State.readMem (s : State) (ag : Agent) (key n : Nat) : List Byte :=
  let w := (s.ctx ag).chunk.wbuf
  (s.bytes key n).zipIdx.map (fun e => look e.1 w (key + e.2))

/-- A demand access of `n` bytes brings its lines into the slice and, for a compute context, into L1; the translation cache of the
slice keeps the leaf (R49, R50, R391). -/
def State.touch (s : State) (ag : Agent) (t : LineTag) (va n : Nat) : State :=
  let s := match s.tagHit ag va, s.leafFor ag va with
    | none, .ok l => s.keepLeaf (homeSlice ag.stack va) va l
    | _, _ => s
  (List.range ((va % 256 + n - 1) / 256 + 1)).foldl (init := s) fun s i =>
    let u := t.up i
    match ag with
    | .ctx core _ =>
      if ((s.core core).l1Find (u.va * 256)).isSome then s
      else (s.demand u.home u (s.requester ag)).modCore core (fun c => c.l1Fill s.seq u)
    | _ => s.demand u.home u (s.requester ag)

/-- Whether a migration or a promotion holds the page of an address (R398). -/
def State.pageHeld (s : State) (va : Nat) : Bool := s.xlat.held.any (fun h => h.1 ≤ bits va 55 0 && bits va 55 0 < h.1 + h.2)

/-- Reads Global DRAM or HOST bytes in the chunk, behind the bank-side operations accepted on their sectors: they enter its read signature (R133, R209,
R211). -/
def State.loadMem (s : State) (ag : Agent) (t : LineTag) (va key n : Nat) : State × List Byte :=
  let s := s.settleBank (granules key n)
  let bs := s.readMem ag key n
  let s := s.touch ag t va n
  (s.modCtx ag (fun c => if c.chunk.run then
      { c with chunk := { c.chunk with reads := addAll c.chunk.reads (granules key n), vas := addAll c.chunk.vas (granules va n) } } else c), bs)

/-- Stores Global DRAM or HOST bytes in the chunk: they are buffered until commit (R49, R125). -/
def State.storeMem (s : State) (ag : Agent) (t : LineTag) (va key : Nat) (bs : List Byte) : State :=
  s.modCtx ag fun c =>
    { c with chunk := { c.chunk with
        wbuf := (bs.zip (List.range bs.length)).foldl (fun w e => put (key + e.2) e.1 w) c.chunk.wbuf,
        tags := (List.range (granules key bs.length).length).foldl (fun l i => if l.contains (t.up i) then l else l ++ [t.up i]) c.chunk.tags,
        writes := addAll c.chunk.writes (granules key bs.length),
        vas := addAll c.chunk.vas (granules va bs.length) } }

end Sys2Proof.Machine
end

