-- ==== Sys2Proof/Machine/Records.lean ====
section
/-!
DEFINITION. Asynchronous causes (R166, R359, R494), partitions of columns (R422), what the device itself reads and writes (R496), error
records (R427, R428) and the triggers of a snapshot (R437).
-/

namespace Sys2Proof.Machine

open Sys2Proof

/-! ## Asynchronous causes -/

/-- An asynchronous cause arises for an agent: dropped unless the context is live; repeated arrivals merge, with the info of the latest;
a WFI completes (R170, R368, R494). -/
def State.raise (s : State) (ag : Agent) (cause : Nat) (info : W64) : State :=
  let c := s.ctx ag
  if !c.live then s
  else
    let c := { c with pend := put cause info c.pend }
    s.setCtx ag (if c.st = .waiting && c.why = 5 then { c.wake with why := 5 } else c)

/-! ## Partitions (R422, R423) -/

def State.part (s : State) (p : Nat) : Part := look {} s.parts p
def State.setPart (s : State) (p : Nat) (x : Part) : State := { s with parts := put p x s.parts }

/-- The supervisor domain of a partition: local domain 0. -/
def supDom (p : Nat) : Nat := p * 2 ^ 10
/-- The supervisor domain of a core's partition; 0 where the core belongs to none. -/
def State.supDomOf (s : State) (core : Nat) : Nat :=
  match s.partOfCol (colOf core) with
  | some p => supDom p
  | none => 0

/-! ## Caravans (R414, R415) -/

/-- The partition, the key and the record of the resident manifest that a core belongs to. -/
def State.jobOf (s : State) (core : Nat) : Option (Nat × Nat × Job) :=
  s.scheds.findSome? fun (p, d) =>
    (d.jobs.find? (fun e => e.2.st = .resident && e.2.cores.contains core)).map fun (k, j) => (p, k, j)

/-- The cores of a band in the order of their ordinals (R415). -/
def Band.cores (b : Band) : List Nat := (List.range (b.h * b.w)).map (fun k => coreOf (b.col / 64) (b.y + k / b.w) (b.x + k % b.w))
/-- band.id of the core with ordinal `ord` of band `b`. -/
def bandWord (bands : List Band) (b ord : Nat) : W64 :=
  let x := bands.getD b ⟨0, 0, 0, 1, 1⟩
  n64 ((x.w - 1) * 2 ^ 36 + (x.h - 1) * 2 ^ 32 + (bands.length - 1) * 2 ^ 24 + b * 2 ^ 16 + ord * 2 ^ 8)

/-! ## What the device reads and writes (R496) -/

/-- The module as a slice sees it that serves an access for a core: the core's L1 is not asked (R391). -/
def State.atSlice (s : State) (core : Nat) : State := s.modCore core (fun k => { k with l1 := [] })

/-- The checks of an access that the device makes: against a core's PLB with a domain where `core` names one, otherwise orders 2, 4, 5,
7 and 8 of R39 alone. -/
def State.devCheck (s : State) (core : Option (Nat × Nat)) (va n : Nat) (need : Rights) (fit : Target → Bool := fun _ => true) : Except Trap Target :=
  match core with
  | some (c, dom) =>
    let ag := Agent.ctx c 0
    (addrCheck ag va n false).bind fun win =>
    (rightsCheck (s.core c).plb dom va (seenVa va win) n need).bind fun _ => (s.atSlice c).landing ag va n win fit
  | none =>
    let ag := Agent.ws 0
    (addrCheck ag va n false).bind fun win => s.landing ag va n win fit

/-- The parts of an access of a unit in each page, with the target of each; or the trap of R39 (ALIGN apart), with the address of the first byte that
fails. Its targets are pages of type DRAM, HOST or PEER, and
the mesh window (R195, R354). -/
def State.engTargets (s : State) (core : Nat) (dom va n : Nat) (need : Rights) : Except Trap (List (Nat × Nat × Target)) :=
  if n = 0 then .ok [] else
  let ag := Agent.ctx core 0
  match s.devCheck (some (core, dom)) va n need Target.words with
  | .ok t =>
    if 0x80 ≤ bits va 63 48 then .ok [(va, n, t)]
    else (piecesLen va n).mapM fun (p : Nat × Nat) => ((s.atSlice core).globalTarget ag p.1).map fun (x : Target × Option Leaf) => (p.1, p.2, x.1)
  | .error t =>
    let closed (p : Nat) : Bool := match (s.atSlice core).pageTarget ag Target.words true p with | .error _ => true | .ok _ => false
    .error (if t.addr then t else { t with info := n64 (((pieces va n).find? closed).getD va), addr := true })

/-- A PEER access cut at 256-byte granules: address there and length. -/
def peerParts (pva n : Nat) : List (Nat × Nat) :=
  (List.range ((pva % 256 + n - 1) / 256 + 1)).map fun i =>
    let a := if i = 0 then pva else (pva / 256 + i) * 256
    (a, min (pva + n) ((a / 256 + 1) * 256) - a)

/-- A PEER access of a unit cut into what one flit carries: 224 bytes at most, within a granule (R217, R472). -/
def flitParts (pva n : Nat) : List (Nat × Nat) :=
  (peerParts pva n).flatMap (fun q => if q.2 ≤ 224 then [q] else [(q.1, 224), (q.1 + 224, q.2 - 224)])

/-- The memory key that a target's bytes stand at, where they are memory. -/
def Target.key? : Target → Option Nat
  | .mem _ _ key => some key
  | .raw key _ => some key
  | .scratch core off => some (scratchKey core off)
  | _ => none

/-- The target `k` bytes further on, within its page. -/
def Target.up (t : Target) (va k : Nat) : Target :=
  match t with
  | .mem slice tag key => .mem slice (tag.up ((va % 256 + k) / 256)) (key + k)
  | .raw key tag => .raw (key + k) (tag.up ((va % 256 + k) / 256))
  | .scratch core off => .scratch core (off + k)
  | t => t

/-- Bytes of a target as the device reads them at one point of the chunk order. -/
def State.devRead (s : State) (t : Target) (n : Nat) : List Byte :=
  match t with
  | .mem _ _ key => s.memBytes key n
  | .scratch core off => s.committed core off n
  | .raw key _ => s.rawBytes key n
  | _ => []

/-- The granules of a target's bytes. -/
def Target.granules (t : Target) (n : Nat) : List Nat :=
  match t.key? with
  | some k => Machine.granules k n
  | none => []

/-- The tag of a target's first line (R379). -/
def Target.tag? : Target → Option LineTag
  | .mem _ tag _ => some tag
  | .raw _ tag => some tag
  | _ => none

/-- Bytes of a target are met by a reader, behind the bank-side operations accepted on them: the errors in them are found (R133, R401). -/
def State.meet (s : State) (t : Target) (va n : Nat) : State :=
  match t.key? with
  | some key => (s.settleBank (Machine.granules key n)).findFlaws t.tag? va key n
  | none => s

/-- Clears the poison of every 64-byte granule that a write covers whole (R401); no error stays in it either. -/
def State.unpoison (s : State) (key n : Nat) : State :=
  if s.poison.isEmpty && s.flaws.isEmpty then s
  else
    let keep (g : Nat) : Bool := !(key ≤ g * 64 && g * 64 + 64 ≤ key + n)
    { s with poison := s.poison.filter keep, flaws := s.flaws.filter keep }

/-- A write of Global memory that enters the chunk order on its own: at the home slice, with L1 copies invalidated and conflicting
chunks squashed (R197, R209, R215). For a scratchpad: the delivery of R211. -/
def State.devWrite (s : State) (by_ : Option Agent) (t : Target) (_va : Nat) (bs : List Byte) (rq : Option Requester := none) : State :=
  match t with
  | .mem _ tag key =>
    ((s.enter by_ (Machine.granules key bs.length)).unpoison key bs.length).linesWrite tag rq key bs
  | .raw key _ =>
    let gs := Machine.granules key bs.length
    (((s.settleBank gs).squashOthers by_ gs).unpoison key bs.length).rawWrite key bs
  | .scratch core off =>
    let key := scratchKey core off
    ((s.squashOthers by_ (Machine.granules key bs.length)).unpoison key bs.length).writeBytes key bs
  | _ => s

/-! ## Snapshots (R437) -/

/-- Notes a happening for a time, before all others due at the same time. -/
def sooner (t : Nat) (ev : Event) : List (Nat × Event) → List (Nat × Event)
  | [] => [(t, ev)]
  | (u, e) :: rest => if u < t then (u, e) :: sooner t ev rest else (t, ev) :: (u, e) :: rest

/-- A trigger reaches every block: the latch falls at the first multiple of 1,000 ns at or after the trigger plus 1,000 ns, before that instant's
tick; a trigger while held or before a pending latch is counted and ignored. -/
def State.snapTrigger (s : State) : State :=
  if bit s.snap.ctl.toNat 9 || s.snap.due.isSome then
    { s with snap := { s.snap with missed := (s.snap.missed + 1) % 2 ^ 32 } }
  else
    let t := (s.time + 1000 + 999) / 1000 * 1000
    { s with snap := { s.snap with due := some t }, agenda := sooner t ⟨.snapshotLatch, []⟩ s.agenda }

/-! ## Error records (R427 to R429) -/

/-- Word 0 of a record. -/
def ErrRec.word0 (e : ErrRec) (fw : Bool) : Nat :=
  e.dom % 2 ^ 16 * 2 ^ 48 + e.src % 256 * 2 ^ 40 + e.cause % 256 * 2 ^ 32 + e.sub % 256 * 2 ^ 24 +
  (if fw then 2 ^ 23 else 0) + e.ctx % 4 * 2 ^ 20 + e.loc % 2 ^ 19

/-- The 64 bytes of a record. -/
def ErrRec.bytes (e : ErrRec) (time : Nat) (fw : Bool) : List Byte :=
  [e.word0 fw, time, e.addr, e.pc, e.w4, e.w5, e.w6, e.w7].flatMap (leBytes 8)

/-- ERRLOG at the Iluet; its info word is not laid down, and is free (log 12). -/
def State.errlog (s : State) : State := s.raise .iluet cERRLOG (Config.freeWord s.seq 0)

/-- Advances a ring's control word after a write: wr steps, and a full ring loses its oldest record. The result says whether one was
lost. -/
def ringStep (w : Nat) : Nat × Bool :=
  let cap := bits w 15 0
  let wr := (bits w 47 32 + 1) % cap
  let rd := bits w 63 48
  if wr = rd then ((rd + 1) % cap * 2 ^ 48 + wr * 2 ^ 32 + bits w 31 0, true)
  else (rd * 2 ^ 48 + wr * 2 ^ 32 + bits w 31 0, false)

/-- The granules of a write that the device makes on its own, of which none may be reserved by a priority chunk (R213). -/
def State.devWaits (s : State) (t : Target) (n : Nat) : Bool := s.reserved (.ws 0) (t.granules n)

/-- Writes a record to the firmware log, or nothing where the write has to wait; a log switched off, or one that cannot be written, keeps no record. -/
def State.toLog (s : State) (e : ErrRec) : Option State :=
  let ring := s.snap.flogRing.toNat
  let va := (bits s.snap.flogBase.toNat 63 6 * 64 + 64 * bits ring 47 32) % 2 ^ 64
  match (if bits ring 15 0 = 0 then none else (s.devCheck none va 64 wrR).toOption) with
  | some t =>
    if s.devWaits t 64 then none
    else
      let s := s.devWrite none t va (e.bytes (e.time.getD s.time) true)
      some ({ s with snap := { s.snap with flogRing := n64 (ringStep ring).1 } }.errlog)
  | none => some s.errlog

/-- Writes a record to the error ring of the domain charged, or to the firmware log when the ring cannot take it; nothing where a write has to wait for a
priority chunk (R213, R428). -/
def State.writeRecord (s : State) (e : ErrRec) : Option State :=
  let p := e.dom / 2 ^ 10
  let pt := s.part p
  let div : Option State := (s.setPart p { s.part p with perrLog := (s.part p).perrLog + 1 }).toLog e
  if e.log then s.toLog e
  else if pt.pdomt = 0 then div
  else
    let via := e.core.map (fun c => (c, s.supDomOf c))
    let va := (bits pt.pdomt.toNat 63 5 * 32 + 32 * (e.dom % 2 ^ 10)) % 2 ^ 64
    match s.devCheck via va 32 { r := true, w := true } with
    | .error _ => div
    | .ok t =>
      let ent := s.devRead t 32
      let base := bits (leNat (ent.take 8)) 63 6 * 64
      let w1 := leNat ((ent.drop 8).take 8)
      let w2 := leNat ((ent.drop 16).take 8)
      if bits w1 15 0 = 0 then div
      else
        let ra := (base + 64 * bits w1 47 32) % 2 ^ 64
        match s.devCheck via ra 64 wrR with
        | .error _ => div
        | .ok rt =>
          match rt.key?, t.key? with
          | some rk, some tk =>
            if s.bad (rk / 64) || s.bad (tk / 64) then div
            else if s.devWaits rt 64 || s.devWaits t 32 then none
            else
              let s := s.devWrite none rt ra (e.bytes (e.time.getD s.time) e.fw)
              let (w, lost) := ringStep w1
              let ovf := bits w2 31 0
              let w2 := if lost && ovf < 2 ^ 32 - 1 then ovf + 1 else ovf
              let s := s.devWrite none (t.up va 8) (va + 8) (leBytes 8 w ++ leBytes 8 w2)
              let s := s.setPart p { s.part p with perrRing := (s.part p).perrRing + 1 }
              some (if e.fw then s.errlog else s)
          | _, _ => div

/-- Bytes reach a consumer, behind the bank-side operations accepted on them: poison in them raises UE with the granule's address (R133, R401). -/
def State.consume (s : State) (tag : Option LineTag) (va key n : Nat) : Try State :=
  let s := (s.settleBank (Machine.granules key n)).findFlaws tag va key n
  if s.noBad then .ok s else
  match (granules64 key n).find? s.bad with
  | none => .ok s
  | some g => .error (.trapIn s (trapAt cUE (va + g * 64 - key)))

/-- Writes records in order; from the first that has to wait on, they stay. -/
def State.writeErrs (s : State) : List ErrRec → State
  | [] => s
  | e :: es =>
    match s.writeRecord e with
    | some s => s.writeErrs es
    | none => { s with errs := s.errs ++ e :: es }

/-- Writes the records found in the step, and those that waited. A new one bears `time` at its detection, and is an error trigger where the snapshot block
says so (R427, R436). -/
def State.flushErrs (s : State) : State :=
  if s.errs.isEmpty then s else
  let armed (e : ErrRec) : Bool := e.time.isNone && bit s.snap.emask.toNat e.src && bit s.snap.ctl.toNat 3
  let s1 := s.errs.foldl (fun s e => if armed e then s.snapTrigger else s) { s with errs := [] }
  s1.writeErrs (s.errs.map (fun e => { e with time := some (e.time.getD s.time) }))

end Sys2Proof.Machine
end

