-- ==== Sys2Proof/Machine/Ops.lean ====
section
/-!
DEFINITION. The shared operations of every instruction: issue and its checks, sprint charges, LoopCheck and completion, taking an
exception at user, supervisor and firmware level and returning from one, launching and ending a context.
-/

namespace Sys2Proof.Machine

open Sys2Proof

/-! ## Hardware loops (R113) -/

/-- LoopCheck: set 1 first, then set 0. -/
def Regs.loopCheck (r : Regs) (next : W64) : Regs × W64 :=
  let hit1 : Bool := r.loop1.count ≠ 0 && next = r.loop1.stop
  let r1 := if hit1 then { r with loop1 := { r.loop1 with count := r.loop1.count - 1 } } else r
  if hit1 && r1.loop1.count ≠ 0 then (r1, r1.loop1.start)
  else
    let hit0 : Bool := r1.loop0.count ≠ 0 && next = r1.loop0.stop
    let r2 := if hit0 then { r1 with loop0 := { r1.loop0 with count := r1.loop0.count - 1 } } else r1
    if hit0 && r2.loop0.count ≠ 0 then (r2, r2.loop0.start) else (r2, next)

/-! ## Sprint charges (R282, R283) -/

/-- The amounts in flight of a core's contexts (inf of R282). -/
def Core.inflight (c : Core) : Nat := (c.ctxs.map (fun e => e.2.infl)).sum
/-- The part of it that is not one context's. -/
def Core.running (c : Core) (but : Nat) : Nat := (c.ctxs.map (fun e => if e.1 = but then 0 else e.2.infl)).sum

/-- Leaves the sprint and ends the reservation of a core's holder: held − spent returns to the pool, what is in flight is charged no
more; `code` is rsv.state.end. -/
def State.endRsv (s : State) (core : Nat) (code : Nat) : State :=
  match (s.core core).holder with
  | none => s
  | some n =>
    let s := s.modCtx (.ctx core n) fun c =>
      { c with rsvHeld := 0, rsvSpent := 0,
               rsvState := (c.rsvState &&& ~~~(0xF00#64)) ||| n64 (code * 2 ^ 8) }
    let s := (s.modCore core (fun c => { c with holder := none, cut := none, ctxs := c.ctxs.map (fun e => (e.1, { e.2 with infl := 0 })) })).repoint core
    s.modCol (colOf core) (fun k => { k with admitted := k.admitted.filter (fun a => a.core ≠ core) })

/-- A cut ends the reservation: rsv.state of the holder says so, and the class (R283). -/
def State.endCut (s : State) (core k : Nat) : State :=
  match (s.core core).holder with
  | none => s.modCore core (fun c => { c with cut := none })
  | some h =>
    (s.endRsv core 2).modCtx (.ctx core h) (fun c => { c with rsvState := (c.rsvState &&& ~~~(0xF0000#64)) ||| n64 (k * 2 ^ 16) })

/-- The cut of an instruction of a sprint class: the reservation ends, and the trap of R283 is raised in a state that says so. -/
def State.cutAt (s : State) (core n k : Nat) : Stop :=
  match (s.core core).holder with
  | none => .later s
  | some h =>
    let info := (s.ctx (.ctx core h)).rsvSpent + k * 2 ^ 56 + (if h = n then 0 else 2 ^ 63)
    .trapIn (s.endCut core k) { cause := cCUT, info := n64 info }

/-- Whether a cut can be made: what is in flight has been charged, and nothing delays the end of the chunk before the instruction, so that its trap is
delivered or the chunk squashed (R214, R283). -/
def State.cutReady (s : State) (core n : Nat) : Bool :=
  let ag := Agent.ctx core n
  (s.core core).running n = 0 && (s.regs ag).tpend.isEmpty && !s.queued ag

/-- Issue of a sprint class (R282, R283): the charge is noted once, when the instruction issues. An amount that the reservation cannot bear cuts it: it is
held at issue, and so is what else the core would issue, until the cut is made. The result is the state in which it issues, or the cut. -/
def State.issueCharge (s : State) (ag : Agent) (cls : Option Nat) : Try State :=
  match ag, cls with
  | .ctx core n, some k =>
    let K := s.core core
    let go (s : State) (cost : Nat) : Try State := .ok (s.modCtx ag (fun c => { c with issued := true, infl := cost }))
    if (s.ctx ag).issued then .ok s else
    match K.holder, K.cut with
    | none, _ => go s 0
    | some _, some (m, k', here) =>
      if m = n && here then (if s.cutReady core n then .error (s.cutAt core n k') else .error (.later (s.stallNow ag)))
      else if !here && K.inflight = 0 then go (s.endCut core k') 0
      else .error (.later (s.stallNow ag))
    | some h, none =>
      let cost := look 0 (s.col (colOf core)).cost k
      let H := s.ctx (.ctx core h)
      if H.rsvHeld < H.rsvSpent + K.inflight + cost then
        if s.cutReady core n then .error (s.cutAt core n k)
        else .error (.later ((s.modCore core (fun c => { c with cut := some (n, k, true) })).stallNow ag))
      else go s cost
  | _, _ => .ok s

/-- Charges what the instruction noted at issue, when it completes (R282). -/
def State.charge (s : State) (ag : Agent) : State :=
  match ag with
  | .ctx core _ =>
    let k := (s.ctx ag).infl
    if k = 0 then s else
    let s := s.modCtx ag (fun c => { c with infl := 0 })
    match (s.core core).holder with
    | none => s
    | some h =>
      let s := (s.modCtx (.ctx core h) (fun c => { c with rsvSpent := c.rsvSpent + k })).modCol (colOf core) (fun q => { q with fill := q.fill + k })
      match (s.core core).cut with
      | some (m, _, _) => s.start .sprintCut [4 * core + m]
      | none => s
  | _ => s

/-- A charge that an instruction of the coprocessor port made when it entered is taken back, where the instruction then traps precisely: from the fill, and
from what its reservation has spent, if that still holds (R255). -/
def State.uncharge (s : State) (core : Nat) (paid : Nat × Nat) : State :=
  if paid.1 = 0 then s else
  let s := s.modCol (colOf core) (fun q => { q with fill := q.fill - paid.1 })
  match (s.core core).holder with
  | none => s
  | some h => if (s.core core).rsvNo = paid.2 then s.modCtx (.ctx core h) (fun c => { c with rsvSpent := c.rsvSpent - paid.1 }) else s

/-- Whether the instruction of a context is held at issue by a cut, which is made before anything is due (R283). -/
def State.cutHeld (s : State) (ag : Agent) : Bool :=
  match ag with
  | .ctx core n => (match (s.core core).cut with | some (m, _, here) => m = n && here | none => false)
  | _ => false
/-- Whether a context holds a reservation on which other instructions are under way: they are charged before its end (R285). -/
def State.endHeld (s : State) (ag : Agent) : Bool :=
  match ag with
  | .ctx core n => (s.core core).holder = some n && (s.core core).running n ≠ 0
  | _ => false

/-! ## Operand slots and the end of a context -/

/-- Zeroes a physical slot and frees it (R246). -/
def State.freeSlot (s : State) (quad phys : Nat) : State :=
  let u := s.quad quad
  let s := s.setQuad quad { u with used := u.used.filter (· ≠ phys) }
  { s.unpoison (slotKey quad phys 0) 4096 with mem := s.mem.filter (fun e => !(slotKey quad phys 0 ≤ e.1 && e.1 < slotKey quad phys 0 + 4096)) }

/-- The next generation of an entry: modulo 2^16, skipping 0 (R246). -/
def nextGen (g : Nat) : Nat := if (g + 1) % 2 ^ 16 = 0 then 1 else (g + 1) % 2 ^ 16

/-- Releases an entry as OREL does (R258). -/
def State.releaseEntry (s : State) (core : Nat) (ag : Agent) (e : Nat) : State :=
  let x := look {} (s.ctx ag).entries e
  if x.claimed then
    (s.freeSlot (quadOf core) x.phys).modCtx ag (fun c => { c with entries := put e { gen := nextGen x.gen } c.entries })
  else s

/-- Releases every entry of a context (R32, R161). -/
def State.releaseAll (s : State) (ag : Agent) : State :=
  match ag with
  | .ctx core _ => (List.range 8).foldl (fun s e => s.releaseEntry core ag e) s
  | _ => s

/-- What becomes possible when a context of a core has ended: a waiting courier takes it first, a JOIN looks again, a RETIRE that
waits for its helpers ends; the search for a context to issue starts at context 0 again when none is left, where a
Saved context counts as idle (R20, R27, R32, R163; log 26). -/
def State.afterIdle (s : State) (core : Nat) : State :=
  let s := if (s.core core).courier.isSome then s.start .courierSlotStart [core] else s
  let s := if (s.core core).ctxs.any (fun e => e.2.live) then s else s.modCore core (fun c => { c with last := 3, lastThr := 3 })
  let c0 := s.ctx (.ctx core 0)
  if c0.st = .waiting && c0.why = 4 then
    if c0.retiring && (List.range 4).all (fun n => n = 0 || !(s.ctx (.ctx core n)).live) then s.start .helpersEnded [core]
    else if c0.retiring then s else s.wake (.ctx core 0)
  else s

/-- What a context that waits on an event unit or a reservoir has asked: its instruction completes with the answer. -/
def evAsk : Nat := 2 ^ 60

/-- Withdraws the request of a context that waits on an event unit or in RSV or RWAIT; a kept barrier ticket stays (R202, R206, R207,
R293). -/
def State.withdrawWait (s : State) (ag : Agent) : State :=
  let c := s.ctx ag
  if c.asked = some evAsk && c.reply.isNone then
    let s := s.modCtx ag (fun c => { c with asked := none })
    let of_ (core n : Nat) : Bool := ag = .ctx core n
    { s with cols := s.cols.map fun (k, q) =>
        (k, { q with ev := { q.ev with waits := q.ev.waits.filter (fun w => w.ag ≠ ag.code) },
                     pending := q.pending.filter (fun r => !of_ r.core r.ctx),
                     waits := q.waits.filter (fun w => !of_ w.core w.ctx) }) }
  else s

/-- A context that ends, freezes or is saved gives the priority token back, or its place among those that ask for it (R213). -/
def State.dropToken (s : State) (ag : Agent) : State :=
  let s := { s with tokenQ := s.tokenQ.filter (· ≠ ag.code) }
  if s.tokenHolder = some ag.code then
    let s := { s with tokenHolder := none }
    if s.tokenQ.isEmpty then s else s.start .priorityTokenGrant []
  else s

/-- Supervisor level holds the count towards the deadline up (R370). -/
def Ctx.pauseDeadline (c : Ctx) (now : Nat) : Ctx :=
  match c.dlAt with
  | some t => { c with dlAt := none, dlLeft := t - now, deadline := c.deadline + 1 }
  | none => c

/-- Counting towards the deadline starts, or goes on, at user level (R370). -/
def State.armDeadline (s : State) (ag : Agent) : State :=
  let c := s.ctx ag
  if c.r.preReq && c.lvl = .user && c.dlAt.isNone && !c.preDue then
    let no := c.deadline + 1
    let t := s.time + c.dlLeft
    (s.setCtx ag { c with deadline := no, dlAt := some t }).at t .safedlDeadline [ag.code, no]
  else s

/-- Ends a context: it becomes idle, its reservation and operand slots are released, its stopped engine slots become idle, its tagged inbox entries
stay, and the count of a pending request for pre-emption runs on (R32, R161, R189, R370). -/
def State.endContext (s : State) (ag : Agent) : State :=
  match ag with
  | .ctx core n =>
    let s := if (s.core core).holder = some n then s.endRsv core 1 else s
    let s := (s.withdrawWait ag).releaseAll ag
    let s := { s with flight := s.flight.filter (fun e => !(e.2.ev.row = Instr.matrixRetire && e.2.src = ag.code)) }
    let s := ((s.dropCommands ag).uncut ag).modCtx ag fun c =>
      { c.noInstr with
               mcmds := 0, taps := 0, tapBytes := [], st := .idle, why := 0, held := false, chunk := {}, pend := [], probes := [],
               slots := c.slots.filter (fun e => e.2.st = .running), saving := none, retiring := false, inThrottle := false, lvl := .user,
               parked := false, loading := false, ending := false, freezing := false, token := false, attempts := 0, serial := false }
    ((s.dropToken ag).armDeadline ag).afterIdle core
  | _ => s

/-- The launch state of R28: the registers of R357 stay, but for sstat.crit; running engine slots run on, stopped ones become idle. A pc is even (R79):
bit 0 of the named one is not kept (DEDUCED, log 17). -/
def Ctx.launch (c : Ctx) (pc x y rank : W64) : Ctx :=
  { c.noInstr with
    r := { pc := pc &&& ~~~(1#64), s := [(3, x), (4, y)], rank := rank,
           svec := c.r.svec, spc := c.r.spc, scause := c.r.scause, sinfo := c.r.sinfo, sstat := c.r.sstat &&& ~~~(0x8#64),
           sscratch := c.r.sscratch, safedl := c.r.safedl, save := c.r.save, preDlv := c.r.preDlv, preReq := c.r.preReq, dom := c.r.dom,
           tringBase := c.r.tringBase, tringSize := c.r.tringSize, tringOvf := c.r.tringOvf, plbCtl := c.r.plbCtl, plbFva := c.r.plbFva },
    st := .ready, why := 0, lvl := .user, held := false, chunk := {}, attempts := 0,
    pend := [], probes := [], rsvHeld := 0, rsvSpent := 0, rsvState := 0,
    slots := c.slots.filter (fun e => e.2.st = .running), serial := false, saving := none, flowMarks := [],
    tapStat := [], tapBytes := [], retiring := false, inThrottle := false, parked := false, ending := false, freezing := false }

/-! ## Taking an exception -/

/-- User trap entry (R168): the saved pc, cause and info are written, s24 to s31 and the loop sets exchanged with their shadows, and the
pc goes to uvec. -/
def Regs.userEntry (r : Regs) (cause : Nat) (info savedpc : W64) : Regs :=
  { r with
    upc := savedpc, ucause := n64 cause, uinfo := info, act := true,
    s := (List.range 8).foldl (fun t k => put (24 + k) (look 0 r.shadow (24 + k)) t) r.s,
    shadow := (List.range 8).foldl (fun t k => put (24 + k) (look 0 r.s (24 + k)) t) r.shadow,
    loop0 := r.shLoop0, loop1 := r.shLoop1, shLoop0 := r.loop0, shLoop1 := r.loop1,
    pc := r.uvec &&& ~~~(1#64) }

/-- The exchange of URET (R169). -/
def Regs.userReturn (r : Regs) : Regs :=
  { r with
    act := false,
    s := (List.range 8).foldl (fun t k => put (24 + k) (look 0 r.shadow (24 + k)) t) r.s,
    shadow := (List.range 8).foldl (fun t k => put (24 + k) (look 0 r.s (24 + k)) t) r.shadow,
    loop0 := r.shLoop0, loop1 := r.shLoop1, shLoop0 := r.loop0, shLoop1 := r.loop1,
    pc := r.upc &&& ~~~(1#64) }

/-- sstat (or fstat) at entry: psie and ppl take sie and the level, sie is cleared, crit set, sv and ld cleared (R360). -/
def statEntry (st : W64) (ppl : Bool) : W64 :=
  n64 ((if ppl then 4 else 0) + (if bit st.toNat 0 then 2 else 0) + 8)

/-- Supervisor entry (R360): spc, scause, sinfo and sstat are written and the pc goes to svec; nothing else is saved or exchanged. -/
def Regs.supEntry (r : Regs) (lvl : Level) (cause detail : Nat) (info savedpc : W64) (async : Bool) : Regs :=
  { r with
    spc := savedpc, scause := n64 ((if async then 2 ^ 63 else 0) + detail * 2 ^ 8 + cause), sinfo := info,
    sstat := statEntry r.sstat (lvl = .sup),
    pc := r.svec &&& ~~~(1#64) }

/-- Puts a context into the frozen state: waiting with why 6, clock-gated (R363, R431). -/
def Ctx.freeze (c : Ctx) : Ctx :=
  { c.noInstr with st := .waiting, why := 6, held := true, saving := none, parked := false, freezing := false }

/-- The time that ctx.safedl gives a request: a free number for its core cycles (log 9); 0 is the next boundary (R357). -/
def State.safedlNs (s : State) (r : Regs) : Nat :=
  let dl := bits r.safedl.toNat 31 0
  if dl = 0 then 0 else Config.cyclesToNs dl s.seq

/-- The count towards the deadline of a request starts afresh. -/
def State.countDeadline (s : State) (ag : Agent) : State :=
  (s.modCtx ag (fun c => { c with deadline := c.deadline + 1, dlAt := none, preDue := false, dlLeft := s.safedlNs c.r })).armDeadline ag

/-- A new request for pre-emption: req and preq are set, and its count starts (R370). -/
def State.requestPreempt (s : State) (ag : Agent) : State := (s.devR ag (fun r => { r with preReq := true })).countDeadline ag

/-- Wakes the supervisor: entry of a cause at svec. -/
def State.supEntry (s : State) (ag : Agent) (cause detail : Nat) (info savedpc : W64) (async : Bool) : State :=
  s.modCtx ag fun c =>
    let c := c.pauseDeadline s.time
    { c.noInstr with r := c.r.supEntry c.lvl cause detail info savedpc async, lvl := .sup, st := .ready, why := 0, held := false }

/-- Entry of a cause at uvec. -/
def State.userEntry (s : State) (ag : Agent) (cause : Nat) (info savedpc : W64) : State :=
  s.modCtx ag fun c =>
    { c.noInstr with r := c.r.userEntry cause info savedpc, st := .ready, why := 0, held := false, inThrottle := cause = cTHROTTLE }

/-- Firmware entry on the Iluet (R369): as R360 with fvec, fpc, fcause, finfo and fstat; a synchronous trap with fstat.crit set stops
the core and triggers a snapshot. -/
def State.fwEntry (s : State) (cause detail : Nat) (info savedpc : W64) (async : Bool) : State :=
  if !async && bit s.fw.fstat.toNat 3 then
    ({ s with fw := { s.fw with stopped := true } }.modCtx .iluet (fun c => { c with st := .waiting, why := 6, held := true })).snapTrigger
  else
    let s := { s with fw := { s.fw with fpc := savedpc, fcause := n64 ((if async then 2 ^ 63 else 0) + detail * 2 ^ 8 + cause),
                                        finfo := info, fstat := statEntry s.fw.fstat false } }
    s.modCtx .iluet fun c =>
      { c.noInstr with r := { c.r with pc := s.fw.fvec &&& ~~~(1#64) }, st := .ready, why := 0, held := false }

/-- Stops a band of a resident manifest (R431, R432): each other live context of it freezes, a Waiting one at once and any other at its next
boundary; one record is written, with `core` as the place; the contexts of the caravan's other bands take CARAVAN. A request for pre-emption of the caravan, of key
`k`, is abandoned when it is next looked at (R419). -/
def State.stopBand (s : State) (p k : Nat) (j : Job) (b core n : Nat) : State :=
  let s := if j.preempt = some true then s.start .caravanSave [p, k] else s
  let word := bandWord j.bands b 0
  let mine := (j.bands.getD b ⟨0, 0, 0, 1, 1⟩).cores
  let s := s.record { dom := supDom p, src := 1, sub := 4, ctx := n, loc := coreId core, w4 := p * 2 ^ 32 + j.id, w5 := word.toNat,
                      core := some core }
  j.cores.foldl (init := s) fun s c =>
    let s := if mine.contains c then s.modCore c (fun k => { k with stopped := true }) else s
    (List.range 4).foldl (init := s) fun s n =>
      let ag := Agent.ctx c n
      let x := s.ctx ag
      if !x.live || (x.st = .waiting && x.why = 6) then s
      else if !mine.contains c then s.raise ag cCARAVAN word
      else if x.st = .waiting then (s.withdrawWait ag).modCtx ag Ctx.freeze
      else s.modCtx ag (fun c => { c with freezing := true })

/-- Freezes a context whose supervisor trapped with crit set: nothing of the trap is delivered; a record, ERRLOG, and its band stops
(R363, R431). -/
def State.freezeTrap (s : State) (ag : Agent) (t : Trap) : State :=
  match ag with
  | .ctx core n =>
    let c := s.ctx ag
    let s := s.modCtx ag Ctx.freeze
    let s := s.record { dom := s.supDomOf core, src := 1, sub := 1, cause := t.cause, ctx := n, loc := coreId core,
                        addr := if t.addr then t.info.toNat else 0, pc := c.r.pc.toNat, w4 := t.info.toNat, fw := true, core := some core }
    match s.jobOf core with
    | some (p, k, j) =>
      if (s.core core).stopped then s
      else s.stopBand p k j (bits (s.core core).bandId.toNat 21 16) core n
    | none => s
  | _ => s

/-- Whether a cause goes to uvec at user level: its bit of uie (R166, R358). -/
def routed (r : Regs) (cause : Nat) : Bool :=
  [8, 9, 12, 13, 17, 32, 33, 34, 35].contains cause && bit r.uie.toNat cause

/-- A waystation handler ends, by itself or by an abort; the next queued event may start (R330 to R332, R338). -/
def State.endHandler (s : State) (k : Nat) (abort : Option Nat) : State :=
  let l := s.slice k
  match l.run with
  | none => s
  | some ev =>
    let l := match abort with
      | some _ => l.stepCount ev.entry 32
      | none => l
    let l := { l with run := none, holds := (if ev.holdCopy then l.holds - 1 else l.holds),
                      ctx := { l.ctx with st := .idle, held := false } }
    let s := s.setSlice k l
    let s := match abort with
      | some cause =>
        s.record { dom := ev.dom, src := 6, sub := 1, cause := cause, loc := sliceLoc k, addr := ev.va,
                   pc := (s.ctx (.ws k)).r.pc.toNat, w4 := ev.kind * 2 ^ 8 + ev.entry }
      | none => s
    if l.queue.isEmpty then s else s.start .handlerStart [k]

/-- Delivers a synchronous trap of the instruction at pc (R170, R358, R360 to R364, R369, R332). The state is the one after the
commit of the chunk. -/
def State.deliver (s : State) (ag : Agent) (t : Trap) : State :=
  let c := s.ctx ag
  match ag with
  | .iluet => s.fwEntry t.cause t.detail t.info c.r.pc false
  | .ws k => s.endHandler k (some t.cause)
  | .ctx _ _ =>
    match c.lvl with
    | .sup =>
      if bit c.r.sstat.toNat 3 then s.freezeTrap ag t else s.supEntry ag t.cause t.detail t.info c.r.pc false
    | .user =>
      if c.r.act then s.supEntry ag cDOUBLE t.cause t.info c.r.pc false
      else if routed c.r t.cause then s.userEntry ag t.cause t.info c.r.pc
      else s.supEntry ag t.cause t.detail t.info c.r.pc false

/-- Takes a synchronous trap (R7, R214): what the PLB registers record, the commit of the chunk before it, the entry. If the commit is
squashed instead, or cannot be made yet, the trap is discarded and recurs when its instruction runs again. -/
def State.takeTrap (s : State) (ag : Agent) (t : Trap) : State :=
  let s := s.modCtx ag Ctx.noInstr
  if !(s.regs ag).tpend.isEmpty then s.stallNow ag else
  match s.endChunk ag with
  | .ok s =>
    let s := match t.plb with
      | some (kind, lvl, va) => s.modR ag (fun r => { r with plbCtl := n64 (lvl * 2 ^ 8 + kind), plbFva := va })
      | none => s
    s.deliver ag t
  | .error (.later s) => s
  | .error _ => s

/-- The outcome of a meaning: a stop that is not the machine's becomes a next state. -/
def settle (s : State) (ag : Agent) : Try State → Host.Outcome State Fault Refusal
  | .ok s' => .next s'
  | .error (.later s') => .next s'
  | .error (.trap t) => .next (s.takeTrap ag t)
  | .error (.trapIn s1 t) => .next (s1.takeTrap ag t)

/-! ## Issue and completion of an instruction word -/

/-- Where execution goes on. -/
inductive Next where
  /-- The next instruction in order, with LoopCheck (R113). -/
  | fall
  /-- A control transfer, without LoopCheck (R114). -/
  | goto (pc : W64)
  /-- The fall-through path to an address that LoopCheck still sees (LSETUP with a zero count; R112). -/
  | thru (pc : W64)
  /-- The meaning has set the pc. -/
  | done
  /-- The context no longer runs: it has ended, has been saved, or is held for a save. -/
  | over
deriving DecidableEq, Repr

/-- The word of an instruction, as the info of ILLEGAL and PRIV (R94). -/
def insWord (i : Instr) : Nat := ((encode i).map (·.2)).getD 0
/-- The major opcode of a 32-bit instruction; none for the 16-bit forms. -/
def insMajor (i : Instr) : Option Nat :=
  match encode i with
  | some (32, w) => some (w / 2 ^ 26)
  | _ => none

/-- Whether an agent may run an instruction at all (R94 rows 3 and 4, R324, R356). -/
def legalOn (ag : Agent) (i : Instr) : Bool :=
  match insMajor i with
  | none => true
  | some m =>
    let f := (insWord i) / 2 ^ 21 % 32
    match ag with
    | .ctx _ _ => m ≠ 0x2F
    | .ws _ =>
      m ≠ 0x0B && m ≠ 0x16 && !(0x1A ≤ m && m ≤ 0x1F) && !(0x20 ≤ m && m ≤ 0x2E) &&
      (m ≠ 0x17 || f = 0 || f = 1 || f = 9 || f = 6)
    | .iluet =>
      (m ≤ 0x15 && m ≠ 0x0B) || m = 0x18 || m = 0x19 || m = 0x1C ||
      (m = 0x17 && (f = 0 || f = 1 || f = 2 || f = 4 || f = 5 || f = 6 || f = 9))

/-- How an instruction stands to chunks and levels: its sprint class (none: never charged), whether it is a singleton (R208),
whether it is for the supervisor only (R91), whether the chunk ends before it and it opens the next (R97), the scalar registers it reads (R178). -/
structure Attr where
  cls : Option Nat := some 0
  single : Bool := false
  priv : Bool := false
  before : Bool := false
  reads : List Nat := []
deriving DecidableEq, Repr

/-- The sprint classes whose instructions are loads, stores and atomics (R281, R448). -/
def memoryClass (cls : Option Nat) : Bool :=
  match cls with
  | some k => (4 ≤ k && k ≤ 7) || k = 12 || k = 13
  | none => false

/-- A load or a store may keep its core from issuing (R448). -/
def State.stallMem (s : State) (ag : Agent) (cls : Option Nat) : State := if memoryClass cls then s.addStall ag else s

/-- Issue (R94, R125, R178, R208, R282): the instruction is legal here and at this level, its sources are present, its charge is noted,
and a singleton ends the chunk while any other starts one. -/
def issue (i : Instr) (a : Attr) (ag : Agent) (s : State) : Try State :=
  let c := s.ctx ag
  let ill : Trap := { cause := cILLEGAL, info := n64 (insWord i) }
  if !legalOn ag i then .error (.trap ill)
  else if a.priv && ag ≠ .iluet && c.lvl = .user then .error (.trap { cause := cPRIV, info := n64 (insWord i) })
  else if a.reads.any (fun n => !c.r.present n) then .error (.later (s.stallHeld ag))
  else
    ((s.stallMem ag a.cls).issueCharge ag a.cls).bind fun s =>
      match ag with
      | .ws _ => .ok s
      | _ =>
        if a.single then s.endChunk ag
        else if a.before || 512 ≤ c.chunk.count || 32 ≤ c.chunk.writes.length then (s.endChunk ag).bind (fun s => .ok (s.beginChunk ag))
        else .ok (s.beginChunk ag)

/-- Completion (R113, R125, R208, R282): the charge, the next pc, the counts; a chunk that has reached a limit ends. -/
def retire (i : Instr) (ag : Agent) (s : State) (next : Next) : State :=
  let s := s.charge ag
  let s := if next = .over then s else s.modCtx ag fun c =>
    let r' := match next with
      | .fall => let x := c.r.loopCheck (c.r.pc + n64 i.size); { x.1 with pc := x.2 }
      | .thru pc => let x := c.r.loopCheck pc; { x.1 with pc := x.2 }
      | .goto pc => { c.r with pc := pc }
      | _ => c.r
    { c.noInstr with
             r := r', st := (if c.st = .stalled then .ready else c.st), held := (if c.st = .stalled then false else c.held),
             chunk := if c.chunk.run then { c.chunk with count := c.chunk.count + 1 } else c.chunk }
  let s := match ag with
    | .ctx core _ => s.modCore core (fun k => { k with retired := k.retired + 1 })
    | _ => s
  let k := (s.ctx ag).chunk
  if k.run && (512 ≤ k.count || 32 ≤ k.writes.length) then
    match s.endChunk ag with
    | .ok s => s
    | .error (.later s) => s
    | .error _ => s
  else s

/-- An instruction word runs in the executing agent. -/
def runWord (i : Instr) (a : Attr) (m : State → Agent → Try (State × Next)) (s : State) : Host.Outcome State Fault Refusal :=
  settle s s.cur ((issue i a s.cur s).bind fun s1 => (m s1 s.cur).bind fun (s2, n) => .ok (retire i s.cur s2 n))

/-- An instruction that only computes on its own registers. -/
def runRegs (i : Instr) (cls : Nat) (reads : List Nat) (f : Regs → Except Trap (Regs × Next)) (s : State) :
    Host.Outcome State Fault Refusal :=
  runWord i { cls := some cls, reads := reads } (fun s ag =>
    (liftT (f (s.regs ag))).bind fun (r, n) => .ok (s.modR ag (fun _ => r), n)) s

/-- A happening always gives a next state. -/
def happen (s : State) : Host.Outcome State Fault Refusal := .next s

end Sys2Proof.Machine
end

