-- ==== Sys2Proof/Machine/Flags.lean ====
section
/-!
DEFINITION. The floating status register fx.status and its flags (R61, R62).
-/

namespace Sys2Proof.Machine

open Sys2Proof

/-- Whether serial mode holds: some enable is set (R242). -/
def Regs.anyEnable (r : Regs) : Bool := r.enables ≠ 0

/-- Adds flags to fx.status<5:0>. -/
def Regs.addFlags (r : Regs) (f : Flags) : Regs := { r with fx := r.fx ||| n64 f.toNat }

/-- Completion with flags (R62): an enabled flag raises FPX with the flags as info and nothing changes; otherwise they are added. -/
def Regs.withFlags (r : Regs) (f : Flags) (upd : Regs → Regs) : Except Trap Regs :=
  if f &&& r.enables ≠ 0 then .error { cause := cFPX, info := n64 f.toNat } else .ok ((upd r).addFlags f)

/-- fx.status keeps its defined bits 13:8 and 5:0. -/
def fxMask : W64 := 0x3F3F#64

end Sys2Proof.Machine
end

