-- ==== Sys2Proof/Machine/Operands.lean ====
section
/-!
DEFINITION. Operand forms: effective addresses (R122, R128, R151), pointer walks (R45), the bytes and elements of register values.
-/

namespace Sys2Proof.Machine

open Sys2Proof

/-- Base plus signed byte offset, modulo 2^64 (R122). -/
def eaOff (r : Regs) (a : Nat) (off : Int) : Nat := (r.S a + w64 off).toNat
/-- Base plus scaled index (R122). -/
def eaIdx (r : Regs) (a b size : Nat) : Nat := (r.S a + (r.S b <<< size)).toNat

/-- The effective address of a pointer access: 0xFF80, the coordinates of the pointer, and the offset modulo 2^17; the second part is the
offset before the reduction (R122, R128). -/
def eaPtr (r : Regs) (p : Nat) (off : Int) : Nat × Int :=
  let w := (r.P p).toNat
  let o : Int := (bits w 16 0 : Nat) + off
  (0xFF80 * 2 ^ 48 + bits w 47 17 * 2 ^ 17 + (o % 2 ^ 17).toNat, o)

/-- Sets bits `hi` down to `lo` of a word. -/
def setBits (w hi lo v : Nat) : Nat := w - bits w hi lo * 2 ^ lo + v % 2 ^ (hi + 1 - lo) * 2 ^ lo

/-- One step of PWalk on pointer p with a stride (R45): the new pointer and walk words, or nothing where it raises BOUNDS. -/
def pwalk (p pc st : Nat) : Option (Nat × Nat) :=
  let span := bits pc 16 0
  let sp := if span = 0 then 0x20000 else span
  let lim := bits pc 29 17 * 16 + sp
  let xc := bits pc 36 30
  let yc := bits pc 51 45
  let x0 := bits pc 44 37
  let y0 := bits pc 59 52
  if sp < st ∨ 0x20000 < lim ∨ 112 < xc ∨ 112 < yc then none
  else
    let off := bits p 16 0 + st
    let x := bits p 35 28
    let y := bits p 43 36
    if lim ≤ off then
      let off := off - sp
      let x1 := if xc = 0 then x else if (x + 1) % 256 = (x0 + xc) % 256 then x0 else (x + 1) % 256
      let cx : Bool := xc = 0 || (x + 1) % 256 = (x0 + xc) % 256
      let y1 := if cx = false ∨ yc = 0 then y else if (y + 1) % 256 = (y0 + yc) % 256 then y0 else (y + 1) % 256
      let cy : Bool := cx && (yc = 0 || (y + 1) % 256 = (y0 + yc) % 256)
      if 0x1FFFF < off then none
      else some (setBits (setBits (setBits p 16 0 off) 35 28 x1) 43 36 y1, if cy then setBits pc 63 63 1 else pc)
    else if 0x1FFFF < off then none
    else some (setBits p 16 0 off, pc)

/-- PWalk(n) with the pointer's own stride (R45). -/
def Regs.walk (r : Regs) (n : Nat) : Option Regs :=
  (pwalk (r.P n).toNat (r.PW n).toNat (bits (r.P n).toNat 63 48)).map fun (p, pc) =>
    (r.setP n (n64 p)).setPW n (n64 pc)

/-- The format of the bank that holds a scratchpad offset; a raw bank stands for a register format (R47, R71). -/
def State.bankOf (s : State) (core off : Nat) (reg : EFmt) : EFmt :=
  (bankFmt (look 0 (s.core core).bfmt (off / 2 ^ 14))).getD reg

/-- The bytes and flags of a converting store of a register's elements to a scratchpad, by the bank format in force (R48, R154). Eight
elements for a bank of an SX format, which only a change of format under way can bring about, have no stated bytes: they are
free (log 13). -/
def State.elemBytes (s : State) (core off fmt : Nat) (v : V256) : List Byte × Flags :=
  let reg := regFmt fmt
  let n := reg.regCount
  let dst := s.bankOf core off reg
  if n % dst.group ≠ 0 then ((List.range dst.groupBytes).map (fun i => Config.freeByte s.seq i), 0)
  else
    let (x, fl) := convert reg dst n v.toNat
    (leBytes (dst.bytes n) x, fl)

/-- The bytes of a store under way to a scratchpad, as its bank takes them; none falls beyond the scratchpad. Where a format that has changed meanwhile makes
them misaligned, or longer than what is left of the bank, they are written on from their offset all the same (DESIGN CHOICE, log 69). -/
def State.storeBytes (s : State) (st : RStore) : List Byte :=
  match st.data with
  | .raw bs => bs
  | .elems fmt v => ((s.elemBytes st.core st.off fmt v).1).take (2 ^ 17 - st.off)

/-- The little-endian bytes of a register's low part. -/
def regBytes (v : W64) (n : Nat) : List Byte := leBytes n v.toNat
/-- Loaded bytes as a register value, zero- or sign-extended (R127). -/
def loaded (signed : Bool) (bs : List Byte) : W64 :=
  if signed then w64 (toSigned (8 * bs.length) (leNat bs)) else n64 (leNat bs)

end Sys2Proof.Machine
end

