-- ==== Sys2Proof/Machine/Loads.lean ====
section
/-!
DEFINITION. Loads and stores of bytes at a checked target (R53, R124, R125): cached Global memory and scratchpads inside the chunk,
uncached DRAM and host devices outside it, other cores' scratchpads and other modules by messages.
-/

namespace Sys2Proof.Machine

open Sys2Proof

/-- A target whose every access is a singleton (R125). -/
def Target.single : Target → Bool
  | .mem .. | .peer .. | .scratch .. => false
  | _ => true

/-- The context has sent message `id` and waits for its reply. -/
def State.await (s : State) (ag : Agent) (id : Nat) : State :=
  s.modCtx ag (fun c => { c with asked := some id, reply := none, st := .stalled, held := true })

/-- Number of the request that a PEER load or atomic is, for its acknowledgement. -/
def peerAsk (flow seq : Nat) : Nat := 2 ^ 48 + flow * 2 ^ 32 + seq

/-- Whether bytes belong to a batch of a TAP of the context that has not completed (R347). -/
def State.tapHeld (s : State) (ag : Agent) (key n : Nat) : Bool :=
  (s.ctx ag).tapBytes.any (fun t => t.2.1 < key + n && key < t.2.1 + t.2.2)

/-- The bytes of a context's own pending stores to another core's scratchpad, over what it reads there (R125). -/
def State.overlay (s : State) (core off : Nat) (stores : List RStore) (bs : List Byte) : List Byte :=
  stores.foldl (init := bs) fun bs st =>
    if st.core ≠ core then bs else
    let d := s.storeBytes st
    (bs.zip (List.range bs.length)).map fun (b, i) =>
      if st.off ≤ off + i ∧ off + i < st.off + d.length then d.getD (off + i - st.off) b else b

/-- The bytes of a context's own pending stores to PEER pages, over what it reads on the flow (R125). -/
def overlayPeer (flow va : Nat) (stores : List PStore) (bs : List Byte) : List Byte :=
  stores.foldl (init := bs) fun bs st =>
    if st.flow ≠ flow then bs else
    bs.zipIdx.map fun (b, i) => if st.va ≤ va + i ∧ va + i < st.va + st.bytes.length then st.bytes.getD (va + i - st.va) b else b

/-- Whether an access of `n` bytes of cached memory finds none of its lines where its agent reaches it first: in L1, or for the Iluet in a slice. Such a
load waits once for its data, in the Stalled state (R49, R296). -/
def State.misses (s : State) (ag : Agent) (t : LineTag) (va n : Nat) : Bool :=
  !(s.ctx ag).missed &&
  (List.range ((va % 256 + n - 1) / 256 + 1)).any fun i =>
    let u := t.up i
    match ag.core? with
    | some c => ((s.core c).l1Find (u.va * 256)).isNone
    | none => ((s.slice u.home).find (u.va * 256)).isNone
/-- The context waits for the data of a line; its instruction has issued, and completes before anything is due at a boundary. -/
def State.awaitLine (s : State) (ag : Agent) : State := (s.stallNow ag).modCtx ag (fun c => { c with missed := true })

/-- The reply to the `k`-th request that the instruction makes of another core or module; it is sent now, or waited for, where it has not
come yet. -/
def State.request (s : State) (ag : Agent) (k : Nat) (send : State → State × Nat) : Try (State × List Nat) :=
  let c := s.ctx ag
  match c.got[k]? with
  | some r => .ok (s, r)
  | none =>
    match c.reply with
    | some r => .ok (s.modCtx ag (fun c => { c with got := c.got ++ [r], reply := none, asked := none }), r)
    | none =>
      if c.asked.isSome then .error (.later (s.stallHeld ag))
      else
        let (s, id) := send s
        .error (.later (s.await ag id))

/-- Whether the `k`-th request of the instruction has still to be sent. -/
def State.asksFirst (s : State) (ag : Agent) (k : Nat) : Bool :=
  (s.ctx ag).got[k]?.isNone && (s.ctx ag).reply.isNone && (s.ctx ag).asked.isNone

/-- Loads `n` bytes at a target that is memory or a host device; the registers of the event unit, the courier window, on-module blocks and the management
region take accesses of 8 bytes alone, which are not made here (R124, R389). `k` counts the requests that the instruction has made before (R53, R125, R216, R217). -/
def State.loadAt (s : State) (ag : Agent) (k : Nat) (t : Target) (va n : Nat) : Try (State × List Byte × Nat) :=
  match t with
  | .mem _ tag key =>
    if s.pageHeld va then .error (.later (s.stallNow ag))
    else if s.misses ag tag va n then s.needTiers ag (.error (.later (s.awaitLine ag)))
    else
      (s.consume (some tag) va key n).map fun s =>
        let (s, bs) := s.loadMem ag tag va key n
        (s, bs, k)
  | .raw key tag => s.needTiers ag ((s.consume (some tag) va key n).map fun s => (s, s.rawBytes key n, k))
  | .host pa => s.needTiers ag (.ok (s.out 2 [0, pa, n], (List.range n).map (fun i => Config.freeByte s.seq i), k))
  | .scratch core off =>
    if s.tapHeld ag (scratchKey core off) n then .error (.later (s.stallNow ag))
    else if ag.core? = some core then
      (s.consume none va (scratchKey core off) n).bind fun s =>
        (s.readScratch ag core off n).map fun (s, bs) => (s.keepScratch ag core off, bs, k)
    else
      (s.request ag k (fun s =>
        (s.send { chan := 2 ^ 38 + s.nextMsg, ev := ⟨.remoteRead, [s.nextMsg]⟩, src := ag.code, words := [core, off, n] },
         s.nextMsg))).bind fun (s, r) =>
      match r with
      | 0 :: r => .ok (s.keepScratch ag core off, s.overlay core off (s.ctx ag).chunk.remote (r.map (BitVec.ofNat 8)), k + 1)
      | cause :: g :: _ => .error (.trap (trapAt cause (va + g)))
      | _ => .error (.later (s.stallHeld ag))
  | .peer flow ord pva =>
    if s.asksFirst ag k && bit (look 0 s.flows flow).toNat 62 then .error (.trap { cause := cFLOW, info := n64 (3 * 2 ^ 8 + flow) })
    else if s.asksFirst ag k && s.closed ag then .error (.later (s.fifoHold ag))
    else if s.asksFirst ag k && !s.credit flow 1 then .error (.later (s.stallNow ag))
    else
      (s.request ag k (fun s =>
        let seq := look 0 s.flowSeq flow
        let s := { s with flowSeq := put flow ((seq + 1) % 2 ^ 32) s.flowSeq }
        (s.out (0x1000 + flow) [seq, 0, if ord then 1 else 0, pva, n], peerAsk flow seq))).bind fun (s, r) =>
      match r with
      | 0 :: r => .ok (s, overlayPeer flow pva (s.ctx ag).chunk.peer (r.map (BitVec.ofNat 8)), k + 1)
      | reason :: _ => .error (.trap { cause := cFLOW, info := n64 (reason * 2 ^ 8 + flow) })
      | [] => .error (.later (s.stallHeld ag))
  | _ => .error (.trap (trapAt cALIGN va))

/-- Loads a run of bytes that may cross pages: each page's part at its own target. -/
def State.loadRun (s : State) (ag : Agent) (k : Nat) (t : Target) (va n : Nat) : Try (State × List Byte × Nat) :=
  if bits va 63 48 < 0x80 && 1 < (pieces va n).length then
    (piecesLen va n).foldlM (init := (s, [], k)) fun (s, bs, k) (a, len) =>
      (liftT (s.globalTarget ag a)).bind fun (t, _) => (s.loadAt ag k t a len).map fun (s, x, k) => (s, bs ++ x, k)
  else s.loadAt ag k t va n

/-- What a store at a target has to wait for before any byte of it is written: a page that moves, a granule that a priority chunk has reserved, the bytes
of a TAP, a speculative granule, the crossing FIFO (R125, R213, R347, R398, R442). -/
def State.storeWait (s : State) (ag : Agent) (t : Target) (va n : Nat) : Option Stop :=
  match t with
  | .mem .. => if s.pageHeld va then some (.later (s.stallNow ag)) else none
  | .raw key _ =>
    if s.closed ag then some (.later (s.fifoHold ag))
    else if !s.mayEnter ag (granules key n) then some (.later (s.stallNow ag)) else none
  | .host _ => if s.closed ag then some (.later (s.fifoHold ag)) else none
  | .scratch core off =>
    let key := scratchKey core off
    if s.tapHeld ag key n then some (.later (s.stallNow ag))
    else if ag.core? = some core then
      ((granules64 key n).findSome? (fun g => (s.specHolder core ag g).map (fun h => (g, h)))).map (fun x => s.waitGranule ag x.2 x.1)
    else none
  | _ => none

/-- A store that leaves its core joins the chunk: its granules and its addresses (R125, R395). -/
def Chunk.leaves (k : Chunk) (key va n : Nat) : Chunk := { k with writes := addAll k.writes (granules key n), vas := addAll k.vas (granules va n) }

/-- Stores bytes at a target that they need not wait for, for all but the event unit, the courier window, on-module blocks and the management region. -/
def State.storeHere (s : State) (ag : Agent) (t : Target) (va : Nat) (bs : List Byte) : Try State :=
  match t with
  | .mem _ tag key => .ok (s.storeMem ag tag va key bs)
  | .raw .. => .ok (s.devWrite (some ag) t va bs)
  | .host pa => .ok (s.out 2 [1, pa, bs.length, leNat bs])
  | .scratch core off =>
    if ag.core? = some core then (s.writeScratch ag core off bs).map (fun s => s.keepScratch ag core off)
    else
      .ok ((s.keepScratch ag core off).modCtx ag fun c =>
        { c with chunk := { c.chunk.leaves (scratchKey core off) (absolute 0x80 core off) bs.length with
                              remote := c.chunk.remote ++ [⟨core, off, .raw bs⟩] } })
  | .peer flow ord pva =>
    .ok (s.modCtx ag fun c =>
      { c with chunk := { c.chunk.leaves (peerKey flow pva) va bs.length with peer := c.chunk.peer ++ [⟨flow, ord, pva, bs⟩] } })
  | _ => .ok s

/-- The 64-byte granules of an agent's own scratchpad that `n` bytes of a target take. -/
def Agent.ownGranules (ag : Agent) (t : Target) (n : Nat) : List Nat :=
  match t with
  | .scratch core off => if ag.core? = some core then granules64 (scratchKey core off) n else []
  | _ => []

/-- The stores of one instruction, each with its target and its address: none is made while another has to wait (R139, R152, R153). -/
def State.storeAll (s : State) (ag : Agent) (parts : List (Target × Nat × List Byte)) : Try State :=
  match parts.findSome? (fun p => s.storeWait ag p.1 p.2.1 p.2.2.length) with
  | some w => .error w
  | none =>
    (s.undoRoom ag (parts.flatMap (fun p => ag.ownGranules p.1 p.2.2.length))).bind fun s =>
      parts.foldlM (init := s) fun s p => s.storeHere ag p.1 p.2.1 p.2.2

/-- Stores bytes at one target. -/
def State.storeAt (s : State) (ag : Agent) (t : Target) (va : Nat) (bs : List Byte) : Try State :=
  match s.storeWait ag t va bs.length with
  | some w => .error w
  | none => s.storeHere ag t va bs

/-- Stores a run of bytes that may cross pages. -/
def State.storeRun (s : State) (ag : Agent) (t : Target) (va : Nat) (bs : List Byte) : Try State :=
  if bits va 63 48 < 0x80 && 1 < (pieces va bs.length).length then
    ((piecesLen va bs.length).foldlM (init := (([] : List (Target × Nat × List Byte)), bs)) fun x p =>
      (liftT (s.globalTarget ag p.1)).map fun (t, _) => (x.1 ++ [(t, p.1, x.2.take p.2)], x.2.drop p.2)).bind fun x => s.storeAll ag x.1
  else s.storeAt ag t va bs

end Sys2Proof.Machine
end

