-- ==== Sys2Proof/Machine/EventUnit.lean ====
section
/-!
DEFINITION. The column event unit: barriers, mutexes and event lines (R199 to R207). A load that waits puts its context into the Waiting
state; the unit answers it when it fires, grants or sets, and the load completes with that answer.
-/

namespace Sys2Proof.Machine

open Sys2Proof

/-- The unit answers a waiting context. -/
def State.answer (s : State) (code : Nat) (v : Nat) : State :=
  s.modCtx (Agent.ofCode code) (fun c => { c.wake with reply := some [v] })

/-- Puts a context into the Waiting state, clock-gated, with a reason (R18, R357). -/
def State.waitFor (s : State) (ag : Agent) (why : Nat) : State :=
  s.modCtx ag (fun c => { c with st := .waiting, why := why, held := true, asked := some evAsk, reply := none })

def State.evUnit (s : State) (col : Nat) : EvUnit := (s.col col).ev
def State.setEv (s : State) (col : Nat) (u : EvUnit) : State := s.modCol col (fun k => { k with ev := u })
def State.bar (s : State) (col b : Nat) : Barrier := look {} (s.evUnit col).bars b
def State.setBar (s : State) (col b : Nat) (x : Barrier) : State :=
  s.setEv col { s.evUnit col with bars := put b x (s.evUnit col).bars }

/-- A load waits in the unit, or stays Stalled while its 1,024 entries are taken (R200). -/
def State.evWait (s : State) (ag : Agent) (col : Nat) (w : EvWait) : State :=
  let u := s.evUnit col
  if 1024 ≤ u.waits.length then s.stallNow ag
  else (s.setEv col { u with waits := u.waits ++ [w] }).waitFor ag 1

/-- Releases the waiting requests that `p` picks, each with its answer. -/
def State.release (s : State) (col : Nat) (p : EvWait → Bool) (v : EvWait → Nat) : State :=
  let u := s.evUnit col
  let out := u.waits.filter p
  out.foldl (fun s w => s.answer w.ag (v w)) (s.setEv col { u with waits := u.waits.filter (fun w => !p w) })

/-! ## Barriers (R201 to R205) -/

/-- CFG keeps its defined bits. -/
def cfgMask : W64 := 0xC73F1F000000FFFF#64
def Barrier.count (b : Barrier) : Nat := bits b.cfg.toNat 15 0
/-- STAT (R201). -/
def Barrier.stat (b : Barrier) : W64 := n64 (b.gen * 2 ^ 32 + b.aborts * 2 ^ 24 + b.arr)
/-- The generation in which the next arrival counts (R202); the present one where count is 0 and generations have no size (DESIGN CHOICE, log 72). -/
def Barrier.ticket (b : Barrier) : Nat := if b.count = 0 then b.gen else (b.gen + b.arr / b.count) % 2 ^ 16

/-- The channel of chain messages between two columns. -/
def chainChan (src dst : Nat) : Nat := 2 ^ 37 + src * 512 + dst

/-- Fire (R203): the waiters of the generation are released, the next begins, and the children that sent their arrivals for it are
told. Where CFG has changed meanwhile and fewer than count have arrived, none are left (DESIGN CHOICE, log 72). -/
def State.fire (s : State) (col b : Nat) : State :=
  let x := s.bar col b
  let s := s.release col (fun w => w.kind = .arrive && w.n = b && w.ticket = x.gen) (fun w => w.ticket)
  let out := x.children.filter (fun c => c.2.2 = x.gen)
  let s := s.setBar col b { x with gen := (x.gen + 1) % 2 ^ 16, arr := x.arr - x.count, up := false,
                                   children := x.children.filter (fun c => c.2.2 ≠ x.gen) }
  out.foldl (init := s) fun s c => s.send { chan := chainChan col c.1, ev := ⟨.chainRelease, [s.nextMsg]⟩, words := [c.1, c.2.1] }

/-- The evaluation of R203. -/
def State.evaluate (s : State) (col b : Nat) : State :=
  let x := s.bar col b
  let cfg := x.cfg.toNat
  if bit cfg 63 && x.count ≠ 0 && x.count ≤ x.arr && x.pend = 0 && !x.up then
    if bit cfg 62 = false then s.fire col b
    else
      let dst := 64 * bits cfg 58 56 + bits cfg 53 48
      (s.setBar col b { x with up := true }).send
        { chan := chainChan col dst, ev := ⟨.chainArrival, [s.nextMsg]⟩, words := [dst, bits cfg 44 40, col, b] }
  else s

/-- An arrival is counted, modulo 2^16, the width of arr (DESIGN CHOICE, log 72), and the barrier evaluated. -/
def State.arrive (s : State) (col b : Nat) : State :=
  let x := s.bar col b
  (s.setBar col b { x with arr := (x.arr + 1) % 2 ^ 16 }).evaluate col b

/-- A kept ticket for an address, as generation and abort count (R202). -/
def Regs.keptTicket (r : Regs) (a : Nat) : Option (Nat × Nat) :=
  match r.ticket with
  | some (g, k, a') => if a' = a then some (g, k) else none
  | none => none

/-- What a context that holds a ticket finds at the barrier (R202). -/
def Barrier.ticketDone (x : Barrier) (g k : Nat) : Option Nat :=
  let d := (x.gen + 2 ^ 16 - g) % 2 ^ 16
  if 1 ≤ d ∧ d ≤ 2 ^ 15 then some g
  else if x.aborts ≠ k then some (2 ^ 63 + g)
  else none

/-- ARRIVE as a load (R202): a fresh arrival is counted once and leaves its ticket with the context; the load completes when the
generation of its ticket has fired or an abort has released it, and waits otherwise. -/
def State.arriveLoad (s : State) (ag : Agent) (col b a : Nat) : Try (State × W64) :=
  let held := (s.regs ag).keptTicket a
  let x := s.bar col b
  let (s, g, k) := match held with
    | some (g, k) => (s, g, k)
    | none => ((s.modR ag (fun r => { r with ticket := some (x.ticket, x.aborts, a) })).arrive col b, x.ticket, x.aborts)
  match (s.bar col b).ticketDone g k with
  | some v => .ok (s.modR ag (fun r => { r with ticket := none }), n64 v)
  | none => .error (.later (s.evWait ag col { ag := ag.code, kind := .arrive, n := b, ticket := g }))

/-- An abort (R204). -/
def State.abortBar (s : State) (col b : Nat) : State :=
  let x := s.bar col b
  (s.setBar col b { x with arr := 0, pend := 0, up := false, aborts := (x.aborts + 1) % 256, children := [] }).release col
    (fun w => w.kind = .arrive && w.n = b) (fun w => 2 ^ 63 + w.ticket)

/-- PEND changes by a signed amount, and the barrier is evaluated (R199, R205). -/
def State.addPend (s : State) (col b : Nat) (v : BitVec 56) : State :=
  let x := s.bar col b
  (s.setBar col b { x with pend := x.pend + v }).evaluate col b

/-- A write of CFG, and the evaluation. -/
def State.writeCfg (s : State) (col b : Nat) (v : W64) : State :=
  (s.setBar col b { s.bar col b with cfg := v &&& cfgMask }).evaluate col b

/-! ## Mutexes and event lines (R206, R207) -/

def State.owner (s : State) (col m : Nat) : Option Nat :=
  ((s.evUnit col).owners.find? (fun e => e.1 = m)).map (·.2)
def State.setOwner (s : State) (col m : Nat) (o : Option Nat) : State :=
  let u := s.evUnit col
  s.setEv col { u with owners := match o with | some c => put m c u.owners | none => del m u.owners }

/-- LOCK as a load. -/
def State.lock (s : State) (ag : Agent) (col m : Nat) : Try (State × W64) :=
  match s.owner col m with
  | none => .ok (s.setOwner col m (some ag.code), 0)
  | some o => if o = ag.code then .ok (s, 2) else .error (.later (s.evWait ag col { ag := ag.code, kind := .lock, n := m }))

/-- TRY. -/
def State.tryLock (s : State) (ag : Agent) (col m : Nat) : State × W64 :=
  match s.owner col m with
  | none => (s.setOwner col m (some ag.code), 0)
  | some o => (s, if o = ag.code then 2 else 1)

/-- Hands a mutex to its oldest waiter, or frees it. -/
def State.handOver (s : State) (col m : Nat) : State :=
  let u := s.evUnit col
  match u.waits.find? (fun w => w.kind = .lock && w.n = m) with
  | some w => ((s.setEv col { u with waits := u.waits.erase w }).setOwner col m (some w.ag)).answer w.ag 0
  | none => s.setOwner col m none

/-- LOCK as a store, a release: a release by another party at user level is ignored, with a record (R206, R429). -/
def State.unlock (s : State) (ag : Agent) (col m : Nat) : State :=
  let mine : Bool := s.owner col m = some ag.code
  match ag with
  | .ctx core n =>
    if mine || (s.ctx ag).lvl = .sup then s.handOver col m
    else s.record { dom := (s.regs ag).dom.toNat, src := 1, sub := 5, ctx := n, loc := coreId core, core := some core,
                    addr := 0xFF81 * 2 ^ 48 + col * 2 ^ 12 + 0x400 + 16 * m, pc := (s.regs ag).pc.toNat }
  | _ => s.handOver col m

/-- WAIT. -/
def State.waitLine (s : State) (ag : Agent) (col e : Nat) : Try (State × W64) :=
  if (s.evUnit col).lines.contains e then .ok (s, 1)
  else .error (.later (s.evWait ag col { ag := ag.code, kind := .wait, n := e }))

/-- TAKE. -/
def State.takeLine (s : State) (ag : Agent) (col e : Nat) : Try (State × W64) :=
  let u := s.evUnit col
  if u.lines.contains e then .ok (s.setEv col { u with lines := u.lines.filter (· ≠ e) }, 1)
  else .error (.later (s.evWait ag col { ag := ag.code, kind := .take, n := e }))

/-- A set releases every WAIT waiter, then the oldest TAKE waiter, which clears the line. -/
def State.setLine (s : State) (col e : Nat) : State :=
  let s := s.release col (fun w => w.kind = .wait && w.n = e) (fun _ => 1)
  let u := s.evUnit col
  match u.waits.find? (fun w => w.kind = .take && w.n = e) with
  | some w => (s.setEv col { u with waits := u.waits.erase w, lines := u.lines.filter (· ≠ e) }).answer w.ag 1
  | none => s.setEv col { u with lines := addAll u.lines [e] }

/-- LINE as a store. -/
def State.writeLine (s : State) (col e : Nat) (v : W64) : State :=
  if v.getLsbD 0 then s.setLine col e
  else let u := s.evUnit col; s.setEv col { u with lines := u.lines.filter (· ≠ e) }

/-! ## The event page (R199) -/

/-- The registers of an event page. -/
inductive EvReg where
  | arrive (b : Nat) | cfg (b : Nat) | pend (b : Nat) | stat (b : Nat)
  | lock (m : Nat) | try_ (m : Nat) | wait (e : Nat) | line (e : Nat) | take (e : Nat)
deriving DecidableEq, Repr

/-- The register at an offset of the page. -/
def evReg (off : Nat) : Option EvReg :=
  if off % 8 ≠ 0 then none
  else if off < 0x400 then
    some (match off % 32 / 8 with | 0 => .arrive (off / 32) | 1 => .cfg (off / 32) | 2 => .pend (off / 32) | _ => .stat (off / 32))
  else if off < 0x500 then some (if off % 16 = 0 then .lock ((off - 0x400) / 16) else .try_ ((off - 0x400) / 16))
  else if 0x600 ≤ off ∧ off < 0x800 then some (.wait ((off - 0x600) / 8))
  else if 0x800 ≤ off ∧ off < 0xA00 then some (.line ((off - 0x800) / 8))
  else if 0xA00 ≤ off ∧ off < 0xC00 then some (.take ((off - 0xA00) / 8))
  else none

/-- A load from an event page. -/
def State.eventLoad (s : State) (ag : Agent) (col off va : Nat) : Try (State × W64) :=
  match evReg off with
  | none => .error (.trap (trapAt cBOUNDS va))
  | some (.arrive b) => s.arriveLoad ag col b (col * 2 ^ 12 + off)
  | some (.cfg b) => .ok (s, (s.bar col b).cfg)
  | some (.pend b) => .ok (s, (s.bar col b).pend.signExtend 64)
  | some (.stat b) => .ok (s, (s.bar col b).stat)
  | some (.lock m) => s.lock ag col m
  | some (.try_ m) => .ok (s.tryLock ag col m)
  | some (.wait e) => s.waitLine ag col e
  | some (.line e) => .ok (s, if (s.evUnit col).lines.contains e then 1 else 0)
  | some (.take e) => s.takeLine ag col e

/-- A store to an event page. -/
def State.eventStore (s : State) (ag : Agent) (col off va : Nat) (v : W64) : Try State :=
  match evReg off with
  | some (.arrive b) => .ok (s.arrive col b)
  | some (.cfg b) => .ok (s.writeCfg col b v)
  | some (.pend b) => .ok (s.addPend col b (v.truncate 56))
  | some (.stat b) => .ok (if v.getLsbD 0 then s.abortBar col b else s)
  | some (.lock m) => .ok (s.unlock ag col m)
  | some (.line e) => .ok (s.writeLine col e v)
  | _ => .error (.trap (trapAt cBOUNDS va))

/-! ## The happenings

A load or store of an event page acts on the unit when it executes; the same steps, for an agent (operand 0) and an address (operand 1),
are the meanings of the rows that name them. A load's answer is left for its context. -/

/-- Column of an event-window address. -/
def evCol (va : Nat) : Nat := 64 * bits va 20 18 + bits va 17 12

/-- An event-page load of a kind reaches its unit. -/
def evLoadStep (s : State) (p : EvReg → Bool) : Host.Outcome State Fault Refusal :=
  let ag := Agent.ofCode (s.arg 0)
  let va := s.arg 1
  if ((evReg (bits va 11 0)).map p).getD false then
    match s.eventLoad ag (evCol va) (bits va 11 0) va with
    | .ok (s, v) => happen (s.answer ag.code v.toNat)
    | .error (.later s) => happen s
    | .error _ => happen s
  else happen s

/-- An event-page store of a kind reaches its unit. -/
def evStoreStep (s : State) (p : EvReg → Bool) : Host.Outcome State Fault Refusal :=
  let va := s.arg 1
  if ((evReg (bits va 11 0)).map p).getD false then
    match s.eventStore (Agent.ofCode (s.arg 0)) (evCol va) (bits va 11 0) va (n64 (s.arg 2)) with
    | .ok s => happen s
    | .error _ => happen s
  else happen s

/-- ARRIVE_LOAD: agent, address. -/
def execArriveLoad (s : State) := evLoadStep s (fun | .arrive _ => true | _ => false)
/-- ARRIVE_STORE: agent, address. -/
def execArriveStore (s : State) := evStoreStep s (fun | .arrive _ => true | _ => false)
/-- BARRIER_CFG_WRITE: agent, address, value. -/
def execBarrierCfgWrite (s : State) := evStoreStep s (fun | .cfg _ => true | _ => false)
/-- PEND_WRITE: agent, address, value. -/
def execPendWrite (s : State) := evStoreStep s (fun | .pend _ => true | _ => false)
/-- BARRIER_ABORT: agent, address: a store of STAT with bit 0 set. -/
def execBarrierAbort (s : State) : Host.Outcome State Fault Refusal :=
  let va := s.arg 1
  match evReg (bits va 11 0) with
  | some (.stat b) => happen (s.abortBar (evCol va) b)
  | _ => happen s
/-- LOCK: agent, address. -/
def execLock (s : State) := evLoadStep s (fun | .lock _ => true | _ => false)
/-- LOCK_RELEASE: agent, address, value. -/
def execLockRelease (s : State) := evStoreStep s (fun | .lock _ => true | _ => false)
/-- TRY: agent, address. -/
def execTryLock (s : State) := evLoadStep s (fun | .try_ _ => true | _ => false)
/-- WAIT: agent, address. -/
def execWait (s : State) := evLoadStep s (fun | .wait _ => true | _ => false)
/-- LINE_WRITE: agent, address, value. -/
def execLineWrite (s : State) := evStoreStep s (fun | .line _ => true | _ => false)
/-- TAKE: agent, address. -/
def execTake (s : State) := evLoadStep s (fun | .take _ => true | _ => false)

/-- CHAIN_ARRIVAL: message. It counts as one arrival at the parent, which notes the child and its generation (R203). -/
def execChainArrival (s : State) : Host.Outcome State Fault Refusal :=
  match s.msg? (s.arg 0) with
  | none => happen s
  | some m =>
    let s := s.drop (s.arg 0)
    let w (k : Nat) := m.words.getD k 0
    let x := s.bar (w 0) (w 1)
    happen ((s.setBar (w 0) (w 1) { x with children := x.children ++ [(w 2, w 3, x.ticket)] }).arrive (w 0) (w 1))

/-- CHAIN_RELEASE: message. A child that is up fires; any other ignores it (R203, R204). -/
def execChainRelease (s : State) : Host.Outcome State Fault Refusal :=
  match s.msg? (s.arg 0) with
  | none => happen s
  | some m =>
    let s := s.drop (s.arg 0)
    let w (k : Nat) := m.words.getD k 0
    if (s.bar (w 0) (w 1)).up then happen (s.fire (w 0) (w 1)) else happen s

end Sys2Proof.Machine
end

