-- ==== Sys2Proof/Machine/Messages.lean ====
section
/-!
DEFINITION. The inbox, register messages, writes with enqueue, couriers and waystation messages (R26, R27, R171 to R184).
-/

namespace Sys2Proof.Machine

open Sys2Proof

/-! ## The inbox (R171 to R174) -/

/-- Status codes of a completion (R172). -/
def stFULL : Nat := 0x80
def stNOTLIVE : Nat := 0x81
def stPRESENT : Nat := 0x82
def stSAVED : Nat := 0x83
def stNOHANDLER : Nat := 0x84

/-- An inbox header (R172); `id` is the sending core in the form of core.id. -/
def header (kind status tag len sctx id : Nat) : W64 :=
  n64 (kind % 256 * 2 ^ 56 + status % 256 * 2 ^ 48 + tag % 2 ^ 16 * 2 ^ 32 + len % 512 * 2 ^ 22 + sctx % 4 * 2 ^ 20 + id % 2 ^ 19)

/-- Entries of the inbox in use or reserved. -/
def Core.inboxUsed (c : Core) : Nat := c.inbox.length + c.reserved

/-- Places an entry tagged for a context; INBOX is raised while its uie.inbox is 1 (R177). -/
def State.enqueue (s : State) (core n : Nat) (h p : W64) : State :=
  let s := s.modCore core (fun c => { c with inbox := c.inbox ++ [⟨n, h, p⟩] })
  if bit (s.regs (.ctx core n)).uie.toNat 33 then s.raise (.ctx core n) cINBOX 0 else s

/-- Frees a reservation without use. -/
def State.unreserve (s : State) (core : Nat) : State := s.modCore core (fun c => { c with reserved := c.reserved - 1 })
/-- A completion takes its reserved entry. -/
def State.enqueueReserved (s : State) (core n : Nat) (h p : W64) : State := (s.unreserve core).enqueue core n h p
/-- Reserves an entry for the issuer, or stalls it until one is free (R174). -/
def State.reserve (s : State) (ag : Agent) : Try State :=
  match ag with
  | .ctx core _ =>
    if 64 ≤ (s.core core).inboxUsed then .error (.later (s.holdIssue ag))
    else .ok (s.modCore core (fun c => { c with reserved := c.reserved + 1 }))
  | _ => .ok s

/-- Sends a kind 0x02 completion back to the sender, or frees its reservation when there is nothing to report (R173, R174). -/
def State.complete (s : State) (src from_ status tag : Nat) (payload : W64) (report : Bool) : State :=
  match Agent.ofCode src with
  | .ctx core _ =>
    if report then
      s.send { chan := chanOf from_ core, ev := ⟨.senderCompletion, [s.nextMsg]⟩, src := src, words := [from_, status, tag, payload.toNat] }
    else s.unreserve core
  | _ => s

/-- SENDER_COMPLETION: message. Its entry carries the sending context and core itself (R172, R173). -/
def execSenderCompletion (s : State) : Host.Outcome State Fault Refusal :=
  match s.msg? (s.arg 0) with
  | none => happen s
  | some m =>
    let s := s.drop (s.arg 0)
    match Agent.ofCode m.src with
    | .ctx core n =>
      happen (s.enqueueReserved core n (header 2 (m.words.getD 1 0) (m.words.getD 2 0) 0 n (coreId core)) (n64 (m.words.getD 3 0)))
    | _ => happen s

/-- IBPOP (R175). -/
def execIbpop (d : Nat) (s : State) : Host.Outcome State Fault Refusal :=
  runWord (.ibpop d) { cls := some 14, single := true } (fun s ag =>
    match ag with
    | .ctx core n =>
      let c := s.core core
      match c.inbox.find? (fun e => e.ctx = n) with
      | none => .ok (s.modR ag (fun r => (r.setS d 0).setS (d + 1) 0), .fall)
      | some e =>
        .ok ((s.setCore core { c with inbox := c.inbox.erase e }).modR ag (fun r => (r.setS d e.header).setS (d + 1) e.payload), .fall)
    | _ => .ok (s, .fall)) s

/-- IBLEN (R176). -/
def execIblen (d : Nat) (s : State) : Host.Outcome State Fault Refusal :=
  runWord (.iblen d) { cls := some 0 } (fun s ag =>
    match ag with
    | .ctx core n =>
      let c := s.core core
      .ok (s.modR ag (·.setS d (n64 ((c.inbox.filter (fun e => e.ctx = n)).length + c.inboxUsed * 2 ^ 16))), .fall)
    | _ => .ok (s, .fall)) s

/-! ## Register messages (R178, R179) -/

/-- The context that a word of R179's layout names, resolved against a sender where `rel` allows it. -/
def target179 (w : Nat) (sender : Option Nat) : Option Nat :=
  match sender with
  | some core =>
    if bit w 23 then
      let st := (coreStack core : Int) + toSigned 3 (bits w 18 16)
      let y := (coreY core : Int) + toSigned 8 (bits w 15 8)
      let x := (coreX core : Int) + toSigned 8 (bits w 7 0)
      if onGrid st y x then some (coreOf st.toNat y.toNat x.toNat) else none
    else coreOfId w
  | none => coreOfId w

/-- SENDR (R179): the chunk ends, an entry is reserved, the message leaves. A target off the grid raises BOUNDS before the entry is reserved, so that it traps
where no entry is free too (DESIGN CHOICE, log 73). -/
def execSendr (d a b : Nat) (s : State) : Host.Outcome State Fault Refusal :=
  runWord (.sendr d a b) { cls := some 14, single := true, reads := [a, b] } (fun s ag =>
    let w := (s.regs ag).S a
    match ag with
    | .ctx core n =>
      match target179 w.toNat (some core) with
      | none => .error (.trap { cause := cBOUNDS, info := w })
      | some dst =>
        (s.reserve ag).map fun s =>
          (s.send { chan := chanOf core dst, ev := ⟨.sendrDelivery, [s.nextMsg]⟩, src := 4 * core + n,
                    words := [dst, bits w.toNat 21 20, d, ((s.regs ag).S b).toNat, bits w.toNat 47 32,
                              (if bit w.toNat 22 then 1 else 0), w.toNat, (s.regs ag).dom.toNat] }, .fall)
    | _ => .ok (s, .fall)) s

/-- SENDR.ARM (R178): the presence bit of the main register is cleared. -/
def execSendrArm (d : Nat) (s : State) : Host.Outcome State Fault Refusal :=
  runWord (.sendrArm d) { cls := some 14, single := true } (fun s ag =>
    .ok (s.modR ag (fun r => { r with absent := r.absent ||| BitVec.ofNat 32 (2 ^ d) }), .fall)) s

/-- A message fills a register of the main set: while a user handler runs, s24 to s31 of the main set stand aside (R178). -/
def Regs.fill (r : Regs) (d : Nat) (v : W64) : Regs :=
  let r := { r with absent := r.absent &&& ~~~(BitVec.ofNat 32 (2 ^ d)) }
  if r.act && 24 ≤ d then { r with shadow := put d v r.shadow } else { r with s := put d v r.s }

/-- SENDR_DELIVERY: message. The first row of R179's table that holds decides. -/
def execSendrDelivery (s : State) : Host.Outcome State Fault Refusal :=
  match s.msg? (s.arg 0) with
  | none => happen s
  | some m =>
    let s := s.drop (s.arg 0)
    let dst := m.words.getD 0 0
    let tgt := Agent.ctx dst (m.words.getD 1 0)
    let d := m.words.getD 2 0
    let tag := m.words.getD 4 0
    let pay := n64 (m.words.getD 6 0)
    let c := s.ctx tgt
    let refuse (st : Nat) := happen (s.complete m.src dst st tag pay true)
    if s.darkCols.contains (colOf dst) then refuse cDARK
    else if c.r.dom.toNat ≠ m.words.getD 7 0 then refuse cPROT
    else if c.st = .saved then refuse stSAVED
    else if c.st = .idle then refuse stNOTLIVE
    else if c.r.absent.getLsbD d = false then refuse stPRESENT
    else
      let s := s.devR tgt (fun r => r.fill d (n64 (m.words.getD 3 0)))
      let s := if c.st = .stalled && c.held && c.asked.isNone && !c.saving.isSome then s.wake tgt else s
      happen (s.complete m.src dst 0 tag pay (m.words.getD 5 0 = 1))

/-! ## Couriers (R26, R27, R183, R469) -/

/-- The lowest-numbered idle context of a core. -/
def State.idleCtx (s : State) (core : Nat) (from_ : Nat) : Option Nat :=
  ((List.range 4).filter (fun n => from_ ≤ n)).find? (fun n => (s.ctx (.ctx core n)).free && !(n = 0 && (s.core core).mark))

/-- Starts work on a context in the launch state (R28). The count of a request for pre-emption that is pending still runs on (R36, R370). -/
def State.launch (s : State) (core n : Nat) (pc x y rank dom : W64) : State :=
  let ag := Agent.ctx core n
  (s.modCtx ag (fun c => c.launch pc x y rank)).modR ag (fun r => { r with dom := dom })

/-- Reports a courier's fate: to the sending context, or as an entry of the host port's completion ring (R26, R183, R469). -/
def State.courierDone (s : State) (c : Courier) (core status : Nat) : State :=
  if c.src < 401408 then s.complete c.src core status c.tag c.payload (status ≠ 0 || c.ack)
  else
    let port := c.src - 2 ^ 20
    let p := look {} s.ports port
    let cptr := p.cptr.toNat
    let size := bits cptr 63 48
    let wr := bits cptr 47 32
    if size = 0 || (wr + 1) % size = bits cptr 15 0 then s
    else
      let s := s.writeBytes (hostKey ((bits p.cring.toNat 63 4 * 16 + 16 * wr) % 2 ^ 64))
        (leBytes 8 (c.tag * 2 ^ 48 + status) ++ leBytes 8 c.payload.toNat)
      { s with ports := put port { p with cptr := n64 (size * 2 ^ 48 + (wr + 1) % size * 2 ^ 32 + bits cptr 31 0) } s.ports }

/-- A courier reaches its core: it starts the lowest idle context, waits in the slot, or is refused (R26, R435). -/
def State.courierArrives (s : State) (core : Nat) (c : Courier) : State :=
  if s.darkCols.contains (colOf core) then s.courierDone c core cDARK
  else if (s.core core).courier.isSome then s.courierDone c core stFULL
  else
    match s.idleCtx core 0 with
    | some n => (s.launch core n c.pc c.x c.y 0 (n64 c.dom)).courierDone c core 0
    | none => s.modCore core (fun k => { k with courier := some c })

/-- The waiting courier takes the lowest idle context (R27). -/
def State.slotStart (s : State) (core : Nat) : State :=
  match (s.core core).courier, s.idleCtx core 0 with
  | some c, some n =>
    ((s.modCore core (fun k => { k with courier := none })).launch core n c.pc c.x c.y 0 (n64 c.dom)).courierDone c core 0
  | _, _ => s

/-- COURIER_ARRIVAL: message. -/
def execCourierArrival (s : State) : Host.Outcome State Fault Refusal :=
  match s.msg? (s.arg 0) with
  | none => happen s
  | some m =>
    let w (k : Nat) := m.words.getD k 0
    happen ((s.drop (s.arg 0)).courierArrives (w 0)
      { pc := n64 (w 1), x := n64 (w 2), y := n64 (w 3), src := m.src, ack := w 4 = 1, tag := w 5, payload := n64 (w 6), dom := w 7 })

/-- COURIER_SLOT_START: core. -/
def execCourierSlotStart (s : State) : Host.Outcome State Fault Refusal := happen (s.slotStart (s.arg 0))

/-! ## Write with enqueue (R181, R182) -/

/-- Whether a delivery into a scratchpad must wait: a priority chunk of its core has read or written the granule (R213). -/
def State.holdDelivery (s : State) (key n : Nat) : Bool := s.reserved (.ws 0) (granules key n)

/-- PUTQ_ARRIVAL: message. Every destination byte and the free entry are checked before anything is written (R182). -/
def execPutqArrival (s : State) : Host.Outcome State Fault Refusal :=
  match s.msg? (s.arg 0) with
  | none => happen s
  | some m =>
    let w (k : Nat) := m.words.getD k 0
    let core := w 0
    let off := w 1
    let va := absolute 0x80 core off
    let n := m.bytes.length
    if s.holdDelivery (scratchKey core off) n then happen s else
    let s := s.drop (s.arg 0)
    let sender := match Agent.ofCode m.src with | .ctx c _ => c | _ => 0
    let bad : Option Nat := match s.landing (.ctx core 0) va n (some core) with
      | .error t => some t.cause
      | .ok _ => none
    match bad with
    | some cause =>
      happen ((s.record { dom := s.supDomOf core, src := 1, sub := 3, cause := cause, loc := coreId core, addr := va,
                          w4 := coreId sender, core := some core }).complete m.src core cause (w 4) (n64 (w 6)) true)
    | none =>
      if 64 ≤ (s.core core).inboxUsed then happen (s.complete m.src core stFULL (w 4) (n64 (w 6)) true)
      else
        let s := s.devWrite none (.scratch core off) va m.bytes
        let s := s.enqueue core (w 2) (header 1 0 (w 4) (n - 1) (m.src % 4) (coreId sender)) (n64 (w 6))
        happen (s.complete m.src core 0 (w 4) (n64 (w 6)) (w 5 = 1))

/-! ## Waystation messages (R184) -/

/-- WSMSG: the words S(b) and S(d) go to the home slice of the Global address S(a). Of the types that R184 accepts, an MMIO page of the partition block of another
partition raises PROT, as every access to it does (R424; DESIGN CHOICE, log 73). -/
def execWsmsg (d a b : Nat) (s : State) : Host.Outcome State Fault Refusal :=
  runWord (.wsmsg d a b) { cls := some 14, single := true, reads := [d, a, b] } (fun s ag =>
    let r := s.regs ag
    let va := (r.S a).toNat
    match ag with
    | .ctx core n =>
      (liftT (s.check ag va 1 rdR (peer := false))).bind fun t =>
      if 0x80 ≤ bits va 63 48 then .error (.trap (trapAt cPAGE va)) else
      let slice := match t with
        | .mem k _ _ => k
        | _ => match s.leafFor ag va with
          | .ok l => homeSlice l.stack va
          | .error _ => homeSlice ag.stack va
      (s.reserve ag).map fun s =>
        (s.send { chan := 2 ^ 36 + chanOf core slice, ev := ⟨.wsmsgArrival, [s.nextMsg]⟩, src := 4 * core + n,
                  words := [slice, va, (r.S b).toNat, (r.S d).toNat, r.dom.toNat] }, .fall)
    | _ => .ok (s, .fall)) s

/-- WSMSG_ARRIVAL: message. Only a refusal makes a completion (R184, R330). -/
def execWsmsgArrival (s : State) : Host.Outcome State Fault Refusal :=
  match s.msg? (s.arg 0) with
  | none => happen s
  | some m =>
    let s := s.drop (s.arg 0)
    let w (k : Nat) := m.words.getD k 0
    let core := m.src / 4
    let (s, found, taken) := s.raiseWs (w 0)
      { kind := 3, entry := 0, va := w 1, w3 := n64 (w 2), w4 := n64 (w 3), dom := w 4, req := m.src % 4 * 2 ^ 20 + coreId core }
    happen (if !found then s.complete m.src core stNOHANDLER 0 (n64 (w 1)) true
            else if !taken then s.complete m.src core stFULL 0 (n64 (w 1)) true
            else s.complete m.src core 0 0 (n64 (w 1)) false)

end Sys2Proof.Machine
end

