-- ==== Sys2Proof/Machine/Context.lean ====
section
/-!
DEFINITION. Context control, the trapping instructions, fences, WFI and the PLB instructions (R137, R159 to R163, R169, R365 to R368,
R382 to R384).
-/

namespace Sys2Proof.Machine

open Sys2Proof

/-- ILLEGAL of an instruction. -/
def illegal (i : Instr) : Trap := { cause := cILLEGAL, info := n64 (insWord i) }

/-- The registers after an instruction completes in order: the next pc with LoopCheck (R113). -/
def Regs.fallThrough (r : Regs) (i : Instr) : Regs :=
  let x := r.loopCheck (r.pc + n64 i.size)
  { x.1 with pc := x.2 }

/-- START (R160). -/
def execStart (a b c : Nat) (s : State) : Host.Outcome State Fault Refusal :=
  runWord (.start a b c) { cls := some 14, single := true, reads := [a, b, c] } (fun s ag =>
    let r := s.regs ag
    match ag with
    | .ctx core 0 =>
      if (r.S a).getLsbD 0 then .error (.trap { cause := cALIGN, info := r.S a, addr := true }) else
      let s := s.slotStart core
      match s.idleCtx core 1 with
      | none => .ok (s.modR ag (·.setS c 0), .fall)
      | some h => .ok ((s.launch core h (r.S a) (r.S b) (r.S c) 0 r.dom).modR ag (·.setS c (n64 h)), .fall)
    | _ => .error (.trap (illegal (.start a b c)))) s

/-- YIELD gives up its issue slot: the context counts as the last to have issued (R162). -/
def execYield (s : State) : Host.Outcome State Fault Refusal :=
  runWord .yield { cls := some 0 } (fun s ag =>
    match ag with
    | .ctx core n => .ok (s.modCore core (fun k => { k with last := n }), .fall)
    | _ => .ok (s, .fall)) s

/-- JOIN waits until every helper that S(a)<3:1> names is idle (R163). -/
def execJoin (a : Nat) (s : State) : Host.Outcome State Fault Refusal :=
  runWord (.join a) { cls := some 14, single := true, reads := [a] } (fun s ag =>
    match ag with
    | .ctx core 0 =>
      if [1, 2, 3].all (fun n => !((s.regs ag).S a).getLsbD n || (s.ctx (.ctx core n)).st = .idle) then .ok (s, .fall)
      else .error (.later (s.modCtx ag (fun c => { c with st := .waiting, why := 4, held := true })))
    | _ => .error (.trap (illegal (.join a)))) s

/-- URET (R169). -/
def execUret (s : State) : Host.Outcome State Fault Refusal :=
  runWord .uret { cls := some 1, single := true } (fun s ag =>
    if !(s.regs ag).tpend.isEmpty then .error (.later (s.holdIssue ag))
    else if (s.regs ag).act then
      .ok ((s.modR ag Regs.userReturn).modCtx ag (fun c => { c with inThrottle := false }), .done)
    else .error (.trap (illegal .uret))) s

/-- TRAP raises SYSCALL (R366). -/
def execTrap (i : Nat) (s : State) : Host.Outcome State Fault Refusal :=
  runWord (.trap i) { cls := none } (fun _ _ => .error (.trap { cause := cSYSCALL, info := n64 i })) s

/-- BRK raises BRK (R366). -/
def execBrk (i : Nat) (s : State) : Host.Outcome State Fault Refusal :=
  runWord (.brk i) { cls := none } (fun _ _ => .error (.trap { cause := cBRK, info := n64 i })) s

/-- C.BRK raises BRK with bit 16 of the info set (R366). -/
def execCBrk (s : State) : Host.Outcome State Fault Refusal :=
  runWord .cBrk { cls := none } (fun _ _ => .error (.trap { cause := cBRK, info := n64 (2 ^ 16) })) s

/-- WFI (R368). While `why` stays 5 the context takes no cause before WFI has completed. -/
def execWfi (s : State) : Host.Outcome State Fault Refusal :=
  runWord .wfi { cls := some 0, single := true, priv := true } (fun s ag =>
    if (s.ctx ag).pend.isEmpty then
      .error (.later (s.modCtx ag (fun c => { c with st := .waiting, why := 5, held := true })))
    else .ok (s.modCtx ag (fun c => { c with why := 0 }), .fall)) s

/-- IFENCE discards the core's instruction cache (R137, R222). -/
def execIfence (s : State) : Host.Outcome State Fault Refusal :=
  runWord .ifence { cls := some 0, single := true } (fun s ag =>
    match ag with
    | .ctx core _ => .ok (s.modCore core (fun k => { k with icache := [] }), .fall)
    | _ => .ok (s, .fall)) s

/-- CHUNK ends the chunk. -/
def execChunk (s : State) : Host.Outcome State Fault Refusal :=
  runWord .chunk { cls := some 0, single := true } (fun s _ => .ok (s, .fall)) s

/-- FENCE.S waits, Stalled, until every remote scratchpad store of the context has been acknowledged (R137). -/
def execFenceS (s : State) : Host.Outcome State Fault Refusal :=
  runWord .fenceS { cls := some 0, single := true } (fun s ag =>
    if (s.ctx ag).unackedScratch = 0 then .ok (s, .fall) else .error (.later (s.stallHeld ag))) s

/-- FENCE.F waits until every PEER store and atomic has been acknowledged, then raises FLOW for the lowest marked flow and clears
every mark (R137, R475). -/
def execFenceF (s : State) : Host.Outcome State Fault Refusal :=
  runWord .fenceF { cls := some 0, single := true } (fun s ag =>
    let c := s.ctx ag
    if !c.unackedPeer.isEmpty then .error (.later (s.stallHeld ag))
    else
      match c.flowMarks with
      | [] => .ok (s, .fall)
      | m :: ms =>
        let low := ms.foldl (fun x y => if y.1 < x.1 then y else x) m
        .error (.trapIn (s.modCtx ag (fun c => { c with flowMarks := [] }))
          { cause := cFLOW, info := n64 (low.2 * 2 ^ 8 + low.1) })) s

/-- PLBW writes one entry (R383). -/
def execPlbw (a b : Nat) (s : State) : Host.Outcome State Fault Refusal :=
  runWord (.plbw a b) { cls := some 0, single := true, priv := true, reads := [a, b] } (fun s ag =>
    let x := ((s.regs ag).S a).toNat
    let y := ((s.regs ag).S b).toNat
    let sz := bits x 5 0
    if bits x 63 56 ≠ 0 ∨ bits x 15 6 ≠ 0 ∨ sz < 16 ∨ 56 < sz ∨ bits x 55 16 * 2 ^ 16 % 2 ^ sz ≠ 0 ∨
       bits y 47 46 ≠ 0 ∨ bits y 39 8 ≠ 0 ∨ bits y 6 5 ≠ 0 then
      .error (.trap { cause := cBOUNDS, info := n64 a })
    else
      match ag with
      | .ctx core _ =>
        let e : PlbEntry := { base := bits x 55 16 * 2 ^ 16, sz := sz, dom := bits y 63 48, v := bit y 7,
                              e := bit y 4, at_ := bit y 3, x := bit y 2, w := bit y 1, r := bit y 0 }
        .ok (s.modCore core (fun k => { k with plb := put (bits y 45 40) e k.plb }), .fall)
      | _ => .ok (s, .fall)) s

/-- PLBINV invalidates the entries of a domain, or all (R384). -/
def execPlbinv (a : Nat) (s : State) : Host.Outcome State Fault Refusal :=
  runWord (.plbinv a) { cls := some 0, single := true, priv := true, reads := [a] } (fun s ag =>
    let x := ((s.regs ag).S a).toNat
    match ag with
    | .ctx core _ =>
      .ok (s.modCore core (fun k => { k with plb := k.plb.map (fun (i, e) =>
        (i, if bit x 0 || e.dom = bits x 63 48 then { e with v := false } else e)) }), .fall)
    | _ => .ok (s, .fall)) s

end Sys2Proof.Machine
end

