-- ==== Sys2Proof/Machine/Engine.lean ====
section
/-!
DEFINITION. The copy engine (R188 to R198, R218): its commands, their acceptance, pieces and completions.
-/

namespace Sys2Proof.Machine

open Sys2Proof

/-! ## Slots -/

def State.engSlot (s : State) (ag : Agent) (k : Nat) : EngSlot := look {} (s.ctx ag).slots k
def State.setEng (s : State) (ag : Agent) (k : Nat) (x : EngSlot) : State :=
  s.modCtx ag (fun c => { c with slots := put k x c.slots })

/-- ENGINE with a code (R192). -/
def engTrap (code slot : Nat) : Trap := { cause := cENGINE, info := n64 (code * 2 ^ 8 + slot) }

def EngSlot.len (x : EngSlot) : Nat := bits (x.ox.getD 0 0).toNat 31 0
def EngSlot.rows (x : EngSlot) : Nat := bits (x.ox.getD 0 0).toNat 63 32
def EngSlot.arm (x : EngSlot) : Nat := if x.op ≤ 1 then (x.ox.getD 1 0).toNat else 0
def EngSlot.cnt (x : EngSlot) : Nat := bits x.wb.toNat 21 16 + 1
def EngSlot.esz (x : EngSlot) : Nat := 2 ^ bits x.wb.toNat 15 12
def EngSlot.tag (x : EngSlot) : Nat := bits x.wb.toNat 47 32

/-- An element of an operation as it stands at its source. -/
def EngSlot.srcFmt (x : EngSlot) : Option EFmt := x.conv.bind (fun c => bankFmt c.1)
def EngSlot.dstFmt (x : EngSlot) : Option EFmt := x.conv.bind (fun c => bankFmt c.2)
/-- Bytes of a source element, and of a destination element (u and u' of R193). -/
def EngSlot.u (x : EngSlot) : Nat := (x.srcFmt.map EFmt.groupBytes).getD 1
/-- Lays the pieces out (R193). -/
def EngSlot.lay (x : EngSlot) : EngSlot :=
  let (n, unit) := match x.op with
    | 0 =>
      if x.len = 0 then (0, 1) else
      let P := 256 * x.u * ((x.len + 16384 * x.u - 1) / (16384 * x.u))
      ((x.len + P - 1) / P, P)
    | 1 =>
      if x.rows = 0 ∨ x.len = 0 then (0, 1) else
      let Q := (x.rows + 63) / 64
      ((x.rows + Q - 1) / Q, Q)
    | _ => (x.cnt, 1)
  { x with pieces := n, unit := unit, laid := true, bitmap := 2 ^ 64 - 2 ^ n }

/-- Notes the acceptance of a command: the engine of a core accepts commands one at a time, in issue order (R194). -/
def State.toEngine (s : State) (core : Nat) (ag : Agent) (k : Nat) : State :=
  s.send { chan := 2 ^ 80 + core, ev := ⟨.engineAccept, [ag.code, k]⟩ }

/-- Issue of CPY, CPY2D, GATH or SCAT (R189, R192). Until its acceptance decides over the pieces they stand as those of an operation that does not convert
(R198; DESIGN CHOICE, log 31). -/
def engineIssue (i : Instr) (op d a b nox : Nat) : State → Host.Outcome State Fault Refusal :=
  runWord i { cls := some 14, single := true, reads := [d, a, b] } (fun s ag =>
    let r := s.regs ag
    match ag with
    | .ctx core _ =>
      let k := bits (r.S b).toNat 2 0
      let y : EngSlot := { st := .running, op := op, wd := r.S d, wa := r.S a, wb := r.S b,
                           ox := (List.range nox).map r.OX, dom := r.dom.toNat }
      let x : EngSlot := { y.lay with laid := false }
      let old := s.engSlot ag k
      if old.st = .running then .error (.later (s.holdIssue ag))
      else if old.st = .stopped then .error (.trap (engTrap 1 k))
      else if 2 ≤ op ∧ 8 < bits x.wb.toNat 15 12 then .error (.trap (engTrap 2 k))
      else if op = 1 ∧ 2 ^ 48 < x.rows * x.len then .error (.trap (engTrap 3 k))
      else if x.arm ≠ 0 ∧ (bits x.arm 63 48 ≠ 0xFF81 ∨ 0x400 ≤ bits x.arm 11 0 ∨ bits x.arm 11 0 % 32 ≠ 16) then
        .error (.trap (engTrap 4 k))
      else
        (if x.arm = 0 then .ok () else (liftT (s.check ag x.arm 8 wrR)).map (fun _ => ())).bind fun _ =>
        (s.reserve ag).map fun s => ((s.setEng ag k x).toEngine core ag k, .fall)
    | _ => .ok (s, .fall))

def execCpy (d a b : Nat) := engineIssue (.cpy d a b) 0 d a b 2
def execCpy2d (d a b : Nat) := engineIssue (.cpy2d d a b) 1 d a b 4
def execGath (d a b : Nat) := engineIssue (.gath d a b) 2 d a b 1
def execScat (d a b : Nat) := engineIssue (.scat d a b) 3 d a b 1

/-- The bitmap as ENGQ reads it: a piece that does not exist has its bit set. -/
def EngSlot.map (x : EngSlot) : Nat := x.bitmap ||| (2 ^ 64 - 2 ^ x.pieces)

/-- ENGQ (R198). -/
def execEngq (d a : Nat) (s : State) : Host.Outcome State Fault Refusal :=
  runWord (.engq d a) { cls := some 0, reads := [a] } (fun s ag =>
    let w := ((s.regs ag).S a).toNat
    let k := bits w 2 0
    let x := s.engSlot ag k
    let v : Option W64 := match bits w 9 8 with
      | 0 => some (n64 x.map)
      | 1 => some (if x.st = .stopped then x.failAddr else 0)
      | 2 => some (n64 ((match x.st with | .idle => 0 | .running => 1 | .stopped => 2) + x.op * 2 ^ 3 + x.pieces * 2 ^ 8))
      | _ => none
    match v with
    | some v => .ok (s.modR ag (·.setS d v), .fall)
    | none => .error (.trap (engTrap 5 k))) s

/-- ENGRST (R198). -/
def execEngrst (d a : Nat) (s : State) : Host.Outcome State Fault Refusal :=
  runWord (.engrst d a) { cls := some 14, single := true, reads := [a] } (fun s ag =>
    let w := ((s.regs ag).S a).toNat
    let k := bits w 2 0
    let x := s.engSlot ag k
    match ag with
    | .ctx core _ =>
      if bits w 9 8 = 3 then .error (.trap (engTrap 5 k))
      else if x.st ≠ .stopped then .ok (s.modR ag (·.setS d 1), .fall)
      else if bit w 8 then .ok ((s.setEng ag k { x with st := .idle }).modR ag (·.setS d 2), .fall)
      else
        (s.reserve ag).map fun s =>
          (((s.setEng ag k { x with st := .running, todo := [], fails := [], flags := 0, skip := x.skip ||| ((s.regs ag).OX 0).toNat, peer := [] }).toEngine
            core ag k).modR ag (·.setS d 0), .fall)
    | _ => .ok (s, .fall)) s

/-! ## Acceptance (R193, R194) -/

/-- The bank format code of a scratchpad address as the issuing core resolves it; none where it is no scratchpad address. -/
def State.bankCode (s : State) (ag : Agent) (va : Nat) : Option Nat :=
  if bits va 63 48 = 0xFF80 then
    match addrCheck ag va 1 false with
    | .ok (some c) => some (look 0 (s.core c).bfmt (bits va 16 14))
    | _ => none
  else none

/-- The number of destination bytes that n source bytes become. -/
def EngSlot.out (x : EngSlot) (n : Nat) : Nat :=
  match x.srcFmt, x.dstFmt with
  | some f, some g => g.bytes (n / f.groupBytes * f.group)
  | _, _ => n

/-- An address displaced by a signed distance, modulo 2^64. -/
def disp (a : W64) (b : Int) : Nat := (a + w64 b).toNat

/-- The parts of a piece: source address, source bytes, destination address (R195). -/
def EngSlot.parts (x : EngSlot) (p : Nat) : List (Nat × Nat × Nat) :=
  match x.op with
  | 0 =>
    let o := p * x.unit
    [(disp x.wa o, min x.unit (x.len - o), disp x.wd (x.out o))]
  | 1 =>
    let r0 := p * x.unit
    (List.range (min x.unit (x.rows - r0))).map fun j =>
      let r : Int := (r0 + j : Nat)
      (disp x.wa (r * (x.ox.getD 2 0).toInt), x.len, disp x.wd (r * (x.ox.getD 3 0).toInt))
  | 2 =>
    let v := toSigned 32 (look 0 x.idx p).toNat
    [(disp x.wa (v * x.esz), x.esz, disp x.wd (p * x.out x.esz))]
  | _ =>
    let v := toSigned 32 (look 0 x.idx p).toNat
    [(disp x.wa (p * x.esz), x.esz, disp x.wd (v * x.out x.esz))]

/-- The reference bytes of an operation, before anything is known of its conversion (R194). Where the index of element 0 has not been read, since its read
failed or a save area that was loaded does not hold it, the reference byte is that of index 0 (DESIGN CHOICE, log 31). -/
def EngSlot.refs (x : EngSlot) : Nat × Nat :=
  match x.op with
  | 2 => (disp x.wa (toSigned 32 (look 0 x.idx 0).toNat * x.esz), x.wd.toNat)
  | 3 => (x.wa.toNat, disp x.wd (toSigned 32 (look 0 x.idx 0).toNat * x.esz))
  | _ => (x.wa.toNat, x.wd.toNat)

/-- Decides whether the operation converts (R194). -/
def State.engConv (s : State) (ag : Agent) (x : EngSlot) : Option (Nat × Nat) :=
  match s.bankCode ag x.refs.1, s.bankCode ag x.refs.2 with
  | some f, some g => if f ≠ 0 ∧ g ≠ 0 ∧ f ≠ g then some (f, g) else none
  | _, _ => none

/-- Whether a part of a converting operation keeps the rules: each side within one bank, of the reference format of that side, whole source
elements, whole blocks of an SX side, which starts at a block (R194, R46, R70; DEDUCED, log 31). -/
def State.partOk (s : State) (ag : Agent) (x : EngSlot) (part : Nat × Nat × Nat) : Bool :=
  let (sa, n, da) := part
  match x.conv, x.srcFmt, x.dstFmt with
  | some (f, g), some sf, some df =>
    let start (h : EFmt) (a : Nat) : Bool := h.group = 1 || a % h.align = 0
    n % sf.groupBytes = 0 && (n / sf.groupBytes * sf.group) % df.group = 0 &&
    s.bankCode ag sa = some f && sa % 2 ^ 14 + n ≤ 2 ^ 14 && start sf sa &&
    s.bankCode ag da = some g && da % 2 ^ 14 + x.out n ≤ 2 ^ 14 && start df da
  | _, _, _ => true

/-- One element of the index array: its value, or the cause and address of its failure (R194). -/
def State.engIndex (s : State) (core : Nat) (x : EngSlot) (i : Nat) : Except (Nat × W64) W64 :=
  let va := ((x.ox.getD 0 0) + n64 (4 * i)).toNat
  match s.devCheck (some (core, x.dom)) va 4 { r := true, e := true } with
  | .error t => .error (t.cause, t.info)
  | .ok t =>
    match t.key? with
    | some key => if s.bad (key / 64) then .error (cUE, n64 va) else .ok (n64 (leNat (s.devRead t 4)))
    | none => .error (cPAGE, n64 va)

/-- The lowest failed piece. -/
def lowestFail (l : List (Nat × Nat × W64)) : Option (Nat × Nat × W64) :=
  l.foldl (fun b e => match b with | some c => if e.1 < c.1 then some e else b | none => some e) none

/-- Every piece of the attempt has ended: the slot becomes idle or stopped, and the completion is enqueued (R196, R197). -/
def State.engEnd (s : State) (core n k : Nat) : State :=
  let ag := Agent.ctx core n
  let x := s.engSlot ag k
  let low := lowestFail x.fails
  let x' := match low with
    | none => { x with st := .idle, miss := 64, status := 0, failAddr := 0 }
    | some (p, cause, a) => { x with st := .stopped, miss := p, status := cause, failAddr := a }
  if x.mute then (s.setEng ag k { x' with mute := false }).unreserve core
  else (s.setEng ag k x').enqueueReserved core n (header 3 x'.status x.tag 0 n (coreId core))
    (n64 (x'.miss * 2 ^ 16 + x.flags * 2 ^ 8 + x.op * 2 ^ 3 + k))

/-- Refuses an operation whole (R194). -/
def State.engRefuse (s : State) (core n k : Nat) (x : EngSlot) (cause : Nat) (a : W64) : State :=
  (s.setEng (.ctx core n) k { x with todo := [], fails := [(0, cause, a)] }).engEnd core n k

/-- ENGINE_ACCEPT: agent, slot. -/
def execEngineAccept (s : State) : Host.Outcome State Fault Refusal :=
  let k := s.arg 1
  match Agent.ofCode (s.arg 0) with
  | .ctx core n =>
    let ag := Agent.ctx core n
    let x := s.engSlot ag k
    if x.st ≠ .running ∨ !x.todo.isEmpty then happen s else
    let ia := (x.ox.getD 0 0).toNat
    let gather : Bool := 2 ≤ x.op
    let bad : Option Nat := if gather && ia % 4 ≠ 0 then some cALIGN
      else if gather && bits ia 63 48 ≠ 0xFF80 then some cPAGE else none
    let x0 := if x.laid then x else { x with pieces := (if gather then x.cnt else 0), bitmap := (if gather then 2 ^ 64 - 2 ^ x.cnt else 0) }
    match bad with
    | some cause => happen (s.engRefuse core n k x0 cause (n64 ia))
    | none =>
      -- a first acceptance, or one after a refusal of the whole, decides over every piece; another restart over those that run again (R198)
      let scope (p : Nat) : Bool := !bit x0.bitmap p && (!x.laid || !bit x.skip p)
      let got := if gather then ((List.range x.cnt).filter scope).map (fun p => (p, s.engIndex core x p)) else []
      let idx := got.foldl (fun t e => match e.2 with | .ok v => put e.1 v t | .error _ => t) x.idx
      let bads := got.filterMap (fun e => match e.2 with | .ok _ => none | .error (c, a) => some (e.1, c, a))
      let x1 := { x0 with idx := idx }
      let x2 := { x1 with conv := s.engConv ag x1 }
      let x3 := if x.laid then x2 else x2.lay
      let good := (List.range x3.pieces).filter (fun p => scope p && !(bads.any (fun b => b.1 = p)))
      match good.find? (fun p => !((x3.parts p).all (s.partOk ag x3))) with
      | some p =>
        let va := ((x3.parts p).head?.map (·.1)).getD 0
        happen (s.engRefuse core n k { x3 with laid := x.laid } cALIGN (n64 va))
      | none =>
        let x4 := { x3 with todo := good.filter (fun p => !bit x.skip p), fails := bads.filter (fun b => !bit x.skip b.1), flags := 0, peer := [] }
        let s := s.setEng ag k x4
        if x4.todo.isEmpty then happen (s.engEnd core n k) else happen (s.start .enginePieceDone [ag.code, k])
  | _ => happen s

/-! ## Pieces (R195 to R197, R218) -/

/-- The first poisoned granule of some targets, as an address, and the first byte of the targets in it. -/
def State.engPoison (s : State) (ts : List (Nat × Nat × Target)) : Option (Nat × Nat) :=
  if s.noBad then none else
  ts.findSome? fun (va, n, t) =>
    t.key?.bind fun key => ((granules64 key n).find? s.bad).map (fun g => (va + g * 64 - key, max va (va + g * 64 - key)))

/-- Sends one PEER access of a piece; its acknowledgement is noted in the slot. -/
def State.engPeer (s : State) (ag : Agent) (k piece flow : Nat) (load : Bool) (words : List Nat) : State :=
  let seq := look 0 s.flowSeq flow
  let s := { s with flowSeq := put flow ((seq + 1) % 2 ^ 32) s.flowSeq }
  let x := s.engSlot ag k
  (s.out (0x1000 + flow) (seq :: words)).setEng ag k { x with peer := x.peer ++ [{ piece := piece, flow := flow, seq := seq, load := load }] }

/-- A piece fails; the others go on. -/
def State.engFail (s : State) (ag : Agent) (k p cause : Nat) (a : W64) : State :=
  let x := s.engSlot ag k
  s.setEng ag k { x with todo := x.todo.filter (· ≠ p), fails := x.fails ++ [(p, cause, a)], peer := x.peer.filter (·.piece ≠ p) }

/-- A piece has been delivered: its bit is set, its bytes leave the armed barrier's counter (R196, R205). -/
def State.engDone (s : State) (ag : Agent) (k p n : Nat) (fl : Flags) : State :=
  let x := s.engSlot ag k
  let s := s.setEng ag k { x with todo := x.todo.filter (· ≠ p), bitmap := x.bitmap ||| 2 ^ p, flags := x.flags ||| fl.toNat,
                                  peer := x.peer.filter (·.piece ≠ p) }
  if x.arm = 0 then s else s.addPend (evCol x.arm) (bits x.arm 11 0 / 32) (-(BitVec.ofNat 56 n))

/-- The requester that an engine piece of a context is (R329). -/
def State.engRequester (s : State) (core n : Nat) (x : EngSlot) : Requester :=
  { s.requester (.ctx core n) with dom := x.dom }

/-- The reads of a piece reach their home slices as demand accesses (R329). -/
def State.engTouch (s : State) (rq : Requester) (ts : List (Nat × Nat × Target)) : State :=
  ts.foldl (init := s) fun s (va, n, t) =>
    match t with
    | .mem _ tag _ => (List.range ((va % 256 + n - 1) / 256 + 1)).foldl (fun s i => s.demand (tag.up i).home (tag.up i) rq) s
    | _ => s

/-- The bytes of a piece's sources, those of other modules taken from the acknowledged loads in order. -/
def State.engRead (s : State) (ts : List (Nat × Nat × Target)) (loads : List (List Nat)) : List Byte × List (List Nat) :=
  ts.foldl (init := ([], loads)) fun (bs, loads) (_, n, t) =>
    match t with
    | .peer _ _ pva =>
      let k := (flitParts pva n).length
      (bs ++ ((loads.take k).flatten.map (BitVec.ofNat 8)), loads.drop k)
    | t => (bs ++ s.devRead t n, loads)

/-- Writes a piece's bytes at local targets, each 256-byte granule as a one-granule chunk (R197). -/
def State.engWrite (s : State) (rq : Requester) (ts : List (Nat × Nat × Target)) (bs : List Byte) : State :=
  (ts.foldl (init := (s, bs)) fun (s, bs) (va, n, t) =>
    match t with
    | .peer .. => (s, bs.drop n)
    | t => (s.devWrite none t va (bs.take n) (some rq), bs.drop n)).1

/-- Whether writes to some targets must wait: for a granule reserved by a priority chunk (R213), a page that moves (R398), or what left the issuing core for the
same core and has not been applied (R216, R218). -/
def State.engHeld (s : State) (core : Nat) (ts : List (Nat × Nat × Target)) : Bool :=
  ts.any fun (va, n, t) =>
    match t with
    | .scratch dst off => s.holdDelivery (scratchKey dst off) n || s.flight.any (fun e => e.2.chan = chanOf core dst)
    | t => s.reserved (.ws 0) (t.granules n) || s.pageHeld va

/-- Whether a source granule holds bytes that a running chunk has written and not committed: the read waits (R125). -/
def State.engSpec (s : State) (ts : List (Nat × Nat × Target)) : Bool :=
  ts.any fun e => match e.2.2 with | .scratch c off => s.specAny c (scratchKey c off) e.2.1 | _ => false

/-- A PEER load or store of a piece in words (R217). -/
def peerWord (load : Bool) (ord : Bool) (pva n : Nat) (bs : List Byte) : List Nat :=
  if load then [0, if ord then 1 else 0, pva, n] else [1, if ord then 1 else 0, pva, n, leNat bs]

/-- The destination bytes of some parts' source bytes, with the conversion flags (R195, R68). -/
def EngSlot.convertAll (x : EngSlot) (f g : EFmt) : List (Nat × Nat × Nat) → List Byte → List Byte × Flags
  | [], _ => ([], 0)
  | q :: qs, bs =>
    let m := q.2.1 / f.groupBytes * f.group
    let c := convert f g m (leNat (bs.take q.2.1))
    let r := x.convertAll f g qs (bs.drop q.2.1)
    (leBytes (g.bytes m) c.1 ++ r.1, c.2 ||| r.2)

def EngSlot.result (x : EngSlot) (parts : List (Nat × Nat × Nat)) (bs : List Byte) : List Byte × Flags :=
  match x.srcFmt, x.dstFmt with
  | some f, some g => x.convertAll f g parts bs
  | _, _ => (bs, 0)

/-- The PEER loads that some sources need: flow, ordered class, address there, length. -/
def peerLoads (ts : List (Nat × Nat × Target)) : List (Nat × Bool × Nat × Nat) :=
  ts.filterMap fun e => match e.2.2 with | .peer f o a => some (f, o, a, e.2.1) | _ => none

/-- The PEER stores that some destinations need. -/
def peerStores : List (Nat × Nat × Target) → List Byte → List (Nat × Bool × Nat × List Byte)
  | [], _ => []
  | e :: es, bs =>
    match e.2.2 with
    | .peer f o a => (f, o, a, bs.take e.2.1) :: peerStores es (bs.drop e.2.1)
    | _ => peerStores es (bs.drop e.2.1)

/-- Sends the PEER loads of a piece. -/
def State.engSendLoads (s : State) (ag : Agent) (k p : Nat) (l : List (Nat × Bool × Nat × Nat)) : State :=
  l.foldl (init := s) fun s w =>
    (flitParts w.2.2.1 w.2.2.2).foldl (init := s) fun s q => s.engPeer ag k p w.1 true (peerWord true w.2.1 q.1 q.2 [])

/-- Sends the PEER stores of a piece. -/
def State.engSendStores (s : State) (ag : Agent) (k p : Nat) (l : List (Nat × Bool × Nat × List Byte)) : State :=
  l.foldl (init := s) fun s w =>
    (flitParts w.2.2.1 w.2.2.2.length).foldl (init := s) fun s q =>
      s.engPeer ag k p w.1 false (peerWord false w.2.1 q.1 q.2 ((w.2.2.2.drop (q.1 - w.2.2.1)).take q.2))

/-- The addresses, as the piece has them, of the PEER accesses that some parts make, in the order in which they leave. -/
def peerVas (ts : List (Nat × Nat × Target)) : List Nat :=
  ts.flatMap fun e => match e.2.2 with
    | .peer _ _ a => (flitParts a e.2.1).map (fun q => e.1 + (q.1 - a))
    | _ => []
/-- The address of the first byte of a piece that another module refused, or that was lost with its flow (R196, R198). -/
def refusedAt (ss ds : List (Nat × Nat × Target)) (mine : List PeerPart) : Option Nat :=
  let hit (q : PeerPart × Nat) : Bool := (q.1.ack.map (·.1)).getD 0 ≠ 0
  ((((mine.filter (·.load)).zip (peerVas ss)).find? hit).or (((mine.filter (fun q => !q.load)).zip (peerVas ds)).find? hit)).map (·.2)
/-- Whether a flow is broken (R473). -/
def State.flowBroken (s : State) (f : Nat) : Bool := bit (look 0 s.flows f).toNat 62
/-- The first address of some parts that lies behind a broken flow. -/
def State.brokenAt (s : State) (ts : List (Nat × Nat × Target)) : Option Nat :=
  (ts.find? (fun e => match e.2.2 with | .peer f _ _ => s.flowBroken f | _ => false)).map (·.1)

/-- A checked piece goes on: PEER loads, conversion, PEER stores, local writes, each as soon as what it needs is there. -/
def State.engGo (s : State) (core n k p : Nat) (x : EngSlot) (parts : List (Nat × Nat × Nat))
    (ss ds : List (Nat × Nat × Target)) : State :=
  let ag := Agent.ctx core n
  let mine := x.peer.filter (·.piece = p)
  let wants := peerLoads ss
  let loads := mine.filter (·.load)
  if !wants.isEmpty && loads.isEmpty then
    match s.brokenAt ss with
    | some a => s.engFail ag k p cFLOW (n64 a)
    | none => if wants.any (fun w => !s.credit w.1 (flitParts w.2.2.1 w.2.2.2).length) then s else s.engSendLoads ag k p wants
  else if loads.any (fun q => q.ack.isNone) || s.engSpec ss || ss.any (fun e => s.pageHeld e.1) then s
  else
    let bs := (s.engRead ss (loads.map (fun q => (q.ack.map (·.2)).getD []))).1
    let out := x.result parts bs
    let stores := mine.filter (fun q => !q.load)
    let puts := peerStores ds out.1
    if !puts.isEmpty && stores.isEmpty then
      match s.brokenAt ds with
      | some a => s.engFail ag k p cFLOW (n64 a)
      | none => if puts.any (fun w => !s.credit w.1 (flitParts w.2.2.1 w.2.2.2.length).length) then s else s.engSendStores ag k p puts
    else if stores.any (fun q => q.ack.isNone) then s
    else if s.engHeld core ds then s
    else ((s.engTouch (s.engRequester core n x) ss).engWrite (s.engRequester core n x) ds out.1).engDone ag k p out.1.length out.2

/-- Runs one piece: checks every byte, reads, converts, writes; a piece that must hear from another module goes on when it has, and one that needs the
memory tiers when its core's crossing FIFO takes requests (R442). -/
def State.engPiece (s : State) (core n k p : Nat) : State :=
  let ag := Agent.ctx core n
  let x := s.engSlot ag k
  let parts := x.parts p
  let srcs := (parts.mapM fun (q : Nat × Nat × Nat) => s.engTargets core x.dom q.1 q.2.1 { r := true, e := true }).map List.flatten
  let dsts := (parts.mapM fun (q : Nat × Nat × Nat) => s.engTargets core x.dom q.2.2 (x.out q.2.1) { w := true, e := true }).map List.flatten
  match srcs, dsts with
  | .error t, _ => s.engFail ag k p t.cause t.info
  | _, .error t => s.engFail ag k p t.cause t.info
  | .ok ss, .ok ds =>
    let mine := x.peer.filter (·.piece = p)
    if s.coreClosed core && (ss ++ ds).any (fun e => bits e.1 63 48 < 0x80) then s else
    match refusedAt ss ds mine with
    | some a => if mine.any (fun q => q.ack.isNone) then s else s.engFail ag k p cFLOW (n64 a)
    | none =>
      let s := ss.foldl (fun s e => s.meet e.2.2 e.1 e.2.1) s
      match s.engPoison ss with
      | some (g, a) =>
        (s.record { dom := x.dom, src := 3, sub := 1, cause := cUE, ctx := n, loc := coreId core, addr := g, w4 := k * 2 ^ 8 + p,
                    core := some core }).engFail ag k p cUE (n64 a)
      | none => s.engGo core n k p x parts ss ds

/-- ENGINE_PIECE_DONE: agent, slot. One piece of those that remain runs, in no defined order; with the last the operation ends. -/
def execEnginePieceDone (s : State) : Host.Outcome State Fault Refusal :=
  let k := s.arg 1
  match Agent.ofCode (s.arg 0) with
  | .ctx core n =>
    let ag := Agent.ctx core n
    let x := s.engSlot ag k
    if x.st ≠ .running then happen s else
    match x.todo[Config.choice s.seq % x.todo.length]? with
    | none => happen s
    | some p =>
      let s := s.engPiece core n k (if x.todo.length = 1 then x.todo.getD 0 0 else p)
      let x' := s.engSlot ag k
      if x'.todo.isEmpty then happen (s.engEnd core n k)
      else if x'.todo.all (fun q => x'.peer.any (fun r => r.piece = q && r.ack.isNone)) then happen s
      else happen (s.start .enginePieceDone [ag.code, k])
  | _ => happen s

end Sys2Proof.Machine
end

