-- ==== Sys2Proof/Machine/Equiv.lean ====
section
/-!
DEFINITION. The equivalence engine (R299 to R319): forests, union and find, labels and class reductions, snapshots.

Every operation on a forest acts at one instant, when its instruction executes, so that all are linearisable (R310) and a forest-wide one
finds every earlier one complete. EQLABEL and EQREDUCE take the classes at that instant, and then write label by label or class by
class (R311 to R313).
-/

namespace Sys2Proof.Machine

open Sys2Proof

def eqTrap (code field : Nat) : Trap := { cause := cEQ, info := n64 (code * 2 ^ 8 + field) }

def State.forest? (s : State) (p h : Nat) : Option Forest := (s.forests.find? (fun e => e.1 = 16 * p + h)).map (·.2)
def State.setForest (s : State) (p h : Nat) (f : Forest) : State :=
  ({ s with forests := put (16 * p + h) f s.forests }).setPart p { s.part p with eqCount := put h f.count (s.part p).eqCount }
/-- Closes a handle: its count reads 0 (R306). -/
def State.closeForest (s : State) (p h : Nat) : State :=
  ({ s with forests := del (16 * p + h) s.forests }).setPart p { s.part p with eqCount := put h 0 (s.part p).eqCount }

/-! ## Access to the arrays (R301, R305, R318) -/

/-- The slice in whose column the engine of an element stands: column (i div 64) mod 64 of the home stack (R301). -/
def Forest.engine (f : Forest) (i : Nat) : Nat := 64 * f.stack + i / 64 % 64

/-- The target of an entry of an array, as the engine of element `i` meets it: the rights are those of the opening; translation and dark tiers are met
afresh (R301, R305, R318). -/
def State.eqAt (s : State) (f : Forest) (i va n : Nat) : Except Trap Target :=
  let ag := Agent.ws (f.engine i)
  (addrCheck ag va n false).bind fun win => s.landing ag va n win Target.isMem false

/-- UE of an engine access, with its record (R318, R429). -/
def State.eqUe (s : State) (p h loc va : Nat) : Stop :=
  .trapIn (s.record { dom := supDom p, src := 5, sub := 1, cause := cUE, loc := loc, addr := va, w4 := h }) (trapAt cUE va)

/-- A trap in the middle of an instruction: what the engine has written before stands (R318). -/
def standing {α : Type} (s : State) : Try α → Try α
  | .error (.trap t) => .error (.trapIn s t)
  | x => x

/-- An operation that would write a granule reserved by a priority chunk, or whose engine meets a page that is held for a move, is not accepted yet: nothing of it is
done, and its context is Stalled (R213, R310, R398). -/
def State.whole {α : Type} (s : State) (ag : Agent) (x : Try α) : Try α :=
  match x with
  | .error (.later _) => .error (.later (s.stallNow ag))
  | x => x

/-- Reads an entry. -/
def State.eqGet (s : State) (p h : Nat) (f : Forest) (i va n : Nat) : Try Nat :=
  (liftT (s.eqAt f i va n)).bind fun t =>
    if s.pageHeld va then .error (.later s) else
    match t.key? with
    | some key => if s.bad (key / 64) then .error ((s.meet t va n).eqUe p h (sliceLoc (f.engine i)) va) else .ok (leNat (s.devRead t n))
    | none => .error (.trap (trapAt cPAGE va))

/-- Writes an entry: a one-granule write in the chunk order, which waits for a priority chunk and for a page that moves (R213, R317, R398). -/
def State.eqPut (s : State) (ag : Agent) (f : Forest) (i va n v : Nat) : Try State :=
  (liftT (s.eqAt f i va n)).bind fun t =>
    if s.pageHeld va || !s.mayEnter ag (t.granules n) then .error (.later s)
    else .ok (s.devWrite (some ag) t va (leBytes n v))

def Forest.pAt (f : Forest) (i : Nat) : Nat := (f.pbase + 4 * i) % 2 ^ 64
def Forest.sAt (f : Forest) (i : Nat) : Nat := (f.sbase + 4 * i) % 2 ^ 64
def Forest.lAt (f : Forest) (i : Nat) : Nat := (f.lbase + 8 * i) % 2 ^ 64

/-- Find (R307), compressing or not. -/
def State.eqFind (ag : Agent) (p h : Nat) (f : Forest) (field : Nat) (compress : Bool) : Nat → State → Nat → Try (State × Nat)
  | 0, s, _ => .error (.trapIn s (eqTrap 5 field))
  | fuel + 1, s, x =>
    (standing s (s.eqGet p h f x (f.pAt x) 4)).bind fun q =>
    if q = x then .ok (s, x)
    else if f.n ≤ q then .error (.trapIn s (eqTrap 5 field))
    else
      (standing s (s.eqGet p h f q (f.pAt q) 4)).bind fun g =>
      if f.n ≤ g ∨ (f.bySize = false ∧ (x < q ∨ q < g)) then .error (.trapIn s (eqTrap 5 field))
      else
        (if compress && !f.log && g ≠ q then standing s (s.eqPut ag f x (f.pAt x) 4 g) else .ok s).bind fun s =>
        State.eqFind ag p h f field compress fuel s g

/-- Find with the number of hops that R307 allows. -/
def State.find (s : State) (ag : Agent) (p h : Nat) (f : Forest) (field x : Nat) (compress : Bool) : Try (State × Nat) :=
  State.eqFind ag p h f field compress (f.n + 2) s x

/-! ## Operands (R302, R303) -/

/-- Whether a handle word, or an element word, keeps its must-be-zero bits (R302). -/
def handleOk (w : Nat) (tag : Bool) : Bool := w < 2 ^ 48 && bits w 31 4 = 0 && (tag || bits w 47 32 = 0)
def elemOk (w : Nat) : Bool := w < 2 ^ 36 && !bit w 31

/-- The forest of a handle open in the executing context's partition (R299, R303). -/
def State.openForest (s : State) (ag : Agent) (h field : Nat) : Try (Nat × Forest) :=
  match s.partOf ag with
  | none => .error (.trap (eqTrap 1 field))
  | some p =>
    match s.forest? p h with
    | none => .error (.trap (eqTrap 1 field))
    | some f => .ok (p, f)

/-- A handle word: its partition, handle, tag and forest. A core of no partition has none (R299). -/
def State.handleWord (s : State) (ag : Agent) (w field : Nat) (tag : Bool) : Try (Nat × Nat × Nat × Forest) :=
  if (s.partOf ag).isSome && !handleOk w tag then .error (.trap (eqTrap 4 field))
  else (s.openForest ag (bits w 3 0) field).map fun (p, f) => (p, bits w 3 0, bits w 47 32, f)

/-- An element word: its partition, handle, forest and element. -/
def State.elemWord (s : State) (ag : Agent) (w field : Nat) : Try (Nat × Nat × Forest × Nat) :=
  if (s.partOf ag).isSome && !elemOk w then .error (.trap (eqTrap 4 field))
  else
    (s.openForest ag (bits w 35 32) field).bind fun (p, f) =>
      if f.n ≤ bits w 30 0 then .error (.trap (eqTrap 2 field)) else .ok (p, bits w 35 32, f, bits w 30 0)

/-- An equivalence instruction: a singleton, which waits while a matrix command of its context has not retired where it must. -/
def eqInstr (i : Instr) (cls : Nat) (reads : List Nat) (m : State → Agent → Try State) : State → Host.Outcome State Fault Refusal :=
  runWord i { cls := some cls, single := true, reads := reads } (fun s ag => (m s ag).map (fun s => (s, .fall)))

/-! ## Opening and closing (R300, R305, R306) -/

/-- The descriptor as a forest, and its init bit; none where it breaks R300. -/
def descriptor (D : Nat) : Option (Forest × Bool) :=
  let f : Forest := { pbase := bits D 63 0, sbase := bits D 127 64, n := bits D 159 128, bySize := bit D 160,
                      lbase := bits D 255 192, lsize := bits D 287 256 }
  if bits D 167 162 ≠ 0 ∨ bits D 191 169 ≠ 0 ∨ bits D 319 288 ≠ 0 ∨ bit D 161 ∨ f.n = 0 ∨ 2 ^ 31 < f.n ∨ f.pbase % 256 ≠ 0 ∨
     f.sbase % 256 ≠ 0 ∨ (f.lsize ≠ 0 ∧ f.lbase % 8 ≠ 0) then none
  else some (f, bit D 168)

/-- The ranges of a forest: address and length. -/
def Forest.ranges (f : Forest) : List (Nat × Nat) :=
  [(f.pbase, 4 * f.n), (f.sbase, 4 * f.n)] ++ (if f.lsize = 0 then [] else [(f.lbase, 8 * f.lsize)])
def overlap (a b : Nat × Nat) : Bool := a.1 < b.1 + b.2 && b.1 < a.1 + a.2
def pairsOverlap : List (Nat × Nat) → Bool
  | [] => false
  | a :: l => l.any (overlap a) || pairsOverlap l

/-- Checks a range with read, write and engine rights, orders 2 to 8; the homes of its DRAM pages, and whether all are DRAM. -/
def State.eqRange (s : State) (ag : Agent) (r : Nat × Nat) : Except Trap (List Nat × Bool) :=
  (s.check ag r.1 r.2 { r := true, w := true, e := true }).bind fun t =>
    match t with
    | .mem .. =>
      (pieces r.1 r.2).foldlM (init := ([], true)) fun (x : List Nat × Bool) (a : Nat) =>
        (s.globalTarget ag a).map fun (y : Target × Option Leaf) =>
          match y.1 with
          | .mem _ tag _ => (tag.home / 64 :: x.1, x.2 && tag.ty = 0)
          | _ => (x.1, false)
    | _ => .ok ([], false)

/-- Sets parent(i) to i and size(i) to 1 for the last `k` elements of n. -/
def State.eqInit (ag : Agent) (f : Forest) : Nat → State → Try State
  | 0, s => .ok s
  | k + 1, s =>
    let i := f.n - (k + 1)
    (standing s (s.eqPut ag f i (f.pAt i) 4 i)).bind fun s => (standing s (s.eqPut ag f i (f.sAt i) 4 1)).bind fun s => State.eqInit ag f k s

/-- EQOPEN. -/
def execEqopen (d a : Nat) : State → Host.Outcome State Fault Refusal :=
  eqInstr (.eqopen d a) 14 [a] (fun s ag =>
    let va := ((s.regs ag).S a).toNat
    if va % 8 ≠ 0 || wordOnly ag va then .error (.trap (trapAt cALIGN va)) else
    (liftT (s.check ag va 40 rdR)).bind fun t =>
    (s.loadRun ag 0 t va 40).bind fun (s, bs, _) =>
    match descriptor (leNat bs) with
    | none => .error (.trap (eqTrap 3 a))
    | some (f, init) =>
      (liftT (f.ranges.mapM (s.eqRange ag))).bind fun rs =>
      let homes := rs.flatMap (·.1)
      let stack := homes.headD 0
      let part := s.partOf ag
      let others := s.forests.flatMap (fun e => if some (e.1 / 16) = part then e.2.ranges else [])
      if !(rs.all (·.2)) ∨ homes.any (· ≠ stack) ∨ pairsOverlap f.ranges ∨ f.ranges.any (fun r => others.any (overlap r)) then
        .error (.trap (eqTrap 3 a))
      else
        let home := (match (s.eqAt { f with stack := stack } 0 f.pbase 4) with | .ok (.mem k _ _) => k / 64 | _ => stack)
        let f := { f with stack := home }
        match part.bind (fun p => ((List.range 16).find? (fun h => (s.forest? p h).isNone)).map (fun h => (p, h))) with
        | none => .ok (s.modR ag (·.setS d (n64 (2 ^ 64 - 1))))
        | some (p, h) =>
          if init then
            (s.whole ag (State.eqInit ag f f.n s)).map fun s => (s.setForest p h { f with count := f.n }).modR ag (·.setS d (n64 h))
          else
            (s.whole ag <| (List.range f.n).foldlM (init := 0) fun (n : Nat) (i : Nat) =>
              (s.find ag p h f a i false).bind fun (_, r) => (s.eqGet p h f i (f.pAt i) 4).bind fun q =>
                if f.bySize = false ∧ i < q then .error (.trap (eqTrap 5 a)) else .ok (if r = i then n + 1 else n)).map fun n =>
            (s.setForest p h { f with count := n }).modR ag (·.setS d (n64 h)))

/-- EQCLOSE. -/
def execEqclose (d a : Nat) : State → Host.Outcome State Fault Refusal :=
  eqInstr (.eqclose d a) 14 [a] (fun s ag =>
    (s.handleWord ag ((s.regs ag).S a).toNat a false).map fun (p, h, _, _) => (s.closeForest p h).modR ag (·.setS d 0))

/-! ## Unions and finds (R308, R309) -/

/-- The merge of two roots: the log entries first, then the arrays and the count. Each write is an element's, its address, length and value. -/
def State.eqMerge (s : State) (ag : Agent) (p h : Nat) (f : Forest) (ra rb : Nat) : Try (State × Nat) :=
  (standing s (s.eqGet p h f ra (f.sAt ra) 4)).bind fun za =>
  (standing s (s.eqGet p h f rb (f.sAt rb) 4)).bind fun zb =>
  let w := if f.bySize && za ≠ zb then (if zb < za then ra else rb) else min ra rb
  let l := if w = ra then rb else ra
  let zw := if w = ra then za else zb
  let entries : List (Nat × Nat × Nat × Nat) :=
    (if f.log then [(l, f.lAt f.used, 8, l * 2 ^ 32 + l), (w, f.lAt (f.used + 1), 8, 2 ^ 63 + w * 2 ^ 32 + zw)] else []) ++
    [(l, f.pAt l, 4, w), (w, f.sAt w, 4, (za + zb) % 2 ^ 32)]
  (standing s (liftT (entries.mapM (fun e => s.eqAt f e.1 e.2.1 e.2.2.1)))).bind fun ts =>
  if !(ts.all (fun t => s.mayEnter ag (t.granules 1))) then .error (.later s)
  else
    (entries.foldlM (init := s) fun (s : State) (e : Nat × Nat × Nat × Nat) => s.eqPut ag f e.1 e.2.1 e.2.2.1 e.2.2.2).map fun s =>
      (s.setForest p h { f with count := f.count - 1, used := if f.log then f.used + 2 else f.used }, w)

/-- EQUNITE. -/
def execEqunite (d a b : Nat) : State → Host.Outcome State Fault Refusal :=
  eqInstr (.equnite d a b) 6 [a, b] (fun s ag => s.whole ag <|
    let wa := ((s.regs ag).S a).toNat
    let wb := ((s.regs ag).S b).toNat
    let known := (s.partOf ag).isSome
    if known && !elemOk wa then .error (.trap (eqTrap 4 a))
    else if known && (!elemOk wb || bits wa 35 32 ≠ bits wb 35 32) then .error (.trap (eqTrap 4 b))
    else
    (s.elemWord ag wa a).bind fun (p, h, f, x) =>
    (s.elemWord ag wb b).bind fun (_, _, _, y) =>
    (s.find ag p h f a x true).bind fun (s, ra) =>
    (s.find ag p h f b y true).bind fun (s, rb) =>
    if ra = rb then .ok (s.modR ag (·.setS d (n64 ra)))
    else if f.log && f.lsize < f.used + 2 then .ok (s.modR ag (·.setS d (n64 (2 ^ 62 + ra))))
    else (s.eqMerge ag p h f ra rb).map fun (s, w) => s.modR ag (·.setS d (n64 (2 ^ 63 + w))))

/-- EQFIND. -/
def execEqfind (d a : Nat) : State → Host.Outcome State Fault Refusal :=
  eqInstr (.eqfind d a) 6 [a] (fun s ag => s.whole ag <|
    (s.elemWord ag ((s.regs ag).S a).toNat a).bind fun (p, h, f, x) =>
    (s.find ag p h f a x true).map fun (s, r) => s.modR ag (·.setS d (n64 r)))

/-- EQSIZE. -/
def execEqsize (d a : Nat) : State → Host.Outcome State Fault Refusal :=
  eqInstr (.eqsize d a) 6 [a] (fun s ag => s.whole ag <|
    (s.elemWord ag ((s.regs ag).S a).toNat a).bind fun (p, h, f, x) =>
    (s.find ag p h f a x true).bind fun (s, r) =>
    (standing s (s.eqGet p h f r (f.sAt r) 4)).map fun z => s.modR ag (·.setS d (n64 z)))

/-- EQCOUNT. -/
def execEqcount (d a : Nat) : State → Host.Outcome State Fault Refusal :=
  eqInstr (.eqcount d a) 0 [a] (fun s ag =>
    (s.handleWord ag ((s.regs ag).S a).toNat a false).map fun (_, _, _, f) => s.modR ag (·.setS d (n64 f.count)))

/-! ## Snapshot and undo (R314, R315) -/

/-- EQSNAP. -/
def execEqsnap (d a : Nat) : State → Host.Outcome State Fault Refusal :=
  eqInstr (.eqsnap d a) 14 [a] (fun s ag =>
    (s.handleWord ag ((s.regs ag).S a).toNat a false).map fun (p, h, _, f) =>
      if f.lsize = 0 then s.modR ag (·.setS d 4)
      else if f.log then s.modR ag (·.setS d 3)
      else (s.setForest p h { f with log := true, used := 0, saved := f.count }).modR ag (·.setS d 0))

/-- EQKEEP. -/
def execEqkeep (d a : Nat) : State → Host.Outcome State Fault Refusal :=
  eqInstr (.eqkeep d a) 14 [a] (fun s ag =>
    (s.handleWord ag ((s.regs ag).S a).toNat a false).map fun (p, h, _, f) =>
      if f.log then (s.setForest p h { f with log := false, used := 0 }).modR ag (·.setS d 0) else s.modR ag (·.setS d 2))

/-- EQUNDO: every log entry is read and every entry it will write is checked before anything is restored. -/
def execEqundo (d a : Nat) : State → Host.Outcome State Fault Refusal :=
  eqInstr (.equndo d a) 14 [a] (fun s ag => s.whole ag <|
    (s.handleWord ag ((s.regs ag).S a).toNat a false).bind fun (p, h, _, f) =>
      if !f.log then .ok (s.modR ag (·.setS d 2))
      else
        ((List.range f.used).reverse.mapM fun i => s.eqGet p h f 0 (f.lAt i) 8).bind fun es =>
        let at_ (e : Nat) : Nat := if bit e 63 then f.sAt (bits e 62 32) else f.pAt (bits e 62 32)
        (liftT (es.mapM (fun e => s.eqAt f (bits e 62 32) (at_ e) 4))).bind fun ts =>
        if !(ts.all (fun t => s.mayEnter ag (t.granules 4))) then .error (.later s)
        else
          (es.foldlM (init := s) fun (s : State) (e : Nat) => s.eqPut ag f (bits e 62 32) (at_ e) 4 (bits e 31 0)).map fun s =>
            (s.setForest p h { f with log := false, used := 0, count := f.saved }).modR ag (·.setS d (n64 (f.used / 2 * 2 ^ 32))))

/-! ## Labels and class reductions (R311 to R313)

The operation under way is a message. Its words: kind (0 label; 1 to 3 add, min, max of FP32; 4 to 6 of i32), 16 × partition + handle,
core, context, domain, tag, S(a), S(b) or the first element, elements done, lowest failed element, cause, code, flags; then the root of
each element, 2^32 where its walk is corrupt. -/

/-- The roots of some elements as the forest stands, and the state with what their walks have recorded. -/
def State.roots (s : State) (ag : Agent) (p h : Nat) (f : Forest) (first n : Nat) : Try (State × List Nat) :=
  (List.range n).foldlM (init := (s, [])) fun (s, l) i =>
    match s.find ag p h f 0 (first + i) false with
    | .ok (_, r) => .ok (s, l ++ [r])
    | .error (.trap t) => .ok (s, l ++ [2 ^ 32 + t.cause])
    | .error (.trapIn s t) => .ok (s, l ++ [2 ^ 32 + t.cause])
    | .error (.later s) => .error (.later s)

/-- Sends the operation on its way. -/
def State.eqAsync (s : State) (ag : Agent) (core n kind p h dom tag x y : Nat) (roots : List Nat) : State :=
  s.send { chan := 2 ^ 38 + s.nextMsg, ev := ⟨.eqAsyncCompletion, [s.nextMsg]⟩, src := ag.code,
           words := [kind, 16 * p + h, core, n, dom, tag, x, y, 0, 2 ^ 32 - 1, 0, 0, 0] ++ roots }

/-- EQLABEL. -/
def execEqlabel (d a b : Nat) : State → Host.Outcome State Fault Refusal :=
  eqInstr (.eqlabel d a b) 14 [d, a, b] (fun s ag =>
    let r := s.regs ag
    (s.handleWord ag (r.S d).toNat d true).bind fun (p, h, tag, f) =>
    let w := (r.S b).toNat
    let first := bits w 30 0
    if bit w 63 ∨ bit w 31 then .error (.trap (eqTrap 4 b))
    else if f.n ≤ first ∨ f.n < first + bits w 62 32 then .error (.trap (eqTrap 2 b))
    else if (r.S a).toNat % 4 ≠ 0 then .error (.trap (trapAt cALIGN (r.S a).toNat))
    else
      match ag with
      | .ctx core n =>
        (s.reserve ag).bind fun s' =>
          let cnt := if bits w 62 32 = 0 then f.n - first else bits w 62 32
          (s.whole ag (s'.roots ag p h f first cnt)).map fun (s, roots) =>
          s.eqAsync ag core n 0 p h r.dom.toNat tag (r.S a).toNat first roots
      | _ => .ok s)

/-- EQREDUCE: the kind names the operation and the type. -/
def eqreduce (i : Instr) (kind d a b : Nat) : State → Host.Outcome State Fault Refusal :=
  eqInstr i 14 [d, a, b] (fun s ag =>
    let r := s.regs ag
    (s.handleWord ag (r.S d).toNat d true).bind fun (p, h, tag, f) =>
    if (r.S a).toNat % 4 ≠ 0 then .error (.trap (trapAt cALIGN (r.S a).toNat))
    else if (r.S b).toNat % 4 ≠ 0 then .error (.trap (trapAt cALIGN (r.S b).toNat))
    else
      match ag with
      | .ctx core n =>
        (s.reserve ag).bind fun s' =>
          (s.whole ag (s'.roots ag p h f 0 f.n)).map fun (s, roots) =>
          s.eqAsync ag core n kind p h r.dom.toNat tag (r.S a).toNat (r.S b).toNat roots
      | _ => .ok s)
def execEqreduceAddF32 (d a b : Nat) := eqreduce (.eqreduceAddF32 d a b) 1 d a b
def execEqreduceMinF32 (d a b : Nat) := eqreduce (.eqreduceMinF32 d a b) 2 d a b
def execEqreduceMaxF32 (d a b : Nat) := eqreduce (.eqreduceMaxF32 d a b) 3 d a b
def execEqreduceAddI32 (d a b : Nat) := eqreduce (.eqreduceAddI32 d a b) 4 d a b
def execEqreduceMinI32 (d a b : Nat) := eqreduce (.eqreduceMinI32 d a b) 5 d a b
def execEqreduceMaxI32 (d a b : Nat) := eqreduce (.eqreduceMaxI32 d a b) 6 d a b

/-- The value of a class of one element, an FP32 NaN made canonical (R59); it raises no flag, since no operation is made (DESIGN CHOICE, log 70). -/
def loneF32 (v : Nat) : Nat := if (fp32.decode v).isNan then fp32.nanBits else v

/-- Combines the values of a class in the order of its elements, with the flags (R59, R312). -/
def combine (kind : Nat) (vs : List Nat) : Nat × Flags :=
  match kind, vs with
  | _, [] => (0, 0)
  | 1, [v] => (loneF32 v, 0)
  | 2, [v] => (loneF32 v, 0)
  | 3, [v] => (loneF32 v, 0)
  | 1, v :: vs => vs.foldl (fun (x, fl) y => let (z, g) := fp32.addOp (fp32.decode x) (fp32.decode y); (z, fl ||| g)) (v, 0)
  | 2, v :: vs => vs.foldl (fun (x, fl) y => let (z, g) := fp32.minMax false x y; (z, fl ||| g)) (v, 0)
  | 3, v :: vs => vs.foldl (fun (x, fl) y => let (z, g) := fp32.minMax true x y; (z, fl ||| g)) (v, 0)
  | 4, vs =>
    let t : Int := (vs.map (toSigned 32)).sum
    if t < -(2 ^ 31) then (2 ^ 31, fSAT) else if 2 ^ 31 - 1 < t then (2 ^ 31 - 1, fSAT) else (ofSigned 32 t, 0)
  | k, v :: vs =>
    (vs.foldl (fun x y => if (if k = 5 then toSigned 32 y < toSigned 32 x else toSigned 32 x < toSigned 32 y) then y else x) v, 0)

/-- An element access of the operation: with the issuer's domain and engine rights, at what an engine reaches on this module (R313). -/
def State.eqTarget (s : State) (core dom va : Nat) (need : Rights) : Except Trap Target :=
  s.devCheck (some (core, dom)) va 4 need (fun t => t.words && t.key?.isSome)

/-- Notes a failure: the lowest element, with its cause and code. -/
def noteFail (w : List Nat) (elem cause code : Nat) : List Nat :=
  if elem < w.getD 9 0 ∨ w.getD 9 0 = 2 ^ 32 - 1 then ((w.set 9 elem).set 10 cause).set 11 code else w

/-- EQ_ASYNC_COMPLETION: message. One label or one class is done at a time; after the last the entry is enqueued (R313). -/
def execEqAsyncCompletion (s : State) : Host.Outcome State Fault Refusal :=
  match s.msg? (s.arg 0) with
  | none => happen s
  | some m =>
    let w := m.words
    let g (k : Nat) := w.getD k 0
    let roots := w.drop 13
    let i := g 8
    let core := g 2
    let again (s : State) (w : List Nat) : Host.Outcome State Fault Refusal :=
      happen { s with flight := put (s.arg 0) { m with words := w.set 8 (i + 1) } s.flight }
    match roots[i]? with
    | none =>
      let h := g 1 % 16
      happen ((s.drop (s.arg 0)).enqueueReserved core (g 3) (header 4 (g 10) (g 5) 0 (g 3) (coreId core))
        (n64 (g 9 * 2 ^ 32 + g 12 % 64 * 2 ^ 24 + (if g 0 = 0 then 0 else 1) * 2 ^ 16 + g 11 * 2 ^ 8 + h)))
    | some r =>
      let elem := if g 0 = 0 then g 7 + i else i
      if 2 ^ 32 ≤ r then again s (noteFail w elem (r - 2 ^ 32) (if r - 2 ^ 32 = cEQ then 5 else 0))
      else if g 0 = 0 then
        let va := (g 6 + 4 * elem) % 2 ^ 64
        match s.eqTarget core (g 4) va { w := true, e := true } with
        | .error t => again s (noteFail w elem t.cause 0)
        | .ok t => if s.engHeld core [(va, 4, t)] then happen s else again (s.devWrite none t va (leBytes 4 r)) w
      else if r ≠ i then again s w
      else
        let mem := (List.range roots.length).filter (fun j => roots.getD j 0 = r)
        let at_ (j : Nat) : Nat := (g 6 + 4 * j) % 2 ^ 64
        let source (j : Nat) : Except (Nat × Nat × Option Target) (Nat × Target) :=
          match s.eqTarget core (g 4) (at_ j) { r := true, e := true } with
          | .error t => .error (j, t.cause, none)
          | .ok t => if t.key?.any (fun key => s.bad (key / 64)) then .error (j, cUE, some t) else .ok (j, t)
        match mem.mapM source with
        | .error (j, cause, t) =>
          let s := match t with
            | some t => (s.meet t (at_ j) 4).record { dom := s.supDomOf core, src := 5, sub := 1, cause := cUE, addr := at_ j, w4 := g 1 % 16,
                                                      loc := ((s.forest? (g 1 / 16) (g 1 % 16)).map (fun f => sliceLoc (f.engine j))).getD 0 }
            | none => s
          again s (noteFail w j cause 0)
        | .ok ts =>
          let srcs := ts.map (fun e => (at_ e.1, 4, e.2))
          if s.engSpec srcs || srcs.any (fun e => s.pageHeld e.1) then happen s else
          let vs := ts.map (fun e => leNat (s.devRead e.2 4))
          let (x, fl) := combine (g 0) vs
          let va := (g 7 + 4 * r) % 2 ^ 64
          match s.eqTarget core (g 4) va { w := true, e := true } with
          | .error t => again s (noteFail w r t.cause 0)
          | .ok t =>
            if s.engHeld core [(va, 4, t)] then happen s
            else again (s.devWrite none t va (leBytes 4 x)) (w.set 12 (g 12 ||| fl.toNat))

end Sys2Proof.Machine
end

