-- ==== Sys2Proof/Machine/Special.lean ====
section
/-!
DEFINITION. Special registers and the moves on them (R95 to R98, R120), register by register with their access codes (R3), and the
happenings that such a move is: a bank format write (R48), a write of ctx.dom (R423), a pre-emption request or its withdrawal
(R370, R371), a move of a domain's error ring (R426).
-/

namespace Sys2Proof.Machine

open Sys2Proof

/-- The assigned numbers (R98). -/
def srAssigned (n : Nat) : Bool :=
  n ≤ 0x009 || (0x010 ≤ n && n ≤ 0x015) || (0x018 ≤ n && n ≤ 0x027) || (0x100 ≤ n && n ≤ 0x104) || n = 0x108 ||
  (0x110 ≤ n && n ≤ 0x116) || n = 0x118 || (0x120 ≤ n && n ≤ 0x13F) || (0x200 ≤ n && n ≤ 0x205) || (0x208 ≤ n && n ≤ 0x20C) ||
  (0x210 ≤ n && n ≤ 0x212) || n = 0x218 || n = 0x219 || n = 0x220 || n = 0x228 || n = 0x230 || n = 0x231 || (0x400 ≤ n && n ≤ 0x404)

/-- Whether a move of a number is allowed to the executing agent, and the cause it raises otherwise (R96, R324, R355). -/
def srAllowed (ag : Agent) (lvl : Level) (n : Nat) (write : Bool) : Option Nat :=
  match ag with
  | .ws _ => if (0x010 ≤ n && n ≤ 0x015) || (n = 0x100 && !write) then none else some cILLEGAL
  | .iluet =>
    if !srAssigned n || (write && 0x100 ≤ n && n < 0x200) then some cILLEGAL else none
  | .ctx _ _ =>
    let top := match lvl with | .user => 0x200 | .sup => 0x400
    if top ≤ n then some cPRIV
    else if !srAssigned n || (write && 0x100 ≤ n && n < 0x200) then some cILLEGAL
    else none

/-- Whether a write of the number ends the chunk first (R97). -/
def srEndsChunk (n : Nat) : Bool := (0x020 ≤ n && n ≤ 0x027) || 0x200 ≤ n
/-- err.base and err.size (R97, R426). -/
def srErr (n : Nat) : Bool := n = 0x218 || n = 0x219

/-! ## Reading -/

def stateCode : CtxSt → Nat
  | .idle => 0 | .ready => 1 | .stalled => 2 | .waiting => 3 | .saved => 4

/-- ctx.status (R357). -/
def Ctx.status (c : Ctx) : Nat :=
  (if c.r.preReq then 2 ^ 9 else 0) + (if c.lvl = .sup then 2 ^ 8 else 0) +
  (if c.st = .waiting then c.why * 2 ^ 4 else 0) + stateCode c.st

/-- ctx.preempt as it reads (R357). -/
def Regs.preempt (r : Regs) : W64 := n64 ((if r.preDlv then 2 else 0) + (if r.preReq then 1 else 0))

/-- rsv.state as it reads: who holds, who has a request pending, and whether the core sprints (R274). -/
def State.rsvStateOf (s : State) (core n : Nat) : W64 :=
  let c := s.ctx (.ctx core n)
  let k := s.core core
  let req := (s.col (colOf core)).pending.find? (fun q => q.core = core && q.ctx = n)
  (c.rsvState &&& 0x000F0F0F#64) |||
  n64 ((if k.holder = some n then 2 ^ 31 else 0) + (if req.isSome then 2 ^ 30 else 0) +
       (if (req.map (·.blk)).getD false then 2 ^ 29 else 0) + (if k.holder.isSome then 2 ^ 28 else 0))

/-- rsv.drain as it reads: hold and drain (R273). -/
def Column.drainReg (k : Column) : W64 := n64 (k.hold % 2 ^ 16 * 2 ^ 32 + k.drain % 2 ^ 32)

/-- The address of the domain-table entry of a domain (R426). -/
def domEntry (pdomt : W64) (dom : Nat) : Nat := (bits pdomt.toNat 63 5 * 32 + 32 * (dom % 2 ^ 10)) % 2 ^ 64

/-- The value of a special register. -/
def State.srRead (s : State) (ag : Agent) (n : Nat) : W64 :=
  let c := s.ctx ag
  let r := c.r
  let core := (ag.core?).getD 0
  let k := match ag with | .ctx core _ => s.core core | _ => {}
  let col := match ag with | .ctx core _ => s.col (colOf core) | _ => {}
  let own := ag.core?.isSome
  if n = 0x000 then r.fx
  else if n = 0x001 then r.uvec
  else if n = 0x002 then r.upc
  else if n = 0x003 then (r.ucause &&& 0xFF#64) ||| (if r.act then 0x8000000000000000#64 else 0)
  else if n = 0x004 then r.uinfo
  else if n = 0x005 then r.uie
  else if n = 0x006 then r.lmbase
  else if n = 0x007 then r.tmrCmp
  else if n = 0x008 then r.rank
  else if n = 0x009 then r.tchk
  else if n = 0x010 then r.loop0.start
  else if n = 0x011 then r.loop0.stop
  else if n = 0x012 then r.loop0.count
  else if n = 0x013 then r.loop1.start
  else if n = 0x014 then r.loop1.stop
  else if n = 0x015 then r.loop1.count
  else if 0x018 ≤ n ∧ n ≤ 0x01F then r.PW (n - 0x018)
  else if 0x020 ≤ n ∧ n ≤ 0x027 then n64 (look 0 k.bfmt (n - 0x020))
  else if n = 0x100 then n64 s.time
  else if n = 0x101 then (match ag with | .ctx core _ => n64 (coreId core) | _ => n64 iluetId)
  else if n = 0x102 then k.bandId
  else if n = 0x103 then k.caravanId
  else if n = 0x104 then (match ag with | .ctx _ n => n64 n | _ => 0)
  else if n = 0x108 then r.tcfg
  else if n = 0x110 then n64 (if s.darkCols.contains (colOf core) && own then 0 else col.fill)
  else if n = 0x111 then n64 (if s.darkCols.contains (colOf core) && own then 0 else col.cap)
  else if n = 0x112 then col.drainReg
  else if n = 0x113 then n64 c.rsvHeld
  else if n = 0x114 then n64 c.rsvSpent
  else if n = 0x115 then (match ag with | .ctx core n => s.rsvStateOf core n | _ => 0)
  else if n = 0x116 then n64 col.level
  else if n = 0x118 then r.tapCount
  else if 0x120 ≤ n ∧ n ≤ 0x12F then n64 (look 0 col.cost (n - 0x120))
  else if 0x130 ≤ n ∧ n ≤ 0x13F then
    (match s.partOf ag with | some p => n64 (look 0 (s.part p).eqCount (n - 0x130)) | none => 0)
  else if n = 0x200 then r.svec
  else if n = 0x201 then r.spc
  else if n = 0x202 then r.scause
  else if n = 0x203 then r.sinfo
  else if n = 0x204 then r.sstat
  else if n = 0x205 then r.sscratch
  else if n = 0x208 then n64 c.status
  else if n = 0x209 then r.safedl
  else if n = 0x20A then r.save
  else if n = 0x20B then r.preempt
  else if n = 0x20C then r.dom
  else if n = 0x210 then r.tringBase
  else if n = 0x211 then r.tringSize
  else if n = 0x212 then r.tringOvf
  else if n = 0x220 then (match ag with | .iluet => s.iluetMig | _ => k.migThresh)
  else if n = 0x228 then k.tapTbase
  else if n = 0x230 then r.plbCtl
  else if n = 0x231 then r.plbFva
  else if n = 0x400 then s.fw.fvec
  else if n = 0x401 then s.fw.fpc
  else if n = 0x402 then s.fw.fcause
  else if n = 0x403 then s.fw.finfo
  else if n = 0x404 then s.fw.fstat
  else 0

/-! ## Writing -/

/-- Replaces the bits of a mask. -/
def mix (mask old v : W64) : W64 := (v &&& mask) ||| (old &&& ~~~mask)

/-- tmr.cmp is written: TIMER falls due when time reaches a non-zero value (R166). A chunk that writes it first keeps what was pending (R494). -/
def State.setTimer (s : State) (ag : Agent) (v : W64) : State :=
  let s := s.modCtx ag fun c =>
    { c with r := { c.r with tmrCmp := v },
             chunk := if c.chunk.run && c.chunk.timer.isNone then { c.chunk with timer := some ((c.pend.find? (fun e => e.1 = cTIMER)).map (·.2)) } else c.chunk }
  if v = 0 then s else s.at (Nat.max v.toNat s.time) .timer [ag.code]

/-- A write of ctx.preempt (R357, R370, R371): cancel acts first; in a resident caravan the request goes to the scheduler as a store of
caravan.id to PREEMPT, and a cancel abandons the caravan's request; what one core sends to the scheduler goes in the order of the writes. -/
def State.writePreempt (s : State) (ag : Agent) (v : Nat) : State :=
  let s := (s.notePre ag).modR ag (fun r => { r with preDlv := bit v 1 })
  match ag with
  | .ctx core _ =>
    let k := s.core core
    let ask (s : State) (row : Instr) (args : List Nat) : State := s.send { chan := 2 ^ 81 + core, ev := ⟨row, ag.code :: args⟩ }
    let s := if bit v 8 then (if k.resident then ask s .preemptCancel [] else s.clearPreempt ag) else s
    if bit v 0 then
      if k.resident then
        (match s.partOf ag with
         | some p => ask s .schedPreempt [p, k.caravanId.toNat]
         | none => s)
      else if (s.regs ag).preReq then s else s.requestPreempt ag
    else s
  | _ => s

/-- A write of ctx.dom: refused, with a record, for a domain of another partition or on a core of none (R423). -/
def State.writeDom (s : State) (ag : Agent) (v : Nat) : State :=
  match ag with
  | .ctx core n =>
    let e : ErrRec := { dom := s.supDomOf core, src := 1, sub := 2, ctx := n, loc := coreId core, w4 := v, core := some core }
    match s.partOfCol (colOf core) with
    | none => s.record { e with fw := true, log := true }
    | some p =>
      if bits v 15 10 ≠ p then s.record e
      else s.modR ag (fun r => { r with dom := n64 (v % 2 ^ 16) })
  | _ => s.modR ag (fun r => { r with dom := n64 (v % 2 ^ 16) })

/-- A write of a bank format; 9 to 15 raise ILLEGAL (R47, R48). The Iluet has no scratchpad: its bank formats read as zero, and a write of one does nothing
(DESIGN CHOICE, log 67). -/
def State.writeBfmt (s : State) (ag : Agent) (b : Nat) (v : Nat) (word : W64) : Try State :=
  if 8 < v % 16 then .error (.trap { cause := cILLEGAL, info := word })
  else match ag with
    | .ctx core _ => .ok (s.modCore core (fun k => { k with bfmt := put b (v % 16) k.bfmt }))
    | _ => .ok s

/-- Writes a special register, each field by its access code (R3, R4, R95). -/
def State.srWrite (s : State) (ag : Agent) (n : Nat) (v : W64) (word : W64) : Try State :=
  let ok (f : Regs → Regs) : Try State := .ok (s.modR ag f)
  if n = 0x000 then ok (fun r => { r with fx := v &&& fxMask })
  else if n = 0x001 then ok (fun r => { r with uvec := v &&& ~~~(1#64) })
  else if n = 0x002 then ok (fun r => { r with upc := v })
  else if n = 0x003 then ok (fun r => { r with ucause := v &&& 0xFF#64 })
  else if n = 0x004 then ok (fun r => { r with uinfo := v })
  else if n = 0x005 then ok (fun r => { r with uie := v &&& 0xF00023300#64 })
  else if n = 0x006 then ok (fun r => { r with lmbase := v })
  else if n = 0x007 then .ok (s.setTimer ag v)
  else if n = 0x008 then ok (fun r => { r with rank := v &&& 7#64 })
  else if n = 0x009 then ok (fun r => { r with tchk := v &&& 31#64 })
  else if n = 0x010 then ok (fun r => { r with loop0 := { r.loop0 with start := v &&& ~~~(1#64) } })
  else if n = 0x011 then ok (fun r => { r with loop0 := { r.loop0 with stop := v &&& ~~~(1#64) } })
  else if n = 0x012 then ok (fun r => { r with loop0 := { r.loop0 with count := v } })
  else if n = 0x013 then ok (fun r => { r with loop1 := { r.loop1 with start := v &&& ~~~(1#64) } })
  else if n = 0x014 then ok (fun r => { r with loop1 := { r.loop1 with stop := v &&& ~~~(1#64) } })
  else if n = 0x015 then ok (fun r => { r with loop1 := { r.loop1 with count := v } })
  else if 0x018 ≤ n ∧ n ≤ 0x01F then ok (fun r => r.setPW (n - 0x018) (v &&& 0x8FFFFFFFFFFFFFFF#64))
  else if 0x020 ≤ n ∧ n ≤ 0x027 then s.writeBfmt ag (n - 0x020) v.toNat word
  else if n = 0x200 then ok (fun r => { r with svec := v &&& ~~~(1#64) })
  else if n = 0x201 then ok (fun r => { r with spc := v })
  else if n = 0x202 then ok (fun r => { r with scause := v &&& 0x8000000000FFFFFF#64 })
  else if n = 0x203 then ok (fun r => { r with sinfo := v })
  else if n = 0x204 then ok (fun r => { r with sstat := v &&& 0x3F#64 })
  else if n = 0x205 then ok (fun r => { r with sscratch := v })
  else if n = 0x209 then ok (fun r => { r with safedl := v &&& 0xFFFFFFFF#64 })
  else if n = 0x20A then ok (fun r => { r with save := v &&& ~~~(0xFFF#64) })
  else if n = 0x20B then .ok (s.writePreempt ag v.toNat)
  else if n = 0x20C then .ok (s.writeDom ag v.toNat)
  else if n = 0x210 then ok (fun r => { r with tringBase := v &&& ~~~(0x1F#64) })
  else if n = 0x211 then ok (fun r => { r with tringSize := mix 0xFFFF00000000FFFF#64 r.tringSize v &&& 0xFFFFFFFF0000FFFF#64 })
  else if n = 0x212 then ok (fun r => { r with tringOvf := r.tringOvf &&& ~~~v })
  else if n = 0x220 then .ok (match ag with | .ctx core _ => s.modCore core (fun k => { k with migThresh := v }) | _ => { s with iluetMig := v })
  else if n = 0x228 then
    .ok (match ag with | .ctx core _ => s.modCore core (fun k => { k with tapTbase := v &&& ~~~(0x3FF#64) }) | _ => s)
  else if n = 0x230 then ok (fun r => { r with plbCtl := v &&& 0x707#64 })
  else if n = 0x400 then .ok { s with fw := { s.fw with fvec := v &&& ~~~(1#64) } }
  else if n = 0x401 then .ok { s with fw := { s.fw with fpc := v } }
  else if n = 0x402 then .ok { s with fw := { s.fw with fcause := v &&& 0x8000000000FFFFFF#64 } }
  else if n = 0x403 then .ok { s with fw := { s.fw with finfo := v } }
  else if n = 0x404 then .ok { s with fw := { s.fw with fstat := v &&& 0xB#64 } }
  else .ok s

/-- The special registers that stand outside the context's own registers. -/
def srOutside (n : Nat) : Bool := (0x020 ≤ n && n ≤ 0x027) || n = 0x20B || n = 0x220 || n = 0x228 || (0x400 ≤ n && n ≤ 0x404)
/-- A move has written such a register: the chunk notes it (R101). -/
def State.noteWrite (s : State) (ag : Agent) (n : Nat) (old : W64) : State := if srOutside n then s.noteSpecial ag n old else s

/-! ## A domain's error ring (R426) -/

/-- The word of the domain table that err.base (0) or err.size (1) shows, checked with the supervisor domain's rights. Without a table
there is none. -/
def State.errWord (s : State) (ag : Agent) (w : Nat) (write : Bool) : Try (Option (Target × Nat)) :=
  match ag with
  | .ctx core _ =>
    match s.partOfCol (colOf core) with
    | none => .ok none
    | some p =>
      let t := (s.part p).pdomt
      if t = 0 then .ok none else
      let ea := domEntry t (s.regs ag).dom.toNat
      match s.devCheck (some (core, supDom p)) ea 32 { r := !write, w := write } with
      | .error e => .error (.trap { e with info := n64 ea })
      | .ok tg => .ok (some (tg.up ea (8 * w), ea + 8 * w))
  | _ => .ok none

/-- The word as its reader meets it: poison in it raises UE with the granule's address (R401). -/
def State.errTake (s : State) (t : Target) (va : Nat) : Try (State × W64) :=
  match t.key? with
  | some key => (s.consume t.tag? va key 8).map fun s => (s, n64 (leNat (s.devRead t 8)))
  | none => .ok (s, n64 (leNat (s.devRead t 8)))

/-- MFS of err.base or err.size. -/
def State.errRead (s : State) (ag : Agent) (w : Nat) : Try (State × W64) :=
  (s.errWord ag w false).bind fun
    | some (t, va) => s.errTake t va
    | none => .ok (s, 0)

/-- A write of err.base or err.size: reserved bits keep zero, wr stays, so that a write of err.size reads the word too. -/
def State.errWrite (s : State) (ag : Agent) (w : Nat) (v : W64) : Try State :=
  (s.errWord ag w true).bind fun
    | none => .ok s
    | some (t, va) => (if w = 0 then .ok (s, 0) else s.errTake t va).bind fun (s, old) =>
      let new := if w = 0 then v &&& ~~~(0x3F#64) else (mix 0xFFFF00000000FFFF#64 old v) &&& 0xFFFFFFFF0000FFFF#64
      if !s.mayEnter ag (t.granules 8) then .error (.later (s.stallNow ag))
      else .ok (s.devWrite (some ag) t va (leBytes 8 new.toNat))

/-! ## The moves (R95, R120) -/

/-- A move reads its register by `rd`, and writes what `f` makes of the old value and S(a); MTS of err.base or err.size reads nothing first (R426). -/
def srMove (i : Instr) (n : Nat) (a : Option Nat) (d : Option Nat) (f : W64 → W64 → W64) (s : State) :
    Host.Outcome State Fault Refusal :=
  let at_ : Attr := { cls := some 0, reads := a.toList, single := srErr n, before := a.isSome && srEndsChunk n }
  let word := n64 (insWord i)
  match srAllowed s.cur (s.ctx s.cur).lvl n a.isSome with
  | some cause =>
    if legalOn s.cur i then settle s s.cur (.error (.trap { cause := cause, info := word }))
    else settle s s.cur (.error (.trap { cause := cILLEGAL, info := word }))
  | none =>
    runWord i at_ (fun s ag =>
      if n = 0 && 0 < (s.ctx ag).mcmds then .error (.later (s.holdIssue ag))
      else
        match d, a with
        | some d, _ =>
          if srErr n then (s.errRead ag (n - 0x218)).map (fun (s, v) => (s.modR ag (·.setS d v), .fall))
          else .ok (s.modR ag (fun r => r.setS d (s.srRead ag n)), .fall)
        | none, some a =>
          let x := (s.regs ag).S a
          if srErr n then
            let before : Try (State × W64) := match i with
              | .mts .. => .ok (s, 0)
              | _ => s.errRead ag (n - 0x218)
            before.bind fun (s, old) =>
            (s.errWrite ag (n - 0x218) (f old x)).map (fun s => (s, .fall))
          else (s.srWrite ag n (f (s.srRead ag n) x) word).map (fun s' => (s'.noteWrite ag n (s.special ag n), .fall))
        | none, none => .ok (s, .fall)) s

def execMfs (d r : Nat) := srMove (.mfs d r) r none (some d) (fun o _ => o)
def execMts (a r : Nat) := srMove (.mts a r) r (some a) none (fun _ x => x)
def execMset (a r : Nat) := srMove (.mset a r) r (some a) none (fun o x => o ||| x)
def execMclr (a r : Nat) := srMove (.mclr a r) r (some a) none (fun o x => o &&& ~~~x)

/-! ## The happenings such a move is -/

/-- BANK_FORMAT_WRITE: agent, bank, value. The chunk ends first (R48, R97). -/
def execBankFormatWrite (s : State) : Host.Outcome State Fault Refusal :=
  let ag := Agent.ofCode (s.arg 0)
  settle s ag ((s.endChunk ag).bind fun s => s.writeBfmt ag (s.arg 1 % 8) (s.arg 2) (n64 (insWord (.mts 0 (0x20 + s.arg 1 % 8)))))

/-- CTX_DOM_WRITE: agent, value. -/
def execCtxDomWrite (s : State) : Host.Outcome State Fault Refusal :=
  let ag := Agent.ofCode (s.arg 0)
  settle s ag ((s.endChunk ag).map fun s => s.writeDom ag (s.arg 1))

/-- ERR_RING_MOVE: agent, 0 for err.base or 1 for err.size, 0 read or 1 write, value (a read's destination register). -/
def execErrRingMove (s : State) : Host.Outcome State Fault Refusal :=
  let ag := Agent.ofCode (s.arg 0)
  settle s ag ((s.endChunk ag).bind fun s =>
    if s.arg 2 = 0 then (s.errRead ag (s.arg 1 % 2)).map (fun (s, v) => s.modR ag (·.setS (s.arg 3 % 32) v))
    else s.errWrite ag (s.arg 1 % 2) (n64 (s.arg 3)))

/-- PREEMPT_REQUEST: agent. A context of a resident caravan is not requested alone: the core forwards to the scheduler (R370, R371). -/
def execPreemptRequest (s : State) : Host.Outcome State Fault Refusal :=
  let ag := Agent.ofCode (s.arg 0)
  happen (s.writePreempt ag ((if (s.regs ag).preDlv then 2 else 0) + 1))

/-- TIMER: agent. time has reached a non-zero tmr.cmp of a live context (R166, R494). -/
def execTimer (s : State) : Host.Outcome State Fault Refusal :=
  let ag := Agent.ofCode (s.arg 0)
  let v := (s.regs ag).tmrCmp
  happen (if v ≠ 0 ∧ v.toNat ≤ s.time then s.raise ag cTIMER v else s)

end Sys2Proof.Machine
end

