-- ==== Sys2Proof/Machine/Reservoir.lean ====
section
/-!
DEFINITION. The thermal reservoir of a column: requests, admission, ticks, metering, the ends of a reservation, throttling and the
instructions RSV to RWAIT.FIT (R273 to R293), with the operating points of cores (R439 to R442).
-/

namespace Sys2Proof.Machine

open Sys2Proof

/-! ## Amounts (R275 to R279) -/

/-- Out: the sum of held − spent over the admitted reservations of a column. -/
def State.outOf (s : State) (col : Nat) : Nat :=
  ((s.col col).admitted.map (fun a => let c := s.ctx (.ctx a.core a.ctx); c.rsvHeld - c.rsvSpent)).sum

/-- The sum of the pending amounts. -/
def Column.pendSum (k : Column) : Nat := (k.pending.map (·.q)).sum

/-- The pin or the current sense holds the fast throttle (R276, R452). -/
def Power.fast (p : Power) : Bool := p.pin || p.sense

/-- The visible capacity that a tick takes (R276, R424, R451). -/
def State.visibleCap (s : State) (col : Nat) : Nat :=
  if s.power.fast || s.darkCols.contains col then 0
  else
    let fw := min (s.col col).capfw 0xFA000
    let lim := match s.partOfCol col with
      | some p => (s.part p).prsv
      | none => 0xFA000
    min fw (min lim (fw * s.power.scale / 256))

/-- Whether a request fits (R277). -/
def State.fits (s : State) (col q : Nat) : Bool := (s.col col).fill + s.outOf col + q ≤ (s.col col).cap

/-- Admits a request: it becomes the context's reservation, and the core sprints (R278, R280). -/
def State.grantRsv (s : State) (core n q rank : Nat) : State :=
  let s := s.modCtx (.ctx core n) (fun c => { c with rsvHeld := q, rsvSpent := 0 })
  let s := s.modCore core (fun c => { c with holder := some n, rsvNo := c.rsvNo + 1, ctxs := c.ctxs.map (fun e => (e.1, { e.2 with infl := 0 })) })
  (s.modCol (colOf core) (fun k => { k with admitted := k.admitted ++ [⟨core, n, rank⟩] })).repoint core

/-- A pending request completes with a result, and leaves the pending set. -/
def State.completeRsv (s : State) (col : Nat) (r : RsvReq) (res : Nat) : State :=
  (s.modCol col (fun k => { k with pending := k.pending.filter (fun x => !(x.core = r.core && x.ctx = r.ctx)) })).answer (4 * r.core + r.ctx) res

/-! ## Ticks (R275) -/

/-- The order of arbitration: rank descending, then arrival, then core index (R278). Two requests of one core that have come at one instant with equal rank
stand in the order in which they joined the pending list (DESIGN CHOICE, log 72). -/
def RsvReq.before (a b : RsvReq) : Bool :=
  b.rank < a.rank || (a.rank = b.rank && (a.seq < b.seq || (a.seq = b.seq && a.core ≤ b.core)))
def insertReq (r : RsvReq) : List RsvReq → List RsvReq
  | [] => [r]
  | x :: xs => if x.before r then x :: insertReq r xs else r :: x :: xs

/-- Arbitrate (R278). -/
def State.arbitrate (s : State) (col : Nat) : State :=
  let s := s.modCol col (fun k => { k with pending := k.pending.map (fun r => { r with blk := k.hold ≠ 0 && k.hold ≤ r.age }) })
  let order := (s.col col).pending.foldl (fun l r => insertReq r l) []
  let s := (order.foldl (init := (s, (none : Option Nat))) fun (s, barrier) r =>
    if (s.core r.core).holder.isSome then (s.completeRsv col r 2, barrier)
    else if r.rank < barrier.getD 0 then (s, barrier)
    else if s.fits col r.q then ((s.grantRsv r.core r.ctx r.q r.rank).completeRsv col r 0, barrier)
    else if r.blk then (s, some (max (barrier.getD 0) r.rank))
    else (s, barrier)).1
  s.modCol col (fun k => { k with pending := k.pending.map (fun r => { r with age := r.age + 1 }) })

/-- The reservation that Revoke takes next: the lowest rank, of equal ranks the latest admitted (R284). -/
def Column.victim (k : Column) : Option Admitted :=
  k.admitted.foldl (fun v a => match v with
    | none => some a
    | some b => if a.rank ≤ b.rank then some a else some b) none

/-- Revoke (R284). -/
def State.revoke : Nat → State → Nat → State
  | 0, s, _ => s
  | fuel + 1, s, col =>
    let k := s.col col
    if k.fill + s.outOf col ≤ k.cap then s
    else match k.victim with
      | none => s
      | some a =>
        let ag := Agent.ctx a.core a.ctx
        let spent := (s.ctx ag).rsvSpent
        State.revoke fuel ((s.endRsv a.core 3).raise ag cREVOKE (n64 spent)) col

/-- The answer of an RWAIT whose condition holds (R291). -/
def State.rwaitDone (s : State) (col : Nat) (fit : Bool) (x : Nat) : Option Nat :=
  let k := s.col col
  if !fit then (if k.fill ≤ x then some k.fill else none)
  else if k.cap < x then some (2 ^ 64 - 1)
  else if s.fits col x then some k.fill
  else none

/-- Every waiting RWAIT is evaluated. -/
def State.evalRwaits (s : State) (col : Nat) : State :=
  (s.col col).waits.foldl (init := s) fun s w =>
    match s.rwaitDone col w.fit w.q with
    | some v => (s.modCol col (fun k => { k with waits := k.waits.erase w })).answer (4 * w.core + w.ctx) v
    | none => s

/-! ## Temperatures (R443 to R445) -/

/-- Sensor `i` of a column as the registers show it: signed sixteenths of a degree in 16 bits, 0x8000 before the first sample (log 10). -/
def State.sensor (s : State) (col i : Nat) : Nat :=
  match s.shown with
  | none => 0x8000
  | some n => Config.sensor n (16 * col + i) % 2 ^ 16
/-- The greater of two signed readings. -/
def maxTemp (a b : Nat) : Nat := if toSigned 16 a < toSigned 16 b then b else a
/-- tz.dram: the highest of the eight DRAM-tier sensors; tz.max: the highest of all twelve. -/
def State.tzDram (s : State) (col : Nat) : Nat := ((List.range 7).map (fun i => s.sensor col (5 + i))).foldl maxTemp (s.sensor col 4)
def State.tzMax (s : State) (col : Nat) : Nat :=
  [s.sensor col 1, s.sensor col 2, s.sensor col 3, s.tzDram col].foldl maxTemp (s.sensor col 0)

/-- The tests of R445 on one column. -/
def State.testAlert (s : State) (col : Nat) : State :=
  let k := s.col col
  let t := s.tzMax col
  let al := k.alert.toNat
  let l := k.latch.toNat
  let setHi : Bool := !bit l 2 && toSigned 16 (bits al 15 0) ≤ toSigned 16 t
  let hot := bit l 2 || setHi
  let setLo : Bool := hot && toSigned 16 t ≤ toSigned 16 (bits al 31 16)
  if !setHi && !setLo then s else
  let l' := (if setHi || bit l 0 then 1 else 0) + (if setLo || bit l 1 then 2 else 0) + (if hot && !setLo then 4 else 0) + t * 2 ^ 32
  let s := s.modCol col (fun k => { k with latch := n64 l' })
  let note (s : State) (hi : Bool) : State :=
    if bit al 63 then s.raise .iluet cTHERMAL (n64 ((if hi then 2 ^ 16 else 0) + col / 64 * 2 ^ 6 + col % 64)) else s
  let s := if setHi then note s true else s
  if setLo then note s false else s

/-- The registers take the new sample (R275, R444). -/
def State.takeSample (s : State) : State :=
  match s.sampled with
  | none => s
  | some n => (List.range 512).foldl (fun s c => s.testAlert c) { s with shown := some n, sampled := none }

/-- One column's part of a tick after the sensors; a dark column's reservoir stays empty (R435). -/
def State.tickCol (s : State) (col : Nat) : State :=
  let cap := s.visibleCap col
  let dark := s.darkCols.contains col
  let s := s.modCol col fun k =>
    { k with fill := if dark then 0 else (k.fillfw.getD k.fill) - bits k.drainfw.toNat 31 0, fillfw := none, cap := cap,
             drain := bits k.drainfw.toNat 31 0, hold := bits k.drainfw.toNat 47 32, cost := k.costfw }
  let s := State.revoke (s.col col).admitted.length s col
  let s := ((s.col col).pending.filter (fun r => cap < r.q)).foldl (fun s r => s.completeRsv col r 5) s
  ((s.arbitrate col).evalRwaits col).modCol col (fun k => { k with sample := (k.fill, k.cap) })

/-- RESERVOIR_TICK: its instant. Every column's tick; the next is due 1,000 ns after that instant (R275, R453). A column of which nothing is recorded has
nothing to do, and none has in a module that is starting or has failed to (R478). -/
def execReservoirTick (s : State) : Host.Outcome State Fault Refusal :=
  let next (s : State) : State := s.at (s.arg 0 + 1000) .reservoirTick [s.arg 0 + 1000]
  if s.boot.stage ≠ 7 || s.boot.fail then happen (next s)
  else
    let s := s.takeSample
    happen (next ((s.cols.map (·.1)).foldl State.tickCol s))

/-! ## Operating points (R280, R439 to R442, R452) -/

/-- VF_REQ_WRITE: agent, column, value (R440). -/
def execVfReqWrite (s : State) : Host.Outcome State Fault Refusal := happen (s.writeVf (s.arg 1) (s.arg 2))

/-- SUPPLY_SETTLE: core or column, 1 up or 0 down, 0 for a core and 1 for a column (R280, R441). -/
def execSupplySettle (s : State) : Host.Outcome State Fault Refusal := happen (s.settleSupply (s.arg 2) (s.arg 0) (s.arg 1 = 1))

/-- RATIO_SWITCH: 0 and a core, 1 and a column, 2 and 1 or 0 for the division of every clock by the fast throttle or its end; then 0 where the change
begins with the draining of the crossing FIFO, 1 where the ratio switches. Nothing in the FIFO is lost, doubled or put in another order (R442, R452). -/
def execRatioSwitch (s : State) : Host.Outcome State Fault Refusal :=
  happen (if s.arg 2 = 0 then s.beginDrain (s.arg 0) (s.arg 1) else s.switchRatio (s.arg 0) (s.arg 1))

/-! ## Throttle levels (R287, R446) -/

/-- throt.level takes max(fw, arb); a change raises THROTTLE in every live context of the column whose uie.throttle is 1. -/
def State.setThrottle (s : State) (col : Nat) (fw arb : Nat) : State :=
  let old := (s.col col).level
  let new := max fw arb
  let s := s.modCol col (fun k => { k with thrFw := fw, thrArb := arb, level := new })
  if old = new then s else
  s.cores.foldl (init := s) fun s e =>
    if colOf e.1 ≠ col then s else
    (List.range 4).foldl (init := s) fun s n =>
      if bit (s.regs (.ctx e.1 n)).uie.toNat 34 then s.raise (.ctx e.1 n) cTHROTTLE (n64 (old * 2 ^ 8 + new)) else s

/-- THROT_FW_WRITE: agent, column, value. -/
def execThrotFwWrite (s : State) : Host.Outcome State Fault Refusal :=
  happen (s.setThrottle (s.arg 1) (bits (s.arg 2) 11 8) (s.col (s.arg 1)).thrArb)
/-- RSV_FILLFW_WRITE: agent, column, value (R447). -/
def execRsvFillfwWrite (s : State) : Host.Outcome State Fault Refusal :=
  happen (s.modCol (s.arg 1) (fun k => { k with fillfw := some (bits (s.arg 2) 31 0) }))

/-! ## The instructions (R288 to R292) -/

/-- The instruction completes with a result. -/
def rsvFinish (d res : Nat) (s : State) (ag : Agent) : State × Next :=
  ((s.modR ag (·.setS d (n64 res))).modCtx ag (fun c => { c with rsvState := (c.rsvState &&& ~~~(0xF#64)) ||| n64 res }), .fall)

/-- What a context that has asked the arbiter finds: its answer, or that it still waits. -/
def State.answered (s : State) (ag : Agent) : Option (Option Nat) :=
  let c := s.ctx ag
  if c.asked = some evAsk then some (c.reply.bind (·.head?)) else none

/-- RSV and RSVT (R289). -/
def rsvStep (try_ : Bool) (d a : Nat) (s : State) (ag : Agent) : Try (State × Next) :=
  match ag with
  | .ctx core n =>
    match s.answered ag with
    | some (some res) => .ok (rsvFinish d res s ag)
    | some none => .error (.later (s.waitFor ag 2))
    | none =>
      let q := ((s.regs ag).S a).toNat
      let col := colOf core
      let k := s.col col
      let rank := (s.regs ag).rank.toNat % 8
      if q = 0 ∨ 2 ^ 32 ≤ q then .ok (rsvFinish d 4 s ag)
      else if (s.core core).holder = some n then .ok (rsvFinish d 3 s ag)
      else if (s.core core).holder.isSome then .ok (rsvFinish d 2 s ag)
      else if k.cap < q then .ok (rsvFinish d 5 s ag)
      else if try_ then
        if k.fill + s.outOf col + k.pendSum + q ≤ k.cap && !k.pending.any (·.blk) then
          .ok (rsvFinish d 0 (s.grantRsv core n q rank) ag)
        else .ok (rsvFinish d 1 s ag)
      else
        let s := s.modCol col (fun k => { k with pending := k.pending ++ [{ core := core, ctx := n, q := q, rank := rank, seq := s.time }] })
        .error (.later (s.waitFor ag 2))
  | _ => .ok (s, .fall)

def execRsv (d a : Nat) (s : State) : Host.Outcome State Fault Refusal :=
  runWord (.rsv d a) { cls := none, single := true, reads := [a] } (rsvStep false d a) s
def execRsvt (d a : Nat) (s : State) : Host.Outcome State Fault Refusal :=
  runWord (.rsvt d a) { cls := none, single := true, reads := [a] } (rsvStep true d a) s

/-- RREL (R290): what the end returns to the pool, after the instructions in flight have been charged. -/
def execRrel (d : Nat) (s : State) : Host.Outcome State Fault Refusal :=
  runWord (.rrel d) { cls := none, single := true } (fun s ag =>
    match ag with
    | .ctx core n =>
      if (s.core core).holder ≠ some n then .ok (s.modR ag (·.setS d 0), .fall)
      else if (s.core core).running n ≠ 0 then .error (.later (s.stallNow ag))
      else
        let c := s.ctx ag
        .ok ((s.endRsv core 1).modR ag (·.setS d (n64 (c.rsvHeld - c.rsvSpent))), .fall)
    | _ => .ok (s, .fall)) s

/-- RWAIT and RWAIT.FIT (R291). -/
def rwaitStep (fit : Bool) (d a : Nat) (s : State) (ag : Agent) : Try (State × Next) :=
  match ag with
  | .ctx core n =>
    match s.answered ag with
    | some (some v) => .ok (s.modR ag (·.setS d (n64 v)), .fall)
    | some none => .error (.later (s.waitFor ag 3))
    | none =>
      let x := bits ((s.regs ag).S a).toNat 31 0
      match s.rwaitDone (colOf core) fit x with
      | some v => .ok (s.modR ag (·.setS d (n64 v)), .fall)
      | none => .error (.later ((s.modCol (colOf core) (fun k => { k with waits := k.waits ++ [⟨core, n, fit, x⟩] })).waitFor ag 3))
  | _ => .ok (s, .fall)
def execRwait (d a : Nat) (s : State) : Host.Outcome State Fault Refusal :=
  runWord (.rwait d a) { cls := none, single := true, reads := [a] } (rwaitStep false d a) s
def execRwaitFit (d a : Nat) (s : State) : Host.Outcome State Fault Refusal :=
  runWord (.rwaitFit d a) { cls := none, single := true, reads := [a] } (rwaitStep true d a) s

/-- RRD (R292). -/
def execRrd (d a : Nat) (s : State) : Host.Outcome State Fault Refusal :=
  runWord (.rrd d a) { cls := none, single := true, reads := [a] } (fun s ag =>
    match ag with
    | .ctx core n =>
      if 0 < (s.ctx ag).mcmds then .error (.later (s.holdIssue ag))
      else
        let col := colOf core
        let k := s.col col
        let dark := s.darkCols.contains col
        let c := s.ctx ag
        let v := match bits ((s.regs ag).S a).toNat 1 0 with
          | 0 => if dark then 0 else n64 (k.cap * 2 ^ 32 + k.fill)
          | 1 => n64 (c.rsvHeld * 2 ^ 32 + c.rsvSpent)
          | 2 => s.rsvStateOf core n
          | _ => n64 (k.pendSum * 2 ^ 32 + s.outOf col)
        .ok (s.modR ag (·.setS d v), .fall)
    | _ => .ok (s, .fall)) s

/-- SPRINT_CUT: agent. What was in flight has been charged: the reservation ends, and the instruction held at issue traps if its context stands there
still (R283). -/
def execSprintCut (s : State) : Host.Outcome State Fault Refusal :=
  match Agent.ofCode (s.arg 0) with
  | .ctx core n =>
    match (s.core core).cut with
    | some (m, k, here) =>
      if m = n && here && (s.ctx (.ctx core n)).st = .stalled && s.cutReady core n then settle s (.ctx core n) (.error (s.cutAt core n k))
      else if !here && (s.core core).inflight = 0 then happen (s.endCut core k)
      else happen s
    | none => happen s
  | _ => happen s

end Sys2Proof.Machine
end

