-- ==== Sys2Proof/Machine/Power.lean ====
section
/-!
DEFINITION. The power block and the time block: sensor and power samples, the current arbiter, the fast throttle, `time`, collective slack
control (R444, R449 to R457, R476).
-/

namespace Sys2Proof.Machine

open Sys2Proof

def State.modPower (s : State) (f : Power → Power) : State := { s with power := f s.power }
/-- What falls at multiples of 10,000 ns is due again 10,000 ns after the instant that it has fallen at. -/
def State.next10 (s : State) (row : Instr) : State := s.at (s.arg 0 + 10000) row [s.arg 0 + 10000]

/-! ## Samples -/

/-- SENSOR_SAMPLE: its instant. Every sensor is sampled; the registers take the sample at the tick of the same instant (R444). -/
def execSensorSample (s : State) : Host.Outcome State Fault Refusal := happen ({ s with sampled := some s.seq }.next10 .sensorSample)

/-- CURRENT is raised at the Iluet. -/
def State.current (s : State) (info : Nat) : State := s.raise .iluet cCURRENT (n64 info)

/-- The arbiter's step at a power of `p` watts: the first row of R451 that holds. -/
def State.arbiterStep (s : State) (p : Nat) : State :=
  let w := s.power
  let s := s.modPower (fun w => { w with power := p })
  if w.high < p ∧ 0 < w.scale then
    let a := w.scale - w.step
    let s := s.modPower (fun w => { w with scale := a })
    if a = 0 then s.current 2 else s
  else if w.high < p then
    ((List.range 512).filter (fun c => (s.partOfCol c).isSome)).foldl (init := s) fun s c =>
      s.setThrottle c (s.col c).thrFw (min 15 ((s.col c).thrArb + 1))
  else if p < w.low ∧ s.cols.any (fun e => 0 < e.2.thrArb) then
    ((s.cols.filter (fun e => 0 < e.2.thrArb)).map (·.1)).foldl (init := s) fun s c =>
      s.setThrottle c (s.col c).thrFw ((s.col c).thrArb - 1)
  else if p < w.low ∧ w.scale < 256 then s.modPower (fun x => { x with scale := min 256 (w.scale + w.step) })
  else s

/-- ARBITER_SAMPLE: its instant. The module's power is a free reading (log 10). -/
def execArbiterSample (s : State) : Host.Outcome State Fault Refusal :=
  happen ((s.arbiterStep (Config.sensor s.seq (2 ^ 20) % 2 ^ 16)).next10 .arbiterSample)

/-! ## The fast throttle (R452) -/

/-- A source asserts the fast throttle for a time: latches set, CURRENT is raised, and within 1 µs the clocks are divided. -/
def State.fastAssert (s : State) (pin : Bool) (ns : Nat) : State :=
  let s := s.modPower fun p =>
    if pin then { p with pin := true, lpin := true, pinEnd := Nat.max p.pinEnd (s.time + ns) }
    else { p with sense := true, lsense := true, senseEnd := Nat.max p.senseEnd (s.time + ns) }
  let s := s.current (if pin then 1 else 0)
  let s := if s.power.act && s.power.drain.isNone then s else s.askRatio 2 1 (Config.lapse s.seq % 501)
  s.at (s.time + ns) .fastThrottleRelease []

/-- FTHR_N_ASSERT: for how many ns the pin is held low; less than 100 ns asserts nothing. -/
def execFthrNAssert (s : State) : Host.Outcome State Fault Refusal :=
  happen (if s.arg 0 < 100 then s else s.fastAssert true (s.arg 0))
/-- CURRENT_SENSE_ASSERT: for how many ns the current exceeds its value. -/
def execCurrentSenseAssert (s : State) : Host.Outcome State Fault Refusal := happen (s.fastAssert false (s.arg 0))

/-- FAST_THROTTLE_RELEASE: a source may have cleared; when both have been clear for FT.CTL.hold µs the clocks return (R452). -/
def execFastThrottleRelease (s : State) : Host.Outcome State Fault Refusal :=
  let p := s.power
  let pin := p.pin && s.time < p.pinEnd
  let sense := p.sense && s.time < p.senseEnd
  let now : Bool := (p.pin || p.sense) && !pin && !sense
  let p := { p with pin := pin, sense := sense, clearAt := if now then s.time else p.clearAt }
  let s := { s with power := p }
  let due := p.clearAt + 1000 * (max 1 p.hold)
  if pin || sense then happen s
  else if s.time < due then happen (if now then s.lookRelease else s)
  else if p.act then happen (s.askRatio 2 0 0)
  else happen s

/-! ## `time` (R453, R454) -/

def State.locked (s : State) : Bool := s.tm.ctl.getLsbD 0

/-- Whether the barrier that CS.BAR names has a waiter. -/
def State.slackWaiter (s : State) : Bool :=
  let b := s.power.csBar.toNat
  (s.evUnit (64 * bits b 20 18 + bits b 17 12)).waits.any (fun w => w.kind = .arrive && w.n = bits b 4 0)

/-- Time passes to an instant: a waiter at the collective barrier counts towards W (R457). -/
def State.passTo (s : State) (t : Nat) : State :=
  let d := t - s.time
  let s := if s.slackWaiter then s.modPower (fun p => { p with waited := p.waited + d }) else s
  { s with time := Nat.max t s.time }

/-- TM_STEP: agent, value. A positive count steps `time` forward while lock is 0; each tick, sample and window that it crosses falls, in the order of their
instants, before anything else happens (R453; DEDUCED, log 35). -/
def State.tmStep (s : State) (v : Nat) : State :=
  if s.locked || 0 < bits v 63 63 then s else s.passTo (s.time + v % 2 ^ 63)
def execTmStep (s : State) : Host.Outcome State Fault Refusal := happen (s.tmStep (s.arg 1))

/-! ## Messages of the time unit (R454, R476)

Event messages and what belongs to them, by the numbers of IEEE 1588-2019 (PRESUMED, log 74): 0 Sync, 1 Delay_Req, 2 Pdelay_Req, 3 Pdelay_Resp, 8 Follow_Up,
9 Delay_Resp, 10 Pdelay_Resp_Follow_Up. A timestamp of 80 bits holds seconds in bits 79:32 and nanoseconds in bits 31:0. -/

/-- `time` as a timestamp, and the nanoseconds of a timestamp. -/
def stampOf (t : Nat) : Nat := t / 1000000000 % 2 ^ 48 * 2 ^ 32 + t % 1000000000
def stampNs (w : Nat) : Nat := w / 2 ^ 32 * 1000000000 + w % 2 ^ 32

def State.tmPort (s : State) (p : Nat) : TmPort := look {} s.tm.ports p
def State.setTmPort (s : State) (p : Nat) (x : TmPort) : State := { s with tm := { s.tm with ports := put p x s.tm.ports } }

/-- A message leaves through a port: its type, the domain number, its sequence id, a timestamp. -/
def State.tmSend (s : State) (port type id stamp : Nat) : State :=
  s.out (0x3000 + port) [type, bits s.tm.ctl.toNat 15 8, id, stamp]

/-- A synchronisation shows an offset from the master: lock sets after 16 consecutive ones of at most 10 ns, and clears at the first above 100 ns. The rate
correction is the servo's, within 200 ppm (log 4). -/
def State.synchronise (s : State) (ofs : Int) : State :=
  let o := ofs.natAbs
  let good := if o ≤ 10 then min 16 (s.tm.good + 1) else 0
  let lock : Bool := if 100 < o then false else if good = 16 then true else s.locked
  let rate : Int := (Config.lapse s.seq % 400001 : Nat) - (200000 : Int)
  { s with tm := { s.tm with ctl := (s.tm.ctl &&& ~~~(1#64)) ||| (if lock then 1 else 0), ofs := w64 ofs, rate := w64 rate, good := good } }

/-- A message of the present domain comes in through a port that is enabled, at the present `time`, which its receive timestamp is. A follower takes Sync with
its Follow_Up (two steps), and the answers to its own delay requests; a grandmaster answers delay requests; peer-delay requests are answered by all. -/
def State.tmReceive (s : State) (port dom type id stamp : Nat) : State :=
  let c := s.tm.ctl.toNat
  let p := s.tmPort port
  let role := bits c 2 1
  if bit c (32 + port) = false ∨ bits c 15 8 ≠ dom then s
  else
    match type with
    | 0 => if role = 1 then s.setTmPort port { p with sync := some (id, s.time) } else s
    | 8 =>
      match p.sync with
      | some (q, t2) =>
        if role = 1 ∧ q = id then
          (s.setTmPort port { p with sync := none, last := some (stampNs stamp, t2) }).synchronise ((t2 : Int) - stampNs stamp - p.delay)
        else s
      | none => s
    | 1 => if role = 2 then s.tmSend port 9 id (stampOf s.time) else s
    | 9 =>
      match p.asked, p.last with
      | some (q, t3), some (t1, t2) =>
        if role = 1 ∧ q = id then
          s.setTmPort port { p with asked := none, delay := (((t2 : Int) - t1) + ((stampNs stamp : Int) - t3)) / 2 }
        else s
      | _, _ => s
    | 2 => (s.tmSend port 3 id (stampOf s.time)).tmSend port 10 id (stampOf s.time)
    | 3 =>
      match p.peerAsked with
      | some (q, _) => if q = id then s.setTmPort port { p with peerResp := some (id, stampNs stamp, s.time) } else s
      | none => s
    | 10 =>
      match p.peerAsked, p.peerResp with
      | some (q, t1), some (q', t2, t4) =>
        if q = id ∧ q' = id then
          s.setTmPort port { p with peerAsked := none, peerResp := none,
                                    delay := (((t4 : Int) - t1) - ((stampNs stamp : Int) - t2)) / 2 }
        else s
      | _, _ => s
    | _ => s

/-- What the time unit sends through a port on its own: a grandmaster Sync and its Follow_Up, a follower a delay request or a peer-delay request. Transmit
timestamps are the present `time`. -/
def State.tmAsk (s : State) (port : Nat) : State :=
  let id := s.tm.id
  let p := s.tmPort port
  match bits s.tm.ctl.toNat 2 1 with
  | 1 =>
    if Config.choice s.seq % 2 = 0 then (s.setTmPort port { p with asked := some (id, s.time) }).tmSend port 1 id 0
    else (s.setTmPort port { p with peerAsked := some (id, s.time), peerResp := none }).tmSend port 2 id 0
  | 2 => (s.tmSend port 0 id 0).tmSend port 8 id (stampOf s.time)
  | _ => s

/-- The next occasion on which the unit sends: the intervals are the firmware's servo's, of which no register is given, and free (log 74). -/
def State.tmArm (s : State) : State :=
  let role := bits s.tm.ctl.toNat 2 1
  if (role = 1 ∨ role = 2) ∧ !s.agenda.any (fun e => e.2.row = .timingMessage) then s.at (s.time + 1 + Config.lapse s.seq) .timingMessage [1] else s

/-- TIMING_MESSAGE: 0 and a message that a host port has brought: port (16 or 17; 0 to 15 are the trail links), domain number, type, sequence id, timestamp. Or 1:
the unit sends on its own through every port that is enabled, in the role that TM.CTL names. -/
def execTimingMessage (s : State) : Host.Outcome State Fault Refusal :=
  if s.arg 0 = 0 then happen (s.tmReceive (s.arg 1 % 18) (s.arg 2) (s.arg 3) (s.arg 4) (s.arg 5))
  else
    let ports := (List.range 18).filter (fun p => bit s.tm.ctl.toNat (32 + p))
    let s := ports.foldl State.tmAsk s
    happen ({ s with tm := { s.tm with id := (s.tm.id + 1) % 2 ^ 16 } }.tmArm)

/-! ## Collective slack control (R456, R457) -/

/-- Whether B would stay at 300 mV or above in every column under a slack offset. -/
def State.roomFor (s : State) (k : Nat) : Bool := (List.range 512).all (fun c => 300 + 25 * k ≤ bits (s.col c).vfReq.toNat 8 0)

/-- The control step at the end of a window with wait `w`. -/
def State.slackStep (s : State) (w : Nat) : State :=
  let p := s.power
  match p.fresh, p.figures with
  | true, f :: fs =>
    let least := fs.foldl (fun m e => min m e.2) f.2
    let sl : Int := (least : Int) - w
    let low := toSigned 32 (bits p.csBand.toNat 31 0)
    let high := toSigned 32 (bits p.csBand.toNat 63 32)
    let nl := if sl < low then min 15 (p.nl + 1) else 0
    let nh := if sl < low then 0 else if high < sl then min 15 (p.nh + 1) else 0
    let rested : Bool := match p.raisedAt with | none => true | some t => t + 100000 ≤ s.time
    let p := { p with slack := ofSigned 32 sl, nl := nl, nh := nh, fresh := false }
    if 3 ≤ nl && rested && s.roomFor (p.k + 1) then
      { s with power := { p with k := p.k + 1, nl := 0, raisedAt := some s.time } }.rebaseAll
    else if 5 ≤ nh && 0 < p.k then { s with power := { p with k := p.k - 1, nh := 0 } }.rebaseAll
    else { s with power := p }
  | _, _ => s.modPower (fun p => { p with nl := 0, nh := 0, fresh := false })

/-- SLACK_WINDOW: its instant. The module takes W, publishes it on the links of CS.CTL and steps its control. What `time` has run beyond the instant, where it
has been stepped, belongs to the next window. -/
def execSlackWindow (s : State) : Host.Outcome State Fault Refusal :=
  let rest := if s.slackWaiter then min s.power.waited (s.time - s.arg 0) else 0
  let w := min (s.power.waited - rest) 10000
  let s := (s.modPower (fun p => { p with waited := rest })).next10 .slackWindow
  if s.power.csCtl.getLsbD 0 = false then happen (s.modPower (fun p => { p with fresh := false }))
  else
    let s := ((List.range 16).filter (fun l => bit s.power.csCtl.toNat (16 + l))).foldl (fun s l => s.out (0x2000 + l) [w]) s
    happen ((s.modPower (fun p => { p with wait := w })).slackStep w)

/-- SLACK_FIGURE: peer, wait. -/
def execSlackFigure (s : State) : Host.Outcome State Fault Refusal :=
  happen (s.modPower (fun p => { p with figures := put (s.arg 0) (s.arg 1) p.figures, fresh := true }))

/-! ## The registers of the column, power and time blocks (R443, R449, R454) -/

/-- A register of a column's block. -/
def State.colRead (s : State) (col off : Nat) : W64 :=
  let k := s.col col
  if off = 0x000 then n64 (s.sensor col 0)
  else if off = 0x008 then n64 (s.sensor col 1)
  else if off = 0x010 then n64 (s.sensor col 2)
  else if off = 0x018 then n64 (s.tzDram col)
  else if off = 0x020 then n64 (s.sensor col 3)
  else if off = 0x028 then n64 (s.tzMax col)
  else if off = 0x030 then k.alert
  else if off = 0x038 then k.latch
  else if off = 0x040 then n64 (k.thrArb * 2 ^ 16 + k.thrFw * 2 ^ 8 + k.level)
  else if off = 0x048 then n64 k.capfw
  else if off = 0x050 then k.drainfw
  else if off = 0x058 then k.stallMem
  else if off = 0x060 then k.stallIssue
  else if off = 0x068 then k.vfReq
  else if off = 0x070 then s.vfState col
  else if 0x080 ≤ off ∧ off < 0x100 ∧ off % 8 = 0 then n64 (look 0 k.costfw ((off - 0x80) / 8))
  else 0

/-- A store to a register of a column's block. -/
def State.colWrite (s : State) (col off : Nat) (v : W64) : State :=
  if off = 0x030 then s.modCol col (fun k => { k with alert := v &&& 0x80000000FFFFFFFF#64 })
  else if off = 0x038 then s.modCol col (fun k => { k with latch := k.latch &&& ~~~(v &&& 3#64) })
  else if off = 0x040 then s.setThrottle col (bits v.toNat 11 8) (s.col col).thrArb
  else if off = 0x048 then s.modCol col (fun k => { k with capfw := min (bits v.toNat 31 0) 0xFA000 })
  else if off = 0x050 then s.modCol col (fun k => { k with drainfw := v &&& 0x0000FFFFFFFFFFFF#64 })
  else if off = 0x058 then s.modCol col (fun k => { k with stallMem := v })
  else if off = 0x060 then s.modCol col (fun k => { k with stallIssue := v })
  else if off = 0x068 then s.writeVf col v.toNat
  else if off = 0x070 then (if v.getLsbD 0 then s.modCol col (fun k => { k with vfDeny := false }) else s)
  else if off = 0x078 then s.modCol col (fun k => { k with fillfw := some (bits v.toNat 31 0) })
  else if 0x080 ≤ off ∧ off < 0x100 ∧ off % 8 = 0 then
    s.modCol col (fun k => { k with costfw := put ((off - 0x80) / 8) (bits v.toNat 15 0) k.costfw })
  else s

/-- A register of the power block. -/
def State.powRead (s : State) (off : Nat) : W64 :=
  let p := s.power
  let f (b : Bool) (n : Nat) := if b then 2 ^ n else 0
  if off = 0x000 then n64 p.budget
  else if off = 0x008 then n64 p.high
  else if off = 0x010 then n64 p.low
  else if off = 0x018 then n64 p.step
  else if off = 0x020 then n64 p.power
  else if off = 0x028 then n64 p.scale
  else if off = 0x030 then n64 (p.hold * 2 ^ 16 + f p.lsense 9 + f p.lpin 8 + f p.act 2 + f p.sense 1 + f p.pin 0)
  else if off = 0x038 then p.csCtl
  else if off = 0x040 then p.csBand
  else if off = 0x048 then p.csBar
  else if off = 0x050 then n64 (p.slack * 2 ^ 32 + p.wait * 2 ^ 16 + p.k * 2 ^ 12 + p.nh * 2 ^ 8 + p.nl * 2 ^ 4)
  else if 0x100 ≤ off ∧ off < 0x148 ∧ off % 8 = 0 then n64 (fuse ((off - 0x100) / 8))
  else 0

/-- A store to a register of the power block. Writes that would cross the bands are ignored (R450, R456). -/
def State.powWrite (s : State) (off : Nat) (v : W64) : State :=
  let p := s.power
  let x := bits v.toNat 15 0
  if off = 0x000 then { s with power := { p with budget := min x 4800 } }
  else if off = 0x008 then (if p.low < x ∧ x ≤ p.budget then { s with power := { p with high := x } } else s)
  else if off = 0x010 then (if x < p.high ∧ p.high ≤ p.budget then { s with power := { p with low := x } } else s)
  else if off = 0x018 then { s with power := { p with step := bits v.toNat 8 0 } }
  else if off = 0x030 then
    let s := { s with power := { p with hold := max 1 (bits v.toNat 31 16), lsense := p.lsense && !v.getLsbD 9, lpin := p.lpin && !v.getLsbD 8 } }
    if p.act && !p.fast then s.lookRelease else s
  else if off = 0x038 then { s with power := { p with csCtl := v &&& 0xFFFF0001#64, k := if v.getLsbD 0 then p.k else 0 } }.rebaseAll
  else if off = 0x040 then
    (if toSigned 32 (bits v.toNat 63 32) ≤ toSigned 32 (bits v.toNat 31 0) then s else { s with power := { p with csBand := v } })
  else if off = 0x048 then { s with power := { p with csBar := v &&& 0x1FF01F#64 } }
  else s

/-- A register of the time block. -/
def State.tmRead (s : State) (off : Nat) : W64 :=
  if off = 0x000 then n64 s.time
  else if off = 0x008 then s.tm.ctl
  else if off = 0x010 then s.tm.ofs
  else if off = 0x018 then s.tm.rate
  else 0

/-- A store to a register of the time block; a role of 3 is ignored. -/
def State.tmWrite (s : State) (off : Nat) (v : W64) : State :=
  if off = 0x008 then
    let keep := if bits v.toNat 2 1 = 3 then 0x7#64 else 0x1#64
    { s with tm := { s.tm with ctl := (v &&& 0x0003FFFF0000FF06#64 &&& ~~~keep) ||| (s.tm.ctl &&& keep) } }.tmArm
  else if off = 0x020 then s.tmStep v.toNat
  else s

end Sys2Proof.Machine
end

