-- ==== Sys2Proof/Machine/Float.lean ====
section
/-!
DEFINITION. The scalar floating instructions (R138, R142 to R146).
-/

namespace Sys2Proof.Machine

open Sys2Proof

/-- The FP32 operand of a scalar register. -/
def Regs.F (r : Regs) (n : Nat) : FVal := fp32.decode ((r.S n).toNat % 2 ^ 32)

/-- A scalar floating instruction: bits of the result, zero-extended, and flags that reach fx.status or raise FPX (R62, R138). -/
def floatOp (i : Instr) (cls d : Nat) (reads : List Nat) (f : Regs → Nat × Flags) : State → Host.Outcome State Fault Refusal :=
  runRegs i cls reads (fun r =>
    let (x, fl) := f r
    (r.withFlags fl (·.setS d (n64 x))).map (fun r => (r, .fall)))

def execFadd (d a b : Nat) := floatOp (.fadd d a b) 8 d [a, b] (fun r => fp32.addOp (r.F a) (r.F b))
def execFsub (d a b : Nat) := floatOp (.fsub d a b) 8 d [a, b] (fun r => fp32.addOp (r.F a) (r.F b).neg)
def execFmul (d a b : Nat) := floatOp (.fmul d a b) 8 d [a, b] (fun r => fp32.mulOp (r.F a) (r.F b))
def execFdiv (d a b : Nat) := floatOp (.fdiv d a b) 9 d [a, b] (fun r => fp32.divOp (r.F a) (r.F b))
def execFsqrt (d a : Nat) := floatOp (.fsqrt d a) 9 d [a] (fun r => fp32.sqrtOp (r.F a))
def execFmin (d a b : Nat) := floatOp (.fmin d a b) 8 d [a, b] (fun r =>
  fp32.minMax false ((r.S a).toNat % 2 ^ 32) ((r.S b).toNat % 2 ^ 32))
def execFmax (d a b : Nat) := floatOp (.fmax d a b) 8 d [a, b] (fun r =>
  fp32.minMax true ((r.S a).toNat % 2 ^ 32) ((r.S b).toNat % 2 ^ 32))
def execFabs (d a : Nat) := floatOp (.fabs d a) 8 d [a] (fun r => ((r.S a).toNat % 2 ^ 31, 0))
def execFneg (d a : Nat) := floatOp (.fneg d a) 8 d [a] (fun r => ((r.S a).toNat % 2 ^ 32 ^^^ 2 ^ 31, 0))
def execFsgnj (d a b : Nat) := floatOp (.fsgnj d a b) 8 d [a, b] (fun r =>
  ((r.S a).toNat % 2 ^ 31 + (if bit (r.S b).toNat 31 then 2 ^ 31 else 0), 0))

/-- A compare gives 1 or 0. -/
def floatCmp (p : Nat) (a b : FVal) : Nat × Flags :=
  let (t, fl) := fcmp p a b
  (if t then 1 else 0, fl)
def execFeq (d a b : Nat) := floatOp (.feq d a b) 8 d [a, b] (fun r => floatCmp 0 (r.F a) (r.F b))
def execFlt (d a b : Nat) := floatOp (.flt d a b) 8 d [a, b] (fun r => floatCmp 1 (r.F a) (r.F b))
def execFle (d a b : Nat) := floatOp (.fle d a b) 8 d [a, b] (fun r => floatCmp 2 (r.F a) (r.F b))
def execFclass (d a : Nat) := floatOp (.fclass d a) 8 d [a] (fun r => (fp32.classMask ((r.S a).toNat % 2 ^ 32), 0))

def execFma (d a b c : Nat) := floatOp (.fma d a b c) 8 d [a, b, c] (fun r => fp32.fma (r.F a) (r.F b) (r.F c))
def execFms (d a b c : Nat) := floatOp (.fms d a b c) 8 d [a, b, c] (fun r => fp32.fma (r.F a) (r.F b) (r.F c).neg)
def execFnma (d a b c : Nat) := floatOp (.fnma d a b c) 8 d [a, b, c] (fun r => fp32.fma (r.F a).neg (r.F b) (r.F c))

/-- The types of FCVT (R146). -/
def cvtFmt : Nat → EFmt
  | 0 => .int 32
  | 1 => .nat 32
  | 2 => .int 64
  | 3 => .nat 64
  | 4 => .flt fp32
  | 5 => .flt fp16
  | _ => .flt bf16

/-- FCVT (R146): an i32 result is sign-extended, every other zero-extended. -/
def execFcvt (d a t s : Nat) := floatOp (.fcvt d a t s) 8 d [a] (fun r =>
  let src := cvtFmt s
  let (x, fl) := convert src (cvtFmt t) 1 ((r.S a).toNat % 2 ^ src.width)
  (if t = 0 then ofSigned 64 (toSigned 32 x) else x, fl))

end Sys2Proof.Machine
end

