-- ==== Sys2Proof/Machine/Vector.lean ====
section
/-!
DEFINITION. The short-vector instructions on registers (R139, R140, R147 to R150, R157, R158).
-/

namespace Sys2Proof.Machine

open Sys2Proof

/-- Element width of a width code. -/
def wBits (w : Nat) : Nat := 8 * 2 ^ w
/-- The elements of a vector register at a width, lowest first. -/
def elems (w : Nat) (v : V256) : List Nat := digits w (256 / w) v.toNat
/-- A vector register of elements. -/
def vecOf (w : Nat) (xs : List Nat) : V256 := BitVec.ofNat 256 (undigits w xs)

/-- A vector instruction on registers: it computes V(d) and the OR of all flags (R139). -/
def vecOp (i : Instr) (cls d : Nat) (f : Regs → V256 × Flags) : State → Host.Outcome State Fault Refusal :=
  runRegs i cls [] (fun r =>
    let (x, fl) := f r
    (r.withFlags fl (·.setV d x)).map (fun r => (r, .fall)))

/-- Element by element on two registers. -/
def zipElems (w : Nat) (x y : V256) (f : Nat → Nat → Nat × Flags) : V256 × Flags :=
  let rs := ((elems w x).zip (elems w y)).map (fun (a, b) => f a b)
  (vecOf w (rs.map (·.1)), rs.foldl (fun fl e => fl ||| e.2) 0)

/-! ## Integer (R147) -/

/-- A vector integer instruction on width code w. -/
def vecInt (i : Instr) (d a b w : Nat) (f : Nat → Nat → Nat × Flags) :=
  vecOp i 10 d (fun r => zipElems (wBits w) (r.V a) (r.V b) f)

/-- The sum or difference of elements, wrapping or clamped to the signed range (R147). -/
def addSat (w : Nat) (sat : Bool) (f : Int → Int → Int) (a b : Nat) : Nat × Flags :=
  let t := f (toSigned w a) (toSigned w b)
  if sat then
    let hi : Int := 2 ^ (w - 1) - 1
    let lo : Int := -(2 ^ (w - 1))
    if hi < t then (ofSigned w hi, fSAT) else if t < lo then (ofSigned w lo, fSAT) else (ofSigned w t, 0)
  else (ofSigned w t, 0)

/-- Whether a < b, signed or unsigned. -/
def elemLt (w u : Nat) (a b : Nat) : Bool := if u = 1 then a < b else toSigned w a < toSigned w b

def allOnes (w : Nat) (p : Bool) : Nat := if p then 2 ^ w - 1 else 0

def execVadd (d a b w s : Nat) := vecInt (.vadd d a b w s) d a b w (addSat (wBits w) (s = 1) (· + ·))
def execVsub (d a b w s : Nat) := vecInt (.vsub d a b w s) d a b w (addSat (wBits w) (s = 1) (· - ·))
def execVmul (d a b w : Nat) := vecInt (.vmul d a b w) d a b w (fun x y => (x * y % 2 ^ wBits w, 0))
def execVmin (d a b w u : Nat) := vecInt (.vmin d a b w u) d a b w (fun x y => (if elemLt (wBits w) u y x then y else x, 0))
def execVmax (d a b w u : Nat) := vecInt (.vmax d a b w u) d a b w (fun x y => (if elemLt (wBits w) u x y then y else x, 0))
def execVand (d a b w : Nat) := vecInt (.vand d a b w) d a b w (fun x y => (x &&& y, 0))
def execVor (d a b w : Nat) := vecInt (.vor d a b w) d a b w (fun x y => (x ||| y, 0))
def execVxor (d a b w : Nat) := vecInt (.vxor d a b w) d a b w (fun x y => (x ^^^ y, 0))
def execVsll (d a b w : Nat) := vecInt (.vsll d a b w) d a b w (fun x y => (x * 2 ^ (y % wBits w) % 2 ^ wBits w, 0))
def execVsrl (d a b w : Nat) := vecInt (.vsrl d a b w) d a b w (fun x y => (x / 2 ^ (y % wBits w), 0))
def execVsra (d a b w : Nat) := vecInt (.vsra d a b w) d a b w (fun x y =>
  (ofSigned (wBits w) (toSigned (wBits w) x / 2 ^ (y % wBits w)), 0))
def execVcmpeq (d a b w : Nat) := vecInt (.vcmpeq d a b w) d a b w (fun x y => (allOnes (wBits w) (x = y), 0))
def execVcmplt (d a b w u : Nat) := vecInt (.vcmplt d a b w u) d a b w (fun x y => (allOnes (wBits w) (elemLt (wBits w) u x y), 0))
/-- VSEL reads the old elements of V(d) as its mask (R147). -/
def execVsel (d a b w : Nat) := vecOp (.vsel d a b w) 10 d (fun r =>
  (vecOf (wBits w) (((elems (wBits w) (r.V d)).zip ((elems (wBits w) (r.V a)).zip (elems (wBits w) (r.V b)))).map
    (fun (m, x, y) => if m ≠ 0 then x else y)), 0))
def execVabs (d a w : Nat) := vecOp (.vabs d a w) 10 d (fun r =>
  (vecOf (wBits w) ((elems (wBits w) (r.V a)).map (fun x => (toSigned (wBits w) x).natAbs % 2 ^ wBits w)), 0))

/-! ## Float (R148, R149) -/

/-- The float format of a code. -/
def vfFmt : Nat → FFmt
  | 0 => fp32
  | 1 => fp16
  | _ => bf16

/-- A vector float instruction, element by element in its own format. -/
def vecFlt (i : Instr) (cls d a b f : Nat) (g : FFmt → Nat → Nat → Nat × Flags) :=
  vecOp i cls d (fun r => zipElems (vfFmt f).width (r.V a) (r.V b) (g (vfFmt f)))

def execVfadd (d a b f : Nat) := vecFlt (.vfadd d a b f) 11 d a b f (fun m x y => m.addOp (m.decode x) (m.decode y))
def execVfsub (d a b f : Nat) := vecFlt (.vfsub d a b f) 11 d a b f (fun m x y => m.addOp (m.decode x) (m.decode y).neg)
def execVfmul (d a b f : Nat) := vecFlt (.vfmul d a b f) 11 d a b f (fun m x y => m.mulOp (m.decode x) (m.decode y))
def execVfdiv (d a b f : Nat) := vecFlt (.vfdiv d a b f) 9 d a b f (fun m x y => m.divOp (m.decode x) (m.decode y))
def execVfmin (d a b f : Nat) := vecFlt (.vfmin d a b f) 11 d a b f (fun m x y => m.minMax false x y)
def execVfmax (d a b f : Nat) := vecFlt (.vfmax d a b f) 11 d a b f (fun m x y => m.minMax true x y)
def execVfcmp (d a b f p : Nat) := vecFlt (.vfcmp d a b f p) 11 d a b f (fun m x y =>
  let (t, fl) := fcmp p (m.decode x) (m.decode y)
  (allOnes m.width t, fl))

/-- VFCVT (R149): the low n elements, padded with zeros to whole SX blocks; all other bits zero. -/
def execVfcvt (d a t s : Nat) := vecOp (.vfcvt d a t s) 11 d (fun r =>
  let src := regFmt s
  let dst := regFmt t
  let n := min src.regCount dst.regCount
  let xs := (src.decodeAll src.regCount (r.V a).toNat).take n
  let xs := xs ++ List.replicate ((dst.group - n % dst.group) % dst.group) (.fin false 0 0)
  let (x, fl) := dst.encodeAll xs
  (BitVec.ofNat 256 x, fl))

/-! ## Fused (R150) -/

/-- VFMA and VFMS: one rounding per element. -/
def vecFma (i : Instr) (d a b c f : Nat) (neg : Bool) :=
  vecOp i 11 d (fun r =>
    let m := vfFmt f
    let rs := ((elems m.width (r.V a)).zip ((elems m.width (r.V b)).zip (elems m.width (r.V c)))).map (fun (x, y, z) =>
      m.fma (m.decode x) (m.decode y) (if neg then (m.decode z).neg else m.decode z))
    (vecOf m.width (rs.map (·.1)), rs.foldl (fun fl e => fl ||| e.2) 0))
def execVfma (d a b c f : Nat) := vecFma (.vfma d a b c f) d a b c f false
def execVfms (d a b c f : Nat) := vecFma (.vfms d a b c f) d a b c f true

/-- A chain of fused multiply-adds in FP32, in increasing index (R75, R77). -/
def fmaChain (acc : Nat) (xs : List (FVal × FVal)) : Nat × Flags :=
  xs.foldl (fun (acc, fl) (x, y) => let (t, g) := fp32.fma x y (fp32.decode acc); (t, fl ||| g)) (acc, 0)

/-- VDOT accumulates into element 0 of V(d); the others are unchanged. -/
def execVdot (d a b : Nat) := vecOp (.vdot d a b) 11 d (fun r =>
  let old := elems 32 (r.V d)
  let (x, fl) := fmaChain (old.getD 0 0)
    (((elems 32 (r.V a)).map fp32.decode).zip ((elems 32 (r.V b)).map fp32.decode))
  (vecOf 32 (x :: old.tail), fl))

/-! ## Element moves (R157) -/

def execVperm (d a b w : Nat) := vecOp (.vperm d a b w) 10 d (fun r =>
  let xs := elems (wBits w) (r.V a)
  (vecOf (wBits w) ((elems (wBits w) (r.V b)).map (fun k => xs.getD k 0)), 0))
def execVbcast (d a w : Nat) := runRegs (.vbcast d a w) 10 [a] (fun r =>
  .ok (r.setV d (vecOf (wBits w) (List.replicate (256 / wBits w) (r.S a).toNat)), .fall))
def execVext (d a x w : Nat) := runRegs (.vext d a x w) 10 [] (fun r =>
  .ok (r.setS d (n64 ((elems (wBits w) (r.V a)).getD x 0)), .fall))
def execVins (d a x w : Nat) := runRegs (.vins d a x w) 10 [a] (fun r =>
  .ok (r.setV d (vecOf (wBits w) ((elems (wBits w) (r.V d)).set x ((r.S a).toNat % 2 ^ wBits w))), .fall))

/-! ## Reductions (R77, R158) -/

/-- The element format of a reduction's type. -/
def redFmt : Nat → EFmt
  | 0 => .flt fp32
  | 1 => .flt fp16
  | 2 => .flt bf16
  | 3 => .int 32
  | 4 => .int 16
  | _ => .int 8

/-- An element exactly as FP32 bits; a signalling NaN stays signalling (R158). -/
def toFp32 (x : FVal) : Nat :=
  match x with
  | .nan true => 0x7F800001
  | v => (fp32.round v).1

/-- A reduction in element index order: floating in FP32, integers exactly in 64 bits. -/
def reduce (i : Instr) (d a t : Nat) (fop : Nat → Nat → Nat × Flags) (iop : Int → Int → Int) :
    State → Host.Outcome State Fault Refusal :=
  match redFmt t with
  | .flt m =>
    floatOp i 11 d [] (fun r =>
      match (elems m.width (r.V a)).map (fun x => toFp32 (m.decode x)) with
      | [] => (0, 0)
      | e :: es => es.foldl (fun (acc, fl) x => let (y, g) := fop acc x; (y, fl ||| g)) (e, 0))
  | f =>
    runRegs i 10 [] (fun r =>
      match (elems f.width (r.V a)).map (toSigned f.width) with
      | [] => .ok (r, .fall)
      | e :: es => .ok (r.setS d (w64 (es.foldl iop e)), .fall))

def execVrsum (d a t : Nat) := reduce (.vrsum d a t) d a t (fun x y => fp32.addOp (fp32.decode x) (fp32.decode y)) (· + ·)
def execVrmax (d a t : Nat) := reduce (.vrmax d a t) d a t (fp32.minMax true) max
def execVrmin (d a t : Nat) := reduce (.vrmin d a t) d a t (fp32.minMax false) min

end Sys2Proof.Machine
end

