-- ==== Sys2Proof/Machine/Matrix.lean ====
section
/-!
DEFINITION. The quad matrix unit (R239 to R269): port queues, operand slots and handles, products and accumulators, the shadow check.

A command of R242 waits in its core's port queue until MATRIX_TAKE; its effect on the accumulator is made when it is taken, its flags
and TCFGR's result at MATRIX_RETIRE. The singletons of R244, and every command in serial mode, wait until the earlier commands of their context have
retired, enter the queue, and act when the unit comes to them.
-/

namespace Sys2Proof.Machine

open Sys2Proof

/-- TILE with a code and a field (R249). -/
def tile (code f : Nat) : Trap := { cause := cTILE, info := n64 (code * 2 ^ 8 + f) }

/-! ## tcfg (R251 to R253) -/

def cfgRows (v : W64) : Nat := bits v.toNat 4 0
def cfgCols (v : W64) : Nat := bits v.toNat 12 8
def cfgDepth (v : W64) : Nat := bits v.toNat 24 16
def cfgA (v : W64) : Nat := bits v.toNat 39 36
def cfgB (v : W64) : Nat := bits v.toNat 43 40
def cfgC (v : W64) : Nat := bits v.toNat 47 44

def isSx (f : Nat) : Bool := 4 ≤ f && f ≤ 6
def isHalf (f : Nat) : Bool := f = 2 || f = 3

/-- Whether a TCFG operand is valid (R252). The bit that asks for a forced change is none of the fields that are zero where the context is unconfigured
(DESIGN CHOICE, log 72). -/
def cfgValid (v : W64) : Bool :=
  let a := cfgA v
  let b := cfgB v
  let k := cfgDepth v
  let lim := if isSx a && isSx b then 256 else if isHalf a && isHalf b then 128 else if a = 1 && b = 1 then 64 else 0
  (cfgRows v = 0 && cfgCols v = 0 && k = 0 && a = 0 && b = 0 && cfgC v = 0) ||
  (1 ≤ cfgRows v && cfgRows v ≤ 16 && 1 ≤ cfgCols v && cfgCols v ≤ 16 && cfgC v ≤ 8 && k % 16 = 0 && 16 ≤ k && k ≤ lim)

/-- The defined bits of tcfg. -/
def cfgBits : W64 := 0xFFF001FF1F1F#64

/-- The element format of a tile code. -/
def tileFmt (f : Nat) : EFmt := (bankFmt f).getD (.flt fp32)
/-- Bytes of a tile line (R253). -/
def tileBytes (f depth : Nat) : Nat := (tileFmt f).bytes depth

/-! ## Handles (R247, R248) -/

inductive HandleUse where
  | read | own
deriving DecidableEq, Repr

def State.entry (s : State) (ag : Agent) (e : Nat) : SlotEntry := look {} (s.ctx ag).entries e
def State.setEntry (s : State) (ag : Agent) (e : Nat) (x : SlotEntry) : State :=
  s.modCtx ag (fun c => { c with entries := put e x c.entries })

/-- The handle of an entry. -/
def handleOf (core n e : Nat) (x : SlotEntry) : W64 :=
  n64 (x.gen * 2 ^ 16 + laneOf core * 2 ^ 10 + n * 2 ^ 8 + (if x.shared then 8 else 0) + e)

/-- Entry(h, kind, f): the owner and number of the entry that a handle names. -/
def State.handle (s : State) (core n : Nat) (h : Nat) (use : HandleUse) (f : Nat) : Except Trap (Agent × Nat) :=
  if h = 0 ∨ bits h 63 32 ≠ 0 ∨ bits h 15 12 ≠ 0 ∨ bits h 7 4 ≠ 0 then .error (tile 2 f) else
  let o := Agent.ctx (coreInLane core (bits h 11 10)) (bits h 9 8)
  let me := Agent.ctx core n
  if o ≠ me ∧ (bit h 3 = false ∨ use = .own ∨ (s.regs o).dom ≠ (s.regs me).dom) then .error (tile 7 f)
  else if (s.ctx o).st = .saved then .error (tile 9 f)
  else
    let e := s.entry o (bits h 2 0)
    if !e.claimed ∨ e.gen ≠ bits h 31 16 ∨ e.shared ≠ bit h 3 then .error (tile 2 f) else .ok (o, bits h 2 0)

/-! ## Products (R72 to R76, R260) -/

/-- The exact values of line i of a slot. -/
def State.tileLine (s : State) (quad phys f depth i : Nat) : List FVal :=
  let fmt := tileFmt f
  fmt.decodeAll depth (s.value (slotKey quad phys (256 * i)) (tileBytes f depth))

/-- The exact sum of some products, for one rounding: infinities of opposite sign give a NaN and nv. An exact zero is +0 for SX blocks
(R73) and follows IEEE 754 for the others (R74). -/
def sumProducts (sx : Bool) (ps : List (FVal × Flags)) : FVal × Flags :=
  let fl := ps.foldl (fun f p => f ||| p.2) 0
  let vs := ps.map (·.1)
  let pinf := vs.contains (.inf false)
  let ninf := vs.contains (.inf true)
  if pinf && ninf then (.nan false, fl ||| fNV)
  else if vs.any FVal.isNan then (.nan false, fl)
  else if pinf then (.inf false, fl)
  else if ninf then (.inf true, fl)
  else
    let base := vs.foldl (fun b v => match v with | .fin _ _ e => min b e | _ => b) 0
    let t : Int := vs.foldl (fun t v => match v with | .fin n m e => t + scaled n m e base | _ => t) 0
    let neg0 := !sx && vs.all FVal.sign
    (.fin (if t = 0 then neg0 else t < 0) t.natAbs base, fl)

/-- One output element: its accumulator bits after the product of a row and a column, for k < KK, and the flags (R73 to R76). -/
def dotElem (fa : Nat) (xs ys : List FVal) (KK acc : Nat) : Nat × Flags :=
  let pairs := (xs.zip ys).take KK
  if fa = 1 then fmaChain acc pairs
  else
    let g := if isSx fa then 16 else 4
    let blocks := runs g ((pairs.length + g - 1) / g) pairs
    blocks.foldl (init := (acc, (0 : Flags))) fun (acc, fl) b =>
      let (v, f1) := sumProducts (isSx fa) (b.map (fun p => p.1.mul p.2))
      let (bs, f2) := fp32.round v
      let (t, f3) := fp32.addOp (fp32.decode acc) (fp32.decode bs)
      (t, fl ||| f1 ||| f2 ||| f3)

/-- The accumulator n of a context's registers. -/
def Regs.acc (r : Regs) (n : Nat) : Tab (BitVec 32) := if n = 0 then r.acc0 else r.acc1
def Regs.setAcc (r : Regs) (n : Nat) (t : Tab (BitVec 32)) : Regs := if n = 0 then { r with acc0 := t } else { r with acc1 := t }
def Regs.setBad (r : Regs) (n : Nat) (b : Bool) : Regs :=
  let m := BitVec.ofNat 2 (2 ^ n)
  { r with accBad := if b then r.accBad ||| m else r.accBad &&& ~~~m }

/-- A product added to an accumulator, element by element inside M × N. -/
def product (fa : Nat) (as_ bs : List (List FVal)) (M N KK : Nat) (acc : Tab (BitVec 32)) : Tab (BitVec 32) × Flags :=
  (List.range (M * N)).foldl (init := (acc, (0 : Flags))) fun (t, fl) k =>
    let i := k / N
    let j := k % N
    let (x, f) := dotElem fa (as_.getD i []) (bs.getD j []) KK (look 0 acc (16 * i + j)).toNat
    (put (16 * i + j) (BitVec.ofNat 32 x) t, fl ||| f)

/-! ## The shadow check (R264 to R268) -/

/-- An entry is written to the issuing context's telemetry ring, or dropped (R268); nothing where the write meets a granule that a priority chunk
reserves, and so has to wait (R213). -/
def State.telemetry (s : State) (core n : Nat) (bs : List Byte) : Option State :=
  let ag := Agent.ctx core n
  let r := s.regs ag
  let cap := bits r.tringSize.toNat 15 0
  if cap = 0 then some s else
  let fix (x : Nat) : Nat := if cap ≤ x then 0 else x
  let wr := fix (bits r.tringSize.toNat 47 32)
  let rd := fix (bits r.tringSize.toNat 63 48)
  let va := (r.tringBase.toNat + 32 * wr) % 2 ^ 64
  let lost (s : State) : State := s.devR ag (fun r =>
    { r with tringOvf := if bits r.tringOvf.toNat 31 0 < 2 ^ 32 - 1 then r.tringOvf + 1 else r.tringOvf })
  let refuse (cause : Nat) : State := lost (s.record { dom := s.supDomOf core, src := 9, sub := 1, cause := cause, ctx := n, loc := coreId core, addr := va })
  match s.devCheck (some (core, s.supDomOf core)) va 32 wrR with
  | .error t => some (refuse t.cause)
  | .ok t =>
    if t.key?.isNone then some (refuse cPAGE)
    else if s.devWaits t 32 then none
    else
      let s := s.devWrite none t va bs
      let wr' := (wr + 1) % cap
      let full : Bool := wr' = rd
      let s := s.devR ag (fun r =>
        let z := r.tringSize.toNat
        { r with tringSize := n64 ((if full then (rd + 1) % cap else bits z 63 48) * 2 ^ 48 + wr' * 2 ^ 32 + bits z 31 0) })
      some (if full then lost s else s)

/-- A deviation (R265). -/
def deviation (act ref : Nat) : Nat :=
  let a := fp32.decode act
  let b := fp32.decode ref
  if act = ref || (a.isNan && b.isNan) || a.eqv b then 0
  else
    match a, b with
    | .fin n m e, .fin k p g =>
      let base := min (min e g) (-149)
      let num := (scaled n m e base - scaled k p g base).natAbs
      let den := max (scaled false p g base).natAbs (2 ^ (-126 - base).toNat)
      (fp32.roundMag num den 0).1
    | _, _ => fp32.infBits false

/-- The largest deviation of a checked command and the lowest output index that reaches it. -/
def worst (as_ bs : List (List FVal)) (M N KK : Nat) (before after : Tab (BitVec 32)) : Nat × Nat :=
  (List.range (M * N)).foldl (init := (0, 0)) fun (d, ix) k =>
    let i := k / N
    let j := k % N
    let o := 16 * i + j
    let ref := (fmaChain (look 0 before o).toNat (((as_.getD i []).zip (bs.getD j [])).take KK)).1
    let x := deviation (look 0 after o).toNat ref
    if d < x then (x, o) else (d, ix)

/-- The telemetry entry of a checked command (R266). -/
def checkEntry (core n index dev count pc : Nat) : List Byte :=
  leBytes 8 pc ++ leBytes 8 count ++ leBytes 4 dev ++ leBytes 4 index ++ leBytes 8 (n * 2 ^ 20 + coreId core)

/-! ## Acceptance and effect (R243, R260 to R262) -/

/-- The effect of a command on its context: new registers and flags. -/
structure Taken where
  r : Regs
  flags : Flags := 0
  /-- S(d) of TCFGR. -/
  result : Option W64 := none
  /-- Deviation and index of a checked command. -/
  check : Option (Nat × Nat) := none

/-- An uncorrectable error that lies in an accumulator is found by its reader: the accumulator is marked poisoned, and a record made in the context's
domain ring (R250, R429). -/
def State.meetAcc (s : State) (core n a : Nat) : State :=
  let g := accKey core n a / 64
  if s.flaws.contains g then
    let ag := Agent.ctx core n
    ({ s with flaws := s.flaws.filter (· ≠ g) }.devR ag (·.setBad a true)).record
      { dom := (s.regs ag).dom.toNat, src := 1, sub := 6, ctx := n, loc := coreId core, w4 := a, core := some core }
  else s
/-- An accumulator is written whole: no error lies in it any longer (R250). -/
def State.freshAcc (s : State) (core n a : Nat) : State :=
  if s.flaws.isEmpty then s else { s with flaws := s.flaws.filter (· ≠ accKey core n a / 64) }

/-- The errors in an operand slot are found by its reader, whose handle is `h`: one record in the slot owner's domain ring (R250, R429). -/
def State.meetSlot (s : State) (core : Nat) (o : Agent) (e : Nat) (h : W64) : State :=
  let x := s.entry o e
  let key := slotKey (quadOf core) x.phys 0
  match o with
  | .ctx oc cn =>
    if (granules64 key 4096).any s.flaws.contains then
      (s.findFlaws none 0 key 4096).record { dom := (s.regs o).dom.toNat, src := 1, sub := 7, ctx := cn, loc := coreId oc,
                                             w4 := (handleOf oc cn e x).toNat, w5 := h.toNat, core := some oc }
    else s
  | _ => s
/-- Whether a slot holds an error. -/
def State.slotBad (s : State) (core phys : Nat) : Bool := !s.noBad && (granules64 (slotKey (quadOf core) phys 0) 4096).any s.bad

/-- TCFGR's word (R257). -/
def State.tileStatus (s : State) (core n : Nat) : W64 :=
  let ag := Agent.ctx core n
  let es := (List.range 8).map (fun e => (e, s.entry ag e))
  let map (p : SlotEntry → Bool) : Nat := es.foldl (fun m x => if p x.2 then m + 2 ^ x.1 else m) 0
  n64 ((24 - (s.quad (quadOf core)).used.length) * 2 ^ 32 + (s.regs ag).accBad.toNat * 2 ^ 24 +
       map (fun e => e.claimed && e.shared) * 2 ^ 16 + map (·.loaded) * 2 ^ 8 + map (·.claimed))

/-- Takes a command: the checks of its acceptance, then its effect. -/
def State.accept (s : State) (core n : Nat) (m : MCmd) (count : Nat) : Try Taken :=
  let r := s.regs (.ctx core n)
  match m.op with
  | 2 => .ok { r := (r.setAcc m.n []).setBad m.n false }
  | 3 => .ok { r := r, result := some (s.tileStatus core n) }
  | _ =>
    let v := r.tcfg
    if cfgRows v = 0 then .error (.trap (tile 4 0)) else
    (liftT (s.handle core n m.wa.toNat .read m.fa)).bind fun ha =>
    (liftT (s.handle core n m.wb.toNat .read m.fb)).bind fun hb =>
    let ea := s.entry ha.1 ha.2
    let eb := s.entry hb.1 hb.2
    let fit (e : SlotEntry) (f l : Nat) : Bool := e.fmt = f && e.lines = l && e.depth = cfgDepth v
    let M := if m.op = 1 then bits m.wd.toNat 15 0 else cfgRows v
    let N := if m.op = 1 then bits m.wd.toNat 31 16 else cfgCols v
    let KK := if m.op = 1 then bits m.wd.toNat 47 32 else cfgDepth v
    let s := s.meetAcc core n m.n
    let s' := (s.meetSlot core ha.1 ha.2 m.wa).meetSlot core hb.1 hb.2 m.wb
    if ea.roleB then .error (.trap (tile 5 m.fa))
    else if !eb.roleB then .error (.trap (tile 5 m.fb))
    else if !ea.loaded then .error (.trap (tile 6 m.fa))
    else if !eb.loaded then .error (.trap (tile 6 m.fb))
    else if !fit ea (cfgA v) (cfgRows v) then .error (.trap (tile 8 m.fa))
    else if !fit eb (cfgB v) (cfgCols v) then .error (.trap (tile 8 m.fb))
    else if M = 0 ∨ cfgRows v < M ∨ N = 0 ∨ cfgCols v < N ∨ KK = 0 ∨ cfgDepth v < KK then .error (.trap (tile 8 m.fd))
    else if (s.regs (.ctx core n)).accBad.getLsbD m.n then .error (.trapIn s { cause := cUE, info := n64 m.n })
    else if s.slotBad core ea.phys || s.slotBad core eb.phys then .error (.trapIn s' { cause := cUE, info := Config.freeWord s.seq 0 })
    else
      let q := quadOf core
      let as_ := (List.range M).map (s.tileLine q ea.phys (cfgA v) (cfgDepth v))
      let bs := (List.range N).map (s.tileLine q eb.phys (cfgB v) (cfgDepth v))
      let old := r.acc m.n
      let (new, fl) := product (cfgA v) as_ bs M N KK old
      .ok { r := r.setAcc m.n new, flags := fl,
            check := if m.tchk ≠ 0 && count % 2 ^ m.tchk = 0 then some (worst as_ bs M N KK old new) else none }

/-- Counts an MMA or MMAR in mc (R264); a refused command changes no state, so it is not counted (R243). -/
def State.countMma (s : State) (core : Nat) (m : MCmd) : State :=
  if m.op ≤ 1 then let q := s.quad (quadOf core); s.setQuad (quadOf core) { q with mc := (q.mc + 1) % 2 ^ 64 } else s

/-- mc once a command has been counted. -/
def State.mcAfter (s : State) (core : Nat) (m : MCmd) : Nat := ((s.countMma core m).quad (quadOf core)).mc

/-- The entry of a checked command is written to its ring; one that has to wait is under way, and later ones of the context wait behind it (R266, R268). -/
def State.writeCheck (s : State) (core n : Nat) (m : MCmd) (t : Taken) : State :=
  match t.check with
  | some (dev, ix) =>
    let bs := checkEntry core n ix dev (s.quad (quadOf core)).mc m.pc.toNat
    let ch := 2 ^ 39 + 2 ^ 25 + (Agent.ctx core n).code
    let wait (s : State) : State := s.send { chan := ch, ev := ⟨.matrixTake, [quadOf core, 3, s.nextMsg]⟩, src := 4 * core + n, bytes := bs }
    if s.flight.any (fun e => e.2.chan = ch) then wait s else (s.telemetry core n bs).getD (wait s)
  | none => s

/-! ## The port and the unit's arbitration (R239, R240) -/

/-- Whether a queue's head is ready: the resource that it needs is free. -/
def Quad.ready (q : Quad) (lane : Nat) : Bool :=
  match look [] q.ports lane with
  | [] => false
  | m :: _ => if m.op = 3 || m.op = 5 then true else if m.op = 7 then !q.loading else !q.busy

/-- The first lane with a ready head, after the lane taken from last. -/
def Quad.nextLane (q : Quad) : Option Nat := ((List.range 4).map (fun k => (q.last + 1 + k) % 4)).find? q.ready

/-- The unit looks for a command to take. -/
def State.lookTake (s : State) (k : Nat) : State := if (s.quad k).nextLane.isSome then s.start .matrixTake [k] else s

/-- A taken command occupies its resource for a time: the array (`res` 6) or the load path (7). -/
def State.occupy (s : State) (k res : Nat) : State :=
  if res = 6 then (s.setQuad k { s.quad k with busy := true }).activity .matrixTake [k, 1]
  else if res = 7 then (s.setQuad k { s.quad k with loading := true }).activity .matrixTake [k, 2]
  else s

/-- What the context of an instruction in the port waits for: the unit. The charge that it paid when it entered stands with it, and the number of the
reservation that bore it (R255). -/
def portAsk (paid no : Nat) : Nat := 2 ^ 64 + no * 2 ^ 20 + paid % 2 ^ 20
/-- The charge that an instruction paid when it entered the port, and the reservation; none before it has. -/
def Ctx.portPaid (c : Ctx) : Option (Nat × Nat) :=
  match c.asked with
  | some id => if 2 ^ 64 ≤ id then some ((id - 2 ^ 64) % 2 ^ 20, (id - 2 ^ 64) / 2 ^ 20) else none
  | none => none

/-- An instruction enters its core's port: it is charged, once (R239, R255). -/
def State.enterPort (s : State) (core n res : Nat) : State :=
  let ag := Agent.ctx core n
  let ask := portAsk (s.ctx ag).infl (s.core core).rsvNo
  let s := s.setPort core (s.port core ++ [{ ag := ag.code, op := res }])
  if (s.ctx ag).portPaid.isSome then s else (s.charge ag).modCtx ag (fun c => { c with asked := some ask })

/-- It leaves the port, taken or not; the unit looks on. -/
def State.leavePort (s : State) (core n : Nat) (taken : Bool) (res : Nat) : State :=
  let k := quadOf core
  let s := s.setPort core ((s.port core).filter (fun m => !(m.ag = (Agent.ctx core n).code && 5 ≤ m.op)))
  let s := if taken then (s.setQuad k { s.quad k with last := laneOf core }).occupy k res else s
  s.lookTake k

/-- An instruction whose context waits for its effect goes through the port (R239, R240, R244): it is Stalled while the queue is full, then until the unit
comes to it; then `f` is its effect. One that must wait on gives its entry up and enters again; one that traps has been charged nothing (R255). -/
def State.viaPort (s : State) (core n res : Nat) (f : State → Try State) : Try State :=
  let ag := Agent.ctx core n
  let inside := (s.port core).any (fun m => m.ag = ag.code && 5 ≤ m.op)
  if !inside && 2 ≤ (s.port core).length then .error (.later (s.holdIssue ag)) else
  let s := if inside then s else s.enterPort core n res
  let mine : Bool := ((s.port core).head?.map (fun m => m.ag = ag.code && 5 ≤ m.op)).getD false
  if !(mine && (s.quad (quadOf core)).nextLane = some (laneOf core)) then .error (.later (s.stallNow ag)) else
  let trapped (s : State) (t : Trap) : Try State := .error (.trapIn ((s.leavePort core n true 0).uncharge core (((s.ctx ag).portPaid).getD (0, 0))) t)
  match f s with
  | .ok s => .ok (s.leavePort core n true res)
  | .error (.trap t) => trapped s t
  | .error (.trapIn s t) => trapped s t
  | .error (.later s) => .error (.later (s.leavePort core n false 0))

/-! ## Issue -/

/-- The resource that a command of R242 needs (R240). -/
def MCmd.res (m : MCmd) : Nat := if m.op = 3 then 5 else 6

/-- A command of R242: in serial mode it is checked and takes effect precisely, once the unit comes to it; otherwise it enters the queue, and the context
goes on. -/
def matrixCmd (i : Instr) (cls : Nat) (reads : List Nat) (mk : Regs → MCmd) : State → Host.Outcome State Fault Refusal :=
  runWord i { cls := some cls, reads := reads } (fun s ag =>
    match ag with
    | .ctx core n =>
      let r := s.regs ag
      let m := { mk r with ag := ag.code, pc := r.pc, tchk := r.tchk.toNat, no := s.seq }
      if r.anyEnable || (s.ctx ag).serial then
        if (s.ctx ag).mcmds ≠ 0 then .error (.later (s.holdIssue ag))
        else
          (s.viaPort core n m.res (fun s =>
            (s.accept core n m (s.mcAfter core m)).bind fun t =>
              let s := (s.countMma core m).writeCheck core n m t
              if t.flags &&& r.enables ≠ 0 then .error (.trapIn s { cause := cFPX, info := n64 t.flags.toNat })
              else
                let s := if m.op = 2 then s.freshAcc core n m.n else s
                let s := s.modR ag (fun _ => t.r.addFlags t.flags)
                .ok (match t.result with | some v => s.modR ag (·.setS m.fd v) | none => s))).map (fun s => (s, .fall))
      else if 2 ≤ (s.port core).length then .error (.later (s.holdIssue ag))
      else
        let s := s.setPort core (s.port core ++ [m])
        let s := s.modCtx ag (fun c => { c with mcmds := c.mcmds + 1 })
        let s := if m.op = 3 && m.fd ≠ 0 then s.modR ag (fun r => { r with tpend := put m.fd m.no r.tpend }) else s
        .ok (s.start .matrixTake [quadOf core], .fall)
    | _ => .ok (s, .fall))

def execMma (a b n : Nat) := matrixCmd (.mma a b n) 15 [a, b] (fun r =>
  { ag := 0, op := 0, n := n, fa := a, fb := b, wa := r.S a, wb := r.S b })
def execMmar (d a b n : Nat) := matrixCmd (.mmar d a b n) 15 [d, a, b] (fun r =>
  { ag := 0, op := 1, n := n, fd := d, fa := a, fb := b, wd := r.S d, wa := r.S a, wb := r.S b })
def execAccz (n : Nat) := matrixCmd (.accz n) 0 [] (fun _ => { ag := 0, op := 2, n := n })
def execTcfgr (d : Nat) := matrixCmd (.tcfgr d) 0 [] (fun _ => { ag := 0, op := 3, fd := d })

/-- The unit takes the next ready command, if it is one that does not wait for its own context: a TAP goes on to the unit's work on its batch (R344); a
failed acceptance squashes its chunk for serial replay (R240, R243). -/
def State.takeNext (s : State) (k : Nat) : State :=
  let q := s.quad k
  match q.nextLane with
  | none => s
  | some l =>
    match look [] q.ports l with
    | [] => s
    | m :: rest =>
      if 5 ≤ m.op then s else
      let s := (s.setQuad k { q with ports := put l rest q.ports, last := l }).occupy k m.res
      match Agent.ofCode m.ag with
      | .ctx core n =>
        let ag := Agent.ctx core n
        if m.op = 4 then
          (s.send { chan := 2 ^ 39 + 2 ^ 26 + ag.code, ev := ⟨.tapAccept, [s.nextMsg]⟩, src := ag.code,
                    words := [m.no, m.n, m.wa.toNat, m.wb.toNat, m.wd.toNat, m.x1.toNat, m.x2.toNat, m.pc.toNat] }).lookTake k
        else
        let refused (s : State) : State :=
          let s := s.modCtx ag (fun c => { c with mcmds := c.mcmds - 1 })
          ((s.squash ag).modCtx ag (fun c => { c with serial := true })).lookTake k
        match s.accept core n m (s.mcAfter core m) with
        | .error (.trapIn s _) => refused s
        | .error _ => refused s
        | .ok t =>
          let id := s.nextMsg
          let s := s.countMma core m
          let s := s.send { chan := 2 ^ 39 + 2 ^ 24 + ag.code, ev := ⟨.matrixRetire, [id]⟩, src := ag.code,
                            words := [m.op, t.flags.toNat, m.fd, m.no, ((t.result.map BitVec.toNat).getD 0)] }
          let s := if m.op = 2 then s.freshAcc core n m.n else s
          let s := (s.modR ag (fun _ => t.r)).modCtx ag (fun c => { c with chunk := { c.chunk with retires := c.chunk.retires ++ [id] } })
          (s.writeCheck core n m t).lookTake k
      | _ => s.lookTake k

/-- MATRIX_TAKE: quad, what. The unit takes a command; 1 and 2: the array or the load path has come free; 3: a telemetry entry is written, or waits. -/
def execMatrixTake (s : State) : Host.Outcome State Fault Refusal :=
  let k := s.arg 0
  let q := s.quad k
  match s.arg 1 with
  | 0 => happen (s.takeNext k)
  | 1 => happen ((s.setQuad k { q with busy := false }).takeNext k)
  | 2 => happen ((s.setQuad k { q with loading := false }).takeNext k)
  | _ =>
    match s.msg? (s.arg 2) with
    | none => happen s
    | some m => happen (((s.telemetry (m.src / 4) (m.src % 4) m.bytes).map (·.drop (s.arg 2))).getD s)

/-- MATRIX_RETIRE: message. The flags reach fx.status; TCFGR's result its register, unless a later instruction has written it; whoever waits
for the retirement goes on (R62, R242, R257). -/
def execMatrixRetire (s : State) : Host.Outcome State Fault Refusal :=
  let id := s.arg 0
  match s.msg? id with
  | none => happen s
  | some m =>
    let s := s.drop id
    let ag := Agent.ofCode m.src
    let w (k : Nat) := m.words.getD k 0
    let f (r : Regs) : Regs :=
      let r := { r with fx := r.fx ||| n64 (w 1) }
      if w 0 = 3 && look (w 3 + 1) r.tpend (w 2) = w 3 then r.setS (w 2) (n64 (w 4)) else r
    let inChunk := (s.ctx ag).chunk.retires.contains id
    let s := if inChunk then s.modR ag f else s.devR ag f
    let s := s.modCtx ag (fun c => { c with mcmds := c.mcmds - 1, chunk := { c.chunk with retires := c.chunk.retires.filter (· ≠ id) } })
    let c := s.ctx ag
    happen (if c.st = .stalled && c.asked.isNone && c.saving.isNone then s.wake ag else s)

/-! ## Configuration and claims (R256, R258) -/

/-- A matrix singleton of a compute context (R244): it waits until every earlier command of the context has retired, then goes through the port; `res` is
the resource that it needs (5 none, 6 the array, 7 the load path). -/
def matrixOne (i : Instr) (res : Nat) (reads : List Nat) (f : State → Nat → Nat → Regs → Try State) : State → Host.Outcome State Fault Refusal :=
  runWord i { cls := some 14, single := true, reads := reads } (fun s ag =>
    match ag with
    | .ctx core n =>
      if (s.ctx ag).mcmds ≠ 0 then .error (.later (s.holdIssue ag))
      else (s.viaPort core n res (fun s => f s core n (s.regs ag))).map (fun s => (s, .fall))
    | _ => .ok (s, .fall))

def execTcfg (a : Nat) := matrixOne (.tcfg a) 5 [a] (fun s core n r =>
  let ag := Agent.ctx core n
  let v := r.S a
  if !cfgValid v then .error (.trap (tile 4 a))
  else if v.getLsbD 63 = false then
    if (List.range 8).any (fun e => (s.entry ag e).claimed) then .error (.trap (tile 1 a))
    else .ok (s.modR ag (fun r => { r with tcfg := v &&& cfgBits }))
  else
    .ok ((((s.releaseAll ag).freshAcc core n 0).freshAcc core n 1).modR ag (fun r => { r with acc0 := [], acc1 := [], accBad := 0, tcfg := v &&& cfgBits })))

/-- OCLAIM and OCLAIM.S. -/
def claim (i : Instr) (d a : Nat) (shared : Bool) := matrixOne i 5 [a] (fun s core n r =>
  let ag := Agent.ctx core n
  let q := s.quad (quadOf core)
  match (List.range 8).find? (fun e => !(s.entry ag e).claimed), (List.range 24).find? (fun p => !q.used.contains p) with
  | some e, some p =>
    let x : SlotEntry := { s.entry ag e with claimed := true, roleB := (r.S a).getLsbD 0, shared := shared, loaded := false, phys := p }
    .ok (((s.setQuad (quadOf core) { q with used := q.used ++ [p] }).setEntry ag e x).modR ag (·.setS d (handleOf core n e x)))
  | _, _ => .ok (s.modR ag (·.setS d 0)))

def execOclaim (d a : Nat) := claim (.oclaim d a) d a false
def execOclaimS (d a : Nat) := claim (.oclaimS d a) d a true

def execOrel (a : Nat) := matrixOne (.orel a) 5 [a] (fun s core n r =>
  (liftT (s.handle core n (r.S a).toNat .own a)).map fun h => s.releaseEntry core h.1 h.2)

/-! ## Tiles and accumulators in the scratchpad (R259, R263) -/

/-- The own scratchpad offset of a tile access of some bytes, checked; `need` are its rights. Anything but the own scratchpad raises BOUNDS, bytes
of two banks ALIGN. -/
def State.tileAt (s : State) (core n va len : Nat) (need : Rights) : Except Trap Nat :=
  (s.check (.ctx core n) va len need (conv := true)).bind fun t =>
    match t with
    | .scratch c off => if c ≠ core then .error (trapAt cBOUNDS va) else .ok off
    | _ => .error (trapAt cBOUNDS va)

/-- The bank format code at an offset. -/
def State.bankAt (s : State) (core off : Nat) : Nat := look 0 (s.core core).bfmt (off / 2 ^ 14)

/-- The format code of the bank that holds an address. No bank holds an address outside the mesh window or off the grid, for which the image is as long as for a
raw one (R263; DESIGN CHOICE, log 72). -/
def State.bankCodeOf (s : State) (core va : Nat) : Option Nat :=
  match addrCheck (.ctx core 0) va 1 false with
  | .ok (some c) => if bits va 63 48 = 0xFF80 then some (s.bankAt c (bits va 16 0)) else none
  | _ => none

/-- Waits for granules that another context of the core has written speculatively, or that a priority chunk of another holds (R125,
R213, R259). -/
def State.tileWait (s : State) (core n key len : Nat) (write : Bool) : Try Unit :=
  let ag := Agent.ctx core n
  match (granules64 key len).findSome? (fun g => (s.specHolder core ag g).map (fun h => (g, h))) with
  | some (g, h) => .error (s.waitGranule ag h g)
  | none => if s.tapHeld ag key len || (write && s.holdDelivery key len) then .error (.later (s.stallNow ag)) else .ok ()

/-- What OLOAD and OSTORE have in common: format, line count, line bytes, and the checked offset of each line. -/
def State.tileLines (s : State) (core n : Nat) (r : Regs) (e : SlotEntry) (a b : Nat) (need : Rights) :
    Except Trap (Nat × Nat × Nat × List Nat) :=
  if cfgRows r.tcfg = 0 then .error (tile 4 a) else
  let fmt := if e.roleB then cfgB r.tcfg else cfgA r.tcfg
  let k := if e.roleB then cfgCols r.tcfg else cfgRows r.tcfg
  let L := tileBytes fmt (cfgDepth r.tcfg)
  let p := (r.S b).toNat
  let st := (r.OX 1).toNat % 2 ^ 32
  if p % 16 ≠ 0 ∨ st % 16 ≠ 0 then .error (trapAt cALIGN p) else
  ((List.range k).mapM fun (i : Nat) =>
    (s.tileAt core n ((p + i * st) % 2 ^ 64) L need).bind fun off =>
      if s.bankAt core off ≠ fmt then .error (tile 3 b) else .ok off).map fun offs => (fmt, k, L, offs)

def execOload (a b : Nat) := matrixOne (.oload a b) 7 [a, b] (fun s core n r =>
  (liftT (s.handle core n (r.S a).toNat .own a)).bind fun h =>
  let e := s.entry h.1 h.2
  (liftT (s.tileLines core n r e a b rdR)).bind fun (fmt, k, L, offs) =>
  (offs.foldlM (fun (_ : Unit) off => s.tileWait core n (scratchKey core off) L false) ()).bind fun _ =>
  let s := offs.foldl (fun s off => (s.findFlaws none 0 (scratchKey core off) L).keepScratch (.ctx core n) core off) s
  match if s.noBad then none else (offs.zip (List.range k)).findSome? (fun (off, i) =>
      ((granules64 (scratchKey core off) L).find? s.bad).map (fun g =>
        ((r.S b).toNat + i * ((r.OX 1).toNat % 2 ^ 32)) % 2 ^ 64 + g * 64 - scratchKey core off)) with
  | some va => .error (.trapIn s (trapAt cUE va))
  | none =>
    let q := quadOf core
    let s := s.unpoison (slotKey q e.phys 0) 4096
    let bs := offs.map (fun off => s.bytes (scratchKey core off) L)
    let clear := s.writeBytes (slotKey q e.phys 0) (List.replicate 4096 0)
    let s := (bs.zip (List.range k)).foldl (fun s x => s.writeBytes (slotKey q e.phys (256 * x.2)) x.1) clear
    .ok (s.setEntry h.1 h.2 { e with loaded := true, fmt := fmt, lines := k, depth := cfgDepth r.tcfg }))

def execOstore (a b : Nat) := matrixOne (.ostore a b) 7 [a, b] (fun s core n r =>
  (liftT (s.handle core n (r.S a).toNat .own a)).bind fun h =>
  let e := s.entry h.1 h.2
  (liftT (s.tileLines core n r e a b wrR)).bind fun (fmt, k, L, offs) =>
  if !e.loaded then .error (.trap (tile 6 a))
  else if e.fmt ≠ fmt ∨ e.lines ≠ k ∨ e.depth ≠ cfgDepth r.tcfg then .error (.trap (tile 8 a))
  else
    (offs.foldlM (fun (_ : Unit) off => s.tileWait core n (scratchKey core off) L true) ()).bind fun _ =>
    if s.slotBad core e.phys then .error (.trapIn (s.meetSlot core h.1 h.2 (r.S a)) { cause := cUE, info := Config.freeWord s.seq 0 })
    else
    .ok ((offs.zip (List.range k)).foldl (init := s) fun s x =>
      (s.devWrite (some (.ctx core n)) (.scratch core x.1) 0 (s.bytes (slotKey (quadOf core) e.phys (256 * x.2)) L)).keepScratch (.ctx core n) core x.1))

/-- The 256 elements of an accumulator as values. -/
def accValues (t : Tab (BitVec 32)) : List FVal := (List.range 256).map (fun k => fp32.decode (look 0 t k).toNat)

def execAccst (a n : Nat) := matrixOne (.accst a n) 6 [a] (fun s core c r =>
  let s := s.meetAcc core c n
  if (s.regs (.ctx core c)).accBad.getLsbD n then .error (.trapIn s { cause := cUE, info := n64 n }) else
  let p := (r.S a).toNat
  let code := (s.bankCodeOf core p).getD 0
  let f := (bankFmt code).getD (.flt fp32)
  let L := f.bytes 256
  if p % 16 ≠ 0 then .error (.trap (trapAt cALIGN p)) else
  (liftT (s.tileAt core c p L wrR)).bind fun off =>
  (s.tileWait core c (scratchKey core off) L true).bind fun _ =>
  let (img, fl) := f.encodeAll (accValues (r.acc n))
  if fl &&& r.enables ≠ 0 then .error (.trap { cause := cFPX, info := n64 fl.toNat })
  else .ok (((s.devWrite (some (.ctx core c)) (.scratch core off) p (leBytes L img)).keepScratch (.ctx core c) core off).modR (.ctx core c) (·.addFlags fl)))

def execAccld (a n : Nat) := matrixOne (.accld a n) 6 [a] (fun s core c r =>
  let code := cfgC r.tcfg
  if code = 0 then .error (.trap (tile 4 a)) else
  let p := (r.S a).toNat
  let f := (bankFmt code).getD (.flt fp32)
  let L := f.bytes 256
  if p % 16 ≠ 0 then .error (.trap (trapAt cALIGN p)) else
  (liftT (s.tileAt core c p L rdR)).bind fun off =>
  if s.bankAt core off ≠ code then .error (.trap (tile 3 a)) else
  (s.tileWait core c (scratchKey core off) L false).bind fun _ =>
  let (img, fl) := (EFmt.flt fp32).encodeAll (f.decodeAll 256 (s.value (scratchKey core off) L))
  let s := (s.findFlaws none p (scratchKey core off) L).keepScratch (.ctx core c) core off
  if fl &&& r.enables ≠ 0 then .error (.trap { cause := cFPX, info := n64 fl.toNat })
  else if (granules64 (scratchKey core off) L).any s.bad then .error (.trapIn s (trapAt cUE p))
  else
    let t := ((digits 32 256 img).zip (List.range 256)).foldl (fun t x => if x.1 = 0 then t else put x.2 (BitVec.ofNat 32 x.1) t) []
    .ok ((s.freshAcc core c n).modR (.ctx core c) (fun r => ((r.setAcc n t).setBad n false).addFlags fl)))

end Sys2Proof.Machine
end

