-- ==== Sys2Proof/Machine/Save.lean ====
section
/-!
DEFINITION. Safe points, saves and loads of a context, the return from the supervisor, asynchronous entry at a boundary, and the happenings
of a chunk (R33 to R36, R209, R213, R359, R367, R370 to R377, R494, R495).
-/

namespace Sys2Proof.Machine

open Sys2Proof

/-! ## Caravans that are being pre-empted (R371, R419) -/

/-- Whether a context belongs to a caravan whose request for pre-emption is being carried out. -/
def State.parking (s : State) (ag : Agent) : Option (Nat × Nat) :=
  match ag with
  | .ctx core _ =>
    match s.jobOf core with
    | some (p, k, j) => if j.preempt = some true then some (p, k) else none
    | none => none
  | _ => none

/-! ## The live map and the area (R34, R375, R376) -/

/-- What a save keeps: the header's flags, the masks and the index. -/
structure LiveMap where
  full : Bool := true
  mx : Bool := true
  lp : Bool := true
  ptr : Bool := true
  ox : Bool := true
  smask : Nat := 2 ^ 32 - 1
  vmask : Nat := 2 ^ 32 - 1
  index : Nat := 0
deriving DecidableEq, Repr

/-- The live-map entry of an index; none where its read faults or its address is not a multiple of 16 (R35). It is read with the rights of
the context's own domain. -/
def State.liveMap (s : State) (ag : Agent) (index : Nat) : Option LiveMap :=
  let va := ((s.regs ag).lmbase + n64 (16 * index)).toNat
  if va % 16 ≠ 0 then none
  else
    match s.check ag va 16 rdR with
    | .error _ => none
    | .ok t =>
      match t.key? with
      | none => none
      | some key =>
        if s.bad (key / 64) then none else
        let w := leNat (s.devRead t 16)
        some { full := false, smask := bits w 31 0, vmask := bits w 63 32, ox := bit w 64, ptr := bit w 65, lp := bit w 66,
               mx := bit w 67, index := index }

/-- What a save in progress keeps (R36, R370). -/
def State.saveMap (s : State) (ag : Agent) (how : Nat × Nat) : LiveMap :=
  if how.1 = 0 then (s.liveMap ag how.2).getD {} else {}

def b2n (b : Bool) (n : Nat) : Nat := if b then 2 ^ n else 0

/-- The header word. -/
def LiveMap.header (m : LiveMap) (core n : Nat) : Nat :=
  n * 2 ^ 52 + coreId core * 2 ^ 32 + 2 ^ 24 + b2n m.full 20 + b2n m.mx 19 + b2n m.lp 18 + b2n m.ptr 17 + b2n m.ox 16 + m.index

/-- Word 0 of an engine slot, and the slot's ten words. -/
def EngSlot.words (x : EngSlot) : List Nat :=
  [(match x.st with | .idle => 0 | .running => 1 | .stopped => 2) + x.op * 8 + x.pieces * 2 ^ 8 + x.miss * 2 ^ 16 + x.status % 256 * 2 ^ 24,
   x.map, x.failAddr.toNat, x.wd.toNat, x.wa.toNat, x.wb.toNat, 0] ++ ((List.range 4).map (fun i => ((x.ox.getD i 0)).toNat))

/-- The words of an engine slot with their offsets in the slot's 128 bytes. -/
def EngSlot.block (x : EngSlot) (k : Nat) : List (Nat × List Byte) :=
  let w := x.words
  [(0x800 + 128 * k, (w.take 6).flatMap (leBytes 8)), (0x830 + 128 * k, (w.drop 7).flatMap (leBytes 8))]

/-- The descriptor word of an entry. -/
def SlotEntry.word (e : SlotEntry) : Nat :=
  e.gen * 2 ^ 48 + e.depth * 2 ^ 16 + e.lines * 2 ^ 8 + e.fmt * 2 ^ 4 + b2n e.loaded 3 + b2n e.shared 2 + b2n e.roleB 1 + b2n e.claimed 0

def loopWords (a b : LoopSet) : List Nat := [a.start.toNat, a.stop.toNat, a.count.toNat, b.start.toNat, b.stop.toNat, b.count.toNat]

/-- The blocks of a save area, as offset and bytes, in order of address. `spent` is the reservation that the save ends. -/
def State.areaBlocks (s : State) (core n : Nat) (m : LiveMap) (pc : W64) (spent : Option Nat) : List (Nat × List Byte) :=
  let c := s.ctx (.ctx core n)
  let r := c.r
  let pend := match spent with
    | some v => put cREVOKE (n64 (2 ^ 56 + v)) c.pend
    | none => c.pend
  let state := ((if spent.isSome then s.endRsv core 4 else s).rsvStateOf core n).toNat
  let words (l : List Nat) : List Byte := l.flatMap (leBytes 8)
  let entries := (List.range 8).map fun e =>
    let x := look {} c.entries e
    if m.mx || !x.claimed then x else { gen := nextGen x.gen }
  [(0x000, words [m.header core n, pc.toNat, m.smask, m.vmask, ((~~~r.absent).toNat / 2 * 2),
      pend.foldl (fun b e => b ||| 2 ^ e.1) (b2n r.act 63),
      r.uvec.toNat, r.upc.toNat, r.ucause.toNat % 256, r.uinfo.toNat, r.uie.toNat,
      r.fx.toNat, r.lmbase.toNat, r.tmrCmp.toNat, r.rank.toNat, r.tchk.toNat, r.tapCount.toNat, state,
      (match r.ticket with | some (g, k, a) => 2 ^ 63 + g * 2 ^ 32 + k * 2 ^ 24 + a | none => 0),
      (look 0 pend cTIMER).toNat, (look 0 pend cTHROTTLE).toNat, (look 0 pend cCARAVAN).toNat, (look 0 pend cREVOKE).toNat] ++
      List.replicate 72 0)] ++
  ((List.range 32).filter (fun k => bit m.smask k || k = 0)).map (fun k => (0x100 + 8 * k, words [(if k = 0 then 0 else (look 0 r.s k).toNat)])) ++
  [(0x200, words ((List.range 8).map (fun k => (look 0 r.shadow (24 + k)).toNat)))] ++
  (if m.ox then [(0x240, words ((List.range 8).map (fun k => (r.OX k).toNat)))] else []) ++
  (if m.ptr then [(0x280, words ((List.range 8).map (fun k => (r.P k).toNat) ++ (List.range 8).map (fun k => (r.PW k).toNat)))] else []) ++
  (if m.lp then [(0x300, words (loopWords r.loop0 r.loop1))] else []) ++
  [(0x330, words (loopWords r.shLoop0 r.shLoop1)), (0x360, List.replicate 0xA0 0)] ++
  ((List.range 32).filter (bit m.vmask)).map (fun k => (0x400 + 32 * k, leBytes 32 (r.V k).toNat)) ++
  (List.range 8).flatMap (fun k => (look {} c.slots k).block k) ++
  (if m.mx then [(0xC00, words [r.tcfg.toNat, r.accBad.toNat])] else []) ++
  [(0xC40, words (entries.map SlotEntry.word))] ++
  (if m.mx then
    [(0x1000, (List.range 256).flatMap (fun k => leBytes 4 (look 0 r.acc0 k).toNat)),
     (0x1400, (List.range 256).flatMap (fun k => leBytes 4 (look 0 r.acc1 k).toNat))] ++
    ((List.range 8).filter (fun e => (look {} c.entries e).claimed)).map (fun e =>
      (0x2000 + 0x1000 * e, s.bytes (slotKey (quadOf core) (look {} c.entries e).phys 0) 4096))
   else [])

/-- The first trap that a list of checks meets, or every target. -/
def State.areaTargets (s : State) (core : Nat) (base : Nat) (need : Rights) :
    List (Nat × Nat) → Except Trap (List (Nat × Nat × Target))
  | [] => .ok []
  | (off, n) :: l =>
    let va := (base + off) % 2 ^ 64
    (s.devCheck (some (core, s.supDomOf core)) va n need).bind fun t =>
      match t.key? with
      | none => .error (trapAt cPAGE va)
      | some _ => (s.areaTargets core base need l).map fun ts => (va, n, t) :: ts

/-! ## Saving (R373, R374) -/

/-- Whether everything that a save waits for has happened. -/
def State.saveReady (s : State) (core n : Nat) : Bool :=
  let c := s.ctx (.ctx core n)
  c.mcmds = 0 && c.slots.all (fun e => e.2.st ≠ .running) && c.taps = 0 && c.probes.isEmpty &&
  c.unackedScratch = 0 && c.unackedPeer.isEmpty && ((s.core core).holder ≠ some n || (s.core core).running n = 0)

/-- The writes of a save, and the context's registers left as they are; the trap of a failed write, or that the writes must wait. The reservation ends, and
the physical slots are freed: the entries are released (R269, R285). -/
def State.saveArea (s : State) (core n : Nat) (m : LiveMap) (base : Nat) (pc : W64) : Try State :=
  let ag := Agent.ctx core n
  let holds : Bool := (s.core core).holder = some n
  let spent := if holds then some (s.ctx ag).rsvSpent else none
  let blocks := s.areaBlocks core n m pc spent
  (liftT (s.areaTargets core base wrR (blocks.map (fun b => (b.1, b.2.length))))).bind fun ts =>
  if ts.any (fun (_, len, t) => s.reserved ag (t.granules len)) then .error (.later s)
  else
    let s := (ts.zip blocks).foldl (fun s (x, b) => s.devWrite (some ag) x.2.2 x.1 b.2) s
    let s := if holds then s.endRsv core 4 else s
    .ok (s.releaseAll ag)

/-- The context becomes Saved (R18, R19); a courier that waits takes it. -/
def State.becomeSaved (s : State) (core n : Nat) : State :=
  let ag := Agent.ctx core n
  let s := (s.withdrawWait ag).dropToken ag
  let s := s.clearPreempt ag
  let s := s.modCtx ag fun c =>
    { c.noInstr with
             st := .saved, why := 0, held := false, chunk := {}, pend := [],
             probes := [], saving := none, parked := false, lvl := .user, slots := [], retiring := false,
             inThrottle := false, token := false, attempts := 0, serial := false }
  s.afterIdle core

/-- A pre-emption is acted on at a boundary, with the pc that a save records (R371, R372, R419): the context of a caravan is held for the
save of the whole; otherwise PREEMPT becomes pending, or the save begins. The chunk has ended. -/
def State.actPreempt (s : State) (ag : Agent) (how : Nat × Nat) : State :=
  let how := if how.1 = 0 && (s.liveMap ag how.2).isNone then (1, how.2) else how
  match s.parking ag with
  | some (p, k) =>
    (s.modCtx ag (fun c => { c with st := .stalled, held := true, parked := true, saving := some how, preDue := false })).start .caravanSave [p, k]
  | none =>
    if (s.regs ag).preDlv then
      (s.clearPreempt ag).raise ag cPREEMPT (n64 (how.2 % 2 ^ 16 + if how.1 = 0 then 0 else 2 ^ 63))
    else (s.modCtx ag (fun c => { c with st := .stalled, held := true, saving := some how })).start .contextSave [ag.code]

/-- SAFE (R33, R35). While a save that it asks for is made, the context stands at the SAFE, which completes with the save (R374). -/
def execSafe (i : Nat) (s : State) : Host.Outcome State Fault Refusal :=
  runWord (.safe i) { cls := some 0, single := true } (fun s ag =>
    let c := s.ctx ag
    if c.r.preReq && c.lvl = .user && ag.core?.isSome then
      if (s.parking ag).isNone && c.r.preDlv then .ok (s.actPreempt ag (0, i), .fall)
      else .error (.later (s.actPreempt ag (0, i)))
    else .ok (s, .fall)) s

/-- Makes the save of a context that stands at a SAFE or at a deadline: a SAFE completes with it, and its successor is the saved PC (R33, R36). -/
def State.makeSave (s : State) (core n : Nat) (how : Nat × Nat) : Try State :=
  let ag := Agent.ctx core n
  let m := s.saveMap ag how
  let s := if how.1 = 2 then s else
    ((s.charge ag).modR ag (·.fallThrough (.safe how.2))).modCore core (fun k => { k with retired := k.retired + 1 })
  (s.saveArea core n m (s.regs ag).save.toNat (s.regs ag).pc).map (fun s => s.becomeSaved core n)

/-- A context that has nothing of an instruction under way stands at an instruction boundary. -/
def Ctx.atBoundary (c : Ctx) : Bool := c.asked.isNone && c.reply.isNone && c.got.isEmpty && c.saving.isNone && c.waitOn.isNone && !c.missed

/-- SAFEDL_DEADLINE: agent, number of the count. A Waiting context, and one whose instruction has not issued, is acted on at once; any other
at its next boundary (R36, R370). -/
def execSafedlDeadline (s : State) : Host.Outcome State Fault Refusal :=
  let ag := Agent.ofCode (s.arg 0)
  let c := s.ctx ag
  if c.deadline ≠ s.arg 1 || !c.r.preReq || c.lvl = .sup || c.saving.isSome || (c.st = .waiting && c.why = 6) then happen s
  else
    let s := s.modCtx ag (fun c => { c with dlAt := none, preDue := true })
    if c.st = .waiting && c.reply.isNone then happen ((s.withdrawWait ag).actPreempt ag (2, 0))
    else happen s

/-- CONTEXT_SAVE: agent. The save in progress is made when what it waits for has happened; a pending PROBE is delivered first, and a failed
write is a trap of the instruction at which the save stood (R373, R374). -/
def execContextSave (s : State) : Host.Outcome State Fault Refusal :=
  let ag := Agent.ofCode (s.arg 0)
  match ag, (s.ctx ag).saving with
  | .ctx core n, some how =>
    let c := s.ctx ag
    if c.parked then happen s
    else if c.mcmds = 0 && c.taps = 0 && !c.probes.isEmpty then
      happen (s.modCtx ag (fun c => { c with saving := none, st := .ready, held := false, preDue := c.preDue || how.1 = 2 }))
    else if !s.saveReady core n then happen (s.start .contextSave [ag.code])
    else
      match s.makeSave core n how with
      | .ok s => happen s
      | .error (.trap t) =>
        happen ((s.modCtx ag (fun c => { c with saving := none, st := .ready, held := false })).takeTrap ag t)
      | .error _ => happen (s.start .contextSave [ag.code])
  | _, _ => happen s

/-- PREEMPT_CANCEL: agent. A pending request is withdrawn, and no save takes place; for a caravan the whole request is abandoned, and every
held context goes on (R370, R371). -/
def State.cancelPreempt (s : State) (ag : Agent) : State :=
  let s := s.clearPreempt ag
  s.modCtx ag fun c =>
    if c.saving.isSome then { c with saving := none, parked := false, st := .ready, held := false } else c
def State.abandon (s : State) (p k : Nat) : State :=
  match s.scheds.findSome? (fun (q, d) => if q = p then (d.jobs.find? (fun e => e.1 = k)).map (·.2) else none) with
  | none => s
  | some j =>
    let d := look {} s.scheds p
    let s := { s with scheds := put p { d with jobs := put k { j with preempt := none } d.jobs } s.scheds }
    j.cores.foldl (fun s core => (List.range 4).foldl (fun s n => s.cancelPreempt (.ctx core n)) s) s
def execPreemptCancel (s : State) : Host.Outcome State Fault Refusal :=
  let ag := Agent.ofCode (s.arg 0)
  match ag.core?.bind s.jobOf with
  | some (p, k, j) =>
    if j.preempt.isSome then
      happen ((s.abandon p k).record { dom := supDom p, src := 7, sub := 3 })
    else happen (s.cancelPreempt ag)
  | none => if (s.ctx ag).saving.isSome then happen s else happen (s.cancelPreempt ag)

/-! ## Loading (R377) -/

/-- Whether a header keeps its rules: version 1, no reserved bit set. -/
def headerOk (h : Nat) : Bool := bits h 31 24 = 1 && bits h 63 54 = 0 && bits h 51 51 = 0 && bits h 23 21 = 0

/-- The offset and length of each block that a header says an area holds. -/
def headerBlocks (h smask vmask : Nat) (claimed : List Nat) : List (Nat × Nat) :=
  [(0x000, 0x100)] ++ ((List.range 32).filter (fun k => bit smask k && k ≠ 0)).map (fun k => (0x100 + 8 * k, 8)) ++ [(0x200, 0x40)] ++
  (if bit h 16 then [(0x240, 0x40)] else []) ++ (if bit h 17 then [(0x280, 0x80)] else []) ++ (if bit h 18 then [(0x300, 0x30)] else []) ++
  [(0x330, 0x30)] ++ ((List.range 32).filter (bit vmask)).map (fun k => (0x400 + 32 * k, 32)) ++ [(0x800, 0x400)] ++
  (if bit h 19 then [(0xC00, 16)] else []) ++ [(0xC40, 64)] ++
  (if bit h 19 then [(0x1000, 0x800)] ++ claimed.map (fun e => (0x2000 + 0x1000 * e, 4096)) else [])

/-- The bytes of an area at an offset, as the device reads them. -/
def State.areaRead (s : State) (core base off n : Nat) : Except Trap Nat :=
  (s.areaTargets core base rdR [(off, n)]).bind fun ts =>
    match ts with
    | (va, _, t) :: _ =>
      match (t.key?.bind fun key => (granules64 key n).find? s.bad |>.map (fun g => va + g * 64 - key)) with
      | some a => .error (trapAt cUE a)
      | none => .ok (leNat (s.devRead t n))
    | [] => .error (trapAt cPAGE base)

/-- An engine slot from its words (R377): state 0 is an idle slot, 2 a stopped one. -/
def State.loadSlot (s : State) (ag : Agent) (dom : Nat) (w : Nat) : EngSlot :=
  let g (k : Nat) : Nat := bits w (64 * k + 63) (64 * k)
  let w0 := g 0
  if w0 % 4 ≠ 2 then {}
  else
    let x : EngSlot := { st := .stopped, op := bits w0 5 3, wd := n64 (g 3), wa := n64 (g 4), wb := n64 (g 5),
                         ox := (List.range 4).map (fun i => n64 (g (6 + i))), dom := dom }
    let y := x.lay
    let y := if y.pieces = bits w0 14 8 then y else ({ x with conv := s.engConv ag x }).lay
    -- nothing delivered, and refused by a rule over the whole: a restart decides afresh (R194, R198)
    let whole : Bool := g 1 = 2 ^ 64 - 2 ^ bits w0 14 8 && bits w0 23 16 = 0 && (bits w0 31 24 = cALIGN || bits w0 31 24 = cPAGE)
    { y with laid := !whole, pieces := bits w0 14 8, bitmap := g 1, miss := bits w0 23 16, status := bits w0 31 24, failAddr := n64 (g 2) }

def loadEntry (w : Nat) : SlotEntry :=
  { claimed := bit w 0, roleB := bit w 1, shared := bit w 2, loaded := bit w 3, fmt := bits w 7 4, lines := bits w 12 8,
    depth := bits w 24 16, gen := bits w 63 48 }

/-- The free physical slots of a quad. -/
def Quad.free (q : Quad) : List Nat := (List.range 24).filter (fun k => !q.used.contains k)

/-- Registers `lo` to `lo + n − 1` of `w` bits each from a block. -/
def regsFrom (lo n : Nat) (x : Nat) : Tab W64 := (List.range n).map (fun k => (lo + k, n64 (bits x (64 * k + 63) (64 * k))))
def loopFrom (x i : Nat) : LoopSet :=
  let g (k : Nat) : W64 := n64 (bits x (64 * (3 * i + k) + 63) (64 * (3 * i + k)))
  ⟨g 0 &&& ~~~(1#64), g 1 &&& ~~~(1#64), g 2⟩

/-- Loads a save area into a context (R377): in order the header, the lane, the wait for slots, and the restoring. What the masks left out
is unpredictable (R35, log 5), and reserved bits read as zero (R4). Slots that the context itself still holds are released (DEDUCED, log 40). -/
def State.loadArea (s : State) (core n base : Nat) : Try State :=
  let ag := Agent.ctx core n
  let rd (off len : Nat) : Try Nat := liftT (s.areaRead core base off len)
  (rd 0 8).bind fun h =>
  let bad : Stop := .trap { cause := cILLEGAL, info := n64 base }
  if !headerOk h then .error bad else
  let lane := laneOf (coreOf (bits h 50 48) (bits h 47 40) (bits h 39 32))
  if bit h 19 && (lane ≠ laneOf core || bits h 53 52 ≠ n) then .error (.trap (tile 7 0)) else
  (rd 0x10 16).bind fun masks =>
  (rd 0xC40 64).bind fun ew =>
  (rd 0x800 0x400).bind fun sw =>
  let entries := (List.range 8).map (fun e => loadEntry (bits ew (64 * e + 63) (64 * e)))
  let claimed := if bit h 19 then (List.range 8).filter (fun e => (entries.getD e {}).claimed) else []
  let smask := bits masks 31 0
  let vmask := bits masks 95 64
  (liftT ((headerBlocks h smask vmask claimed).mapM (fun b => s.areaRead core base b.1 b.2))).bind fun _ =>
  if (List.range 8).any (fun k => bits sw (1024 * k + 1) (1024 * k) ≠ 0 && bits sw (1024 * k + 1) (1024 * k) ≠ 2) then .error bad else
  -- a slot that still runs from earlier work ends first, where the area holds a stopped one for it (R189)
  if (List.range 8).any (fun k => bits sw (1024 * k + 1) (1024 * k) = 2 && (s.engSlot ag k).st = .running) then .error (.later (s.stallNow ag)) else
  let s0 := s
  let s := s.releaseAll ag
  let q := s.quad (quadOf core)
  if q.free.length < claimed.length then .error (.later (s0.stallNow ag)) else
  (rd 0x000 0x100).bind fun x =>
  (rd 0x200 0x40).bind fun shadow =>
  (rd 0x330 0x30).bind fun shl =>
  let opt (b : Bool) (off len : Nat) : Try Nat := if b then rd off len else .ok 0
  (opt (bit h 16) 0x240 0x40).bind fun oxs =>
  (opt (bit h 17) 0x280 0x80).bind fun ptrs =>
  (opt (bit h 18) 0x300 0x30).bind fun loops =>
  (opt (bit h 19) 0xC00 16).bind fun tc =>
  (opt (bit h 19) 0x1000 0x800).bind fun acc =>
  ((List.range 32).mapM fun k => if k ≠ 0 && bit smask k then rd (0x100 + 8 * k) 8 else .ok (Config.freeWord s.seq k).toNat).bind fun ss =>
  ((List.range 32).mapM fun k => if bit vmask k then rd (0x400 + 32 * k) 32 else .ok (Config.freeVec s.seq k).toNat).bind fun vs =>
  (claimed.mapM fun e => rd (0x2000 + 0x1000 * e) 4096).bind fun contents =>
  let g (off : Nat) : W64 := n64 (bits x (8 * off + 63) (8 * off))
  let free (k : Nat) : W64 := Config.freeWord s.seq k
  let pbits := (g 0x28).toNat
  let pend := ([cREVOKE, cPROBE, cTIMER, cINBOX, cTHROTTLE, cCARAVAN, cPREEMPT].filter (bit pbits)).map fun k =>
    (k, if k = cTIMER then g 0x98 else if k = cTHROTTLE then g 0xA0 else if k = cCARAVAN then g 0xA8 else if k = cREVOKE then g 0xB0 else 0)
  let tick := (g 0x90).toNat
  let accOf (i : Nat) : Tab (BitVec 32) := (List.range 256).map (fun k => (k, BitVec.ofNat 32 (bits acc (8192 * i + 32 * k + 31) (8192 * i + 32 * k))))
  let phys := q.free.take claimed.length
  let s := s.setQuad (quadOf core) { q with used := q.used ++ phys }
  let s := ((claimed.zip phys).zip contents).foldl (fun s (e, b) => s.writeBytes (slotKey (quadOf core) e.2 0) (leBytes 4096 b)) s
  let ents : Tab SlotEntry := (List.range 8).map fun e =>
    let y := entries.getD e {}
    if claimed.contains e then (e, { y with phys := (((claimed.zip phys).find? (fun z => z.1 = e)).map (·.2)).getD 0 })
    else (e, { gen := y.gen })
  let tmr := g 0x68
  let pend := if tmr ≠ 0 ∧ tmr.toNat ≤ s.time ∧ !has pend cTIMER then put cTIMER tmr pend else pend
  let pend := if bits (g 0x88).toNat 11 8 = 4 && !has pend cREVOKE then put cREVOKE (g 0xB0) pend else pend
  let s := s.modCtx ag fun c =>
    let r := { c.r with
      pc := g 0x08 &&& ~~~(1#64)
      s := (List.range 31).map (fun k => (k + 1, n64 (ss.getD (k + 1) 0)))
      absent := (~~~(BitVec.ofNat 32 (g 0x20).toNat)) &&& ~~~(1#32)
      tpend := []
      shadow := regsFrom 24 8 shadow
      v := (List.range 32).map (fun k => (k, BitVec.ofNat 256 (vs.getD k 0)))
      ox := if bit h 16 then regsFrom 0 8 oxs else (List.range 8).map (fun k => (k, free (32 + k)))
      p := if bit h 17 then regsFrom 0 8 (bits ptrs 511 0) else (List.range 8).map (fun k => (k, free (40 + k)))
      pw := if bit h 17 then (regsFrom 0 8 (bits ptrs 1023 512)).map (fun e => (e.1, e.2 &&& 0x8FFFFFFFFFFFFFFF#64)) else (List.range 8).map (fun k => (k, free (48 + k) &&& 0x8FFFFFFFFFFFFFFF#64))
      loop0 := if bit h 18 then loopFrom loops 0 else ⟨free 56 &&& ~~~(1#64), free 57 &&& ~~~(1#64), free 58⟩
      loop1 := if bit h 18 then loopFrom loops 1 else ⟨free 59 &&& ~~~(1#64), free 60 &&& ~~~(1#64), free 61⟩
      shLoop0 := loopFrom shl 0
      shLoop1 := loopFrom shl 1
      uvec := g 0x30 &&& ~~~(1#64)
      upc := g 0x38
      ucause := g 0x40 &&& 0xFF#64
      act := bit pbits 63
      uinfo := g 0x48
      uie := g 0x50 &&& 0xF00023300#64
      fx := g 0x58 &&& fxMask
      lmbase := g 0x60
      tmrCmp := tmr
      rank := g 0x70 &&& 7#64
      tchk := g 0x78 &&& 31#64
      tapCount := g 0x80
      ticket := if bit tick 63 then some (bits tick 47 32, bits tick 31 24, bits tick 20 0) else none
      tcfg := if bit h 19 then n64 (bits tc 63 0) &&& cfgBits else 0
      accBad := if bit h 19 then BitVec.ofNat 2 (bits tc 65 64) else 0
      acc0 := if bit h 19 then accOf 0 else []
      acc1 := if bit h 19 then accOf 1 else [] }
    { c with r := r, pend := pend, probes := [], rsvState := g 0x88 &&& 0x000F0F0F#64, rsvHeld := 0, rsvSpent := 0, entries := ents,
             slots := (List.range 8).map (fun k =>
               (k, if (look {} c.slots k).st = .running then look {} c.slots k else s.loadSlot ag c.r.dom.toNat (bits sw (1024 * k + 1023) (1024 * k)))),
             chunk := {}, attempts := 0, serial := false, mcmds := 0, flowMarks := [], tapStat := [],
             inThrottle := r.act && r.ucause = n64 cTHROTTLE }
  .ok (if tmr = 0 then s else s.at (Nat.max tmr.toNat s.time) .timer [ag.code])

/-! ## ERET (R367, R369) -/

/-- sstat after a return: sie takes psie, crit is cleared, and what a mask clears besides. -/
def statReturn (st : W64) (clear : Nat) : W64 :=
  (st &&& ~~~(n64 (9 + clear))) ||| n64 (b2n (bit st.toNat 1) 0)

/-- The return to the level that sstat names, at an address. -/
def State.leave (s : State) (ag : Agent) (lvl : Level) (clear : Nat) (pc : W64) : State :=
  let s := s.modCtx ag fun c => { c with lvl := lvl, r := { c.r with sstat := statReturn c.r.sstat clear, pc := pc } }
  s.armDeadline ag

/-- The save that ERET makes first (sv = 1). -/
def State.eretSave (s : State) (core n : Nat) : Try State :=
  let ag := Agent.ctx core n
  let r := s.regs ag
  let how := if bit r.sinfo.toNat 63 then (2, 0) else (0, bits r.sinfo.toNat 15 0)
  if !s.saveReady core n then .error (.later (s.stallNow ag))
  else
    match s.saveArea core n (s.saveMap ag how) r.save.toNat (r.spc &&& ~~~(1#64)) with
    | .error (.later s) => .error (.later (s.stallNow ag))
    | x => x

/-- ERET. A save that has been made is not made again while the load waits for operand slots; `got` says so. -/
def execEret (s : State) : Host.Outcome State Fault Refusal :=
  runWord .eret { cls := some 1, single := true, priv := true } (fun s ag =>
    match ag with
    | .iluet =>
      .ok ({ s with fw := { s.fw with fstat := statReturn s.fw.fstat 0 } }.modR ag (fun r => { r with pc := s.fw.fpc &&& ~~~(1#64) }), .done)
    | .ws _ => .ok (s, .fall)
    | .ctx core n =>
      if !(s.regs ag).tpend.isEmpty then .error (.later (s.stallNow ag)) else
      let st := (s.regs ag).sstat.toNat
      let load (s : State) : Try (State × Next) :=
        match s.loadArea core n (s.regs ag).save.toNat with
        | .ok s => .ok (s.leave ag .user 0x30 (s.regs ag).pc, .done)
        | .error (.trap t) => .error (.trapIn s t)
        | .error e => .error e
      let ret (s : State) : State × Next :=
        let r := s.regs ag
        (s.leave ag (if bit r.sstat.toNat 2 then .sup else .user) 0 (r.spc &&& ~~~(1#64)), .done)
      if bit st 4 && (s.ctx ag).got.isEmpty then
        (s.eretSave core n).bind fun s =>
          if bit st 5 then
            load ((s.modR ag (fun r => { r with save := r.sscratch &&& ~~~(0xFFF#64) })).modCtx ag (fun c => { c with got := [[]] }))
          else
            .ok ((s.modR ag (fun r => { r with sstat := r.sstat &&& ~~~(0x10#64) })).becomeSaved core n, .over)
      else if bit st 5 then load s
      else .ok (ret s)) s

/-! ## Asynchronous entry (R168, R359, R360, R495) -/

/-- The next deliverable cause of an agent, with its info and whether it goes to the supervisor (or the firmware). -/
def State.nextCause (s : State) (ag : Agent) : Option (Nat × W64 × Bool) :=
  let c := s.ctx ag
  let low (l : Tab W64) : Option (Nat × W64) := l.foldl (fun b e => match b with | none => some e | some x => if e.1 < x.1 then some e else b) none
  match ag with
  | .ws _ => none
  | .iluet => if bit s.fw.fstat.toNat 0 then (low c.pend).map (fun e => (e.1, e.2, true)) else none
  | .ctx _ _ =>
    let sup := c.pend.filter (fun e => !routed c.r e.1 && (e.1 ≠ cPREEMPT || c.lvl = .user))
    let usr := c.pend.filter (fun e => routed c.r e.1)
    let supOk : Bool := c.lvl = .user || bit c.r.sstat.toNat 0
    match (if supOk then low sup else none) with
    | some e => some (e.1, e.2, true)
    | none => if c.lvl = .user && !c.r.act then (low usr).map (fun e => (e.1, e.2, false)) else none

/-- Takes the next deliverable cause at a boundary: the chunk ends, a wait is withdrawn, and the cause enters. -/
def State.takeAsync (s : State) (ag : Agent) : Option State :=
  (s.nextCause ag).map fun (cause, info, sup) =>
    if !(s.regs ag).tpend.isEmpty then s.stallNow ag else
    match s.endChunk ag with
    | .error (.later s) => s
    | .error _ => s
    | .ok s =>
      let s := (s.withdrawWait ag).modCtx ag (fun c => { c.noInstr with retiring := false })
      let c := s.ctx ag
      let (detail, info, rest) := if cause = cPROBE then
          (match c.probes with | (d, i) :: ps => (d, i, ps) | [] => (0, info, []))
        else (0, info, c.probes)
      let keep : Bool := cause = cPROBE && !rest.isEmpty
      let s := s.modCtx ag (fun c => { c with probes := rest, pend := if keep then c.pend else del cause c.pend })
      let s := if cause = cTIMER then s.modR ag (fun r => { r with tmrCmp := 0 }) else s
      match ag with
      | .iluet => s.fwEntry cause 0 info c.r.pc true
      | _ => if sup then s.supEntry ag cause detail info c.r.pc true else s.userEntry ag cause info c.r.pc

/-- USER_TRAP_ENTRY: agent. A pending user-routed cause enters the user handler at a boundary. -/
def execUserTrapEntry (s : State) : Host.Outcome State Fault Refusal :=
  let ag := Agent.ofCode (s.arg 0)
  match s.nextCause ag with
  | some (_, _, false) => happen ((s.takeAsync ag).getD s)
  | _ => happen s

/-- SUPERVISOR_ENTRY: agent. A pending cause enters the supervisor, or the firmware. -/
def execSupervisorEntry (s : State) : Host.Outcome State Fault Refusal :=
  let ag := Agent.ofCode (s.arg 0)
  match s.nextCause ag with
  | some (_, _, true) => happen ((s.takeAsync ag).getD s)
  | _ => happen s

/-! ## Chunks -/

/-- CHUNK_COMMIT: agent. -/
def execChunkCommit (s : State) : Host.Outcome State Fault Refusal :=
  let ag := Agent.ofCode (s.arg 0)
  match s.endChunk ag with
  | .ok s => happen s
  | .error (.later s) => happen s
  | .error _ => happen s

/-- PRIORITY_TOKEN_GRANT: the arbiter grants the token to the context that has waited longest, while no other holds it (R213). -/
def execPriorityTokenGrant (s : State) : Host.Outcome State Fault Refusal :=
  match s.tokenHolder, s.tokenQ with
  | none, code :: rest =>
    let ag := Agent.ofCode code
    happen ({ s with tokenQ := rest, tokenHolder := some code }.modCtx ag (fun c => { c.wake with token := true }))
  | _, _ => happen s

/-- ILLEGAL_ENCODING: the word. A fetched word that is no instruction raises ILLEGAL with itself as info (R94). -/
def execIllegalEncoding (s : State) : Host.Outcome State Fault Refusal :=
  happen (s.takeTrap s.cur { cause := cILLEGAL, info := n64 (s.arg 0) })

end Sys2Proof.Machine
end

