-- ==== Sys2Proof/Machine/Waystation.lean ====
section
/-!
DEFINITION. Waystation handlers: starting and ending them, the WS instructions, the handler table and memory (R324 to R339).
-/

namespace Sys2Proof.Machine

open Sys2Proof

/-- The slice of a waystation agent. -/
def Agent.slice : Agent → Nat
  | .ws k => k
  | _ => 0

/-- The event whose handler runs on a waystation. -/
def State.wsRun (s : State) (ag : Agent) : WsEvent := (s.slice ag.slice).run.getD { kind := 0, entry := 0, va := 0 }

/-! ## Runs (R330, R332) -/

/-- Descriptor word 0 (R334). -/
def WsEvent.word0 (e : WsEvent) : Nat := e.depth * 2 ^ 24 + e.sectors * 2 ^ 16 + e.entry * 2 ^ 8 + e.kind

/-- HANDLER_START: slice. The head of the queue starts while no handler runs; its budget counts from now on, 0.8 ns a cycle. -/
def execHandlerStart (s : State) : Host.Outcome State Fault Refusal :=
  let k := s.arg 0
  let l := s.slice k
  match l.run, l.queue with
  | none, ev :: rest =>
    let w2 := l.word ev.entry 2
    let w3 := l.word ev.entry 3
    let ev := { ev with mbase := bits w3 31 24, msize := bits w3 23 16, dom := bits w2 63 48 }
    let due := s.time + (bits w2 31 16 * 4 + 4) / 5
    let r : Regs := { pc := n64 (bits w2 15 1 * 2), s := [(3, n64 ev.va), (4, n64 ev.word0)], dom := n64 ev.dom }
    happen ((s.setSlice k { l with run := some ev, queue := rest, runEnd := due, ctx := { r := r, st := .ready } }).at due .handlerOverrun [k])
  | _, _ => happen s

/-- Whether a handler stands at an instruction boundary with its budget passed: an instruction that waits completes first (R332). -/
def State.overrun (s : State) (k : Nat) : Bool :=
  (s.slice k).run.isSome && (s.slice k).runEnd ≤ s.time && (s.slice k).ctx.st = .ready

/-- HANDLER_OVERRUN: slice. A handler that has passed its budget is aborted at its next boundary (R332). -/
def execHandlerOverrun (s : State) : Host.Outcome State Fault Refusal :=
  let k := s.arg 0
  happen (if s.overrun k then s.endHandler k (some 0) else s)

/-! ## The WS instructions (R333 to R338) -/

/-- A WS instruction on its waystation. -/
def wsOp (i : Instr) (reads : List Nat) (f : State → Nat → WsEvent → Regs → Try (State × Next)) : State → Host.Outcome State Fault Refusal :=
  runWord i { cls := none, reads := reads } (fun s ag => f s ag.slice (s.wsRun ag) (s.regs ag))

def execWsrd (d a : Nat) := wsOp (.wsrd d a) [a] (fun s k ev r =>
  let x := (r.S a).toNat
  let done (v : Nat) : Try (State × Next) := .ok (s.modR (.ws k) (·.setS d (n64 v)), .fall)
  let bounds : Try (State × Next) := .error (.trap { cause := cBOUNDS, info := r.S a })
  if bit x 63 then
    if bits x 62 3 ≠ 0 then bounds else
    match bits x 2 0 with
    | 0 => done ev.word0
    | 1 => done ev.va
    | 2 => done ev.req
    | 3 => done ev.w3.toNat
    | 4 => done ev.w4.toNat
    | _ => bounds
  else if bits x 62 10 ≠ 0 then bounds
  else if x % 8 ≠ 0 then .error (.trap { cause := cALIGN, info := r.S a })
  else if ev.kind = 3 ∨ bit ev.sectors (x / 256) = false ∨ (ev.kind = 2 ∧ !ev.holdCopy) then bounds
  else done (leNat ((ev.line.drop x).take 8)))

/-- WSPF is a hint: it fills a sector of the handler's own domain, at its home slice, or does nothing (R335, R379). -/
def State.wspf (s : State) (k va : Nat) (ev : WsEvent) : State :=
  match addrCheck (.ws k) va 1 false, s.leafFor (.ws k) va with
  | .ok none, .ok l =>
    let key := l.key va
    let home := homeSlice l.stack va
    let t : LineTag := ⟨va / 256, key / 256, home, l.ty, l.own⟩
    if 2 ≤ l.ty || l.own ≠ ev.dom || s.darkLine t || bits va 55 48 = 0x81 then s
    else
      match (s.slice home).find va with
      | some _ => s
      | none => (s.keepLeaf (homeSlice (k / 64) va) va l).fillSector home t { dom := ev.dom, depth := ev.depth + 1 }
  | _, _ => s

def execWspf (a : Nat) := wsOp (.wspf a) [a] (fun s k ev r =>
  let va := (r.S a).toNat
  if s.pageHeld va then .error (.later (s.stallNow (.ws k))) else .ok (s.wspf k va ev, .fall))

/-- WSUPD (R336). -/
def wsupd (i : Instr) (d a b : Nat) (f : Nat → Nat → Nat) := wsOp i [a, b] (fun s k ev r =>
  let va := (r.S a).toNat
  if va % 8 ≠ 0 then .error (.trap (trapAt cALIGN va)) else
  match (s.slice k).find va with
  | none => .error (.trap (trapAt cPAGE va))
  | some e =>
    let key := e.tag.key * 256 + va % 256
    if e.tag.own ≠ ev.dom then .error (.trap (trapAt cPROT va))
    else if s.reserved (.ws k) [key / 256] || s.pageHeld va then .error (.later (s.stallNow (.ws k)))
    else
      (s.consume (some e.tag) va key 8).map fun s =>
        let old := s.value key 8
        let s := s.devWrite (some (.ws k)) (.mem k e.tag key) va (leBytes 8 (f old (r.S b).toNat % 2 ^ 64))
        (s.modR (.ws k) (·.setS d (n64 old)), .fall))

def execWsupdAdd (d a b : Nat) := wsupd (.wsupdAdd d a b) d a b (· + ·)
def execWsupdMin (d a b : Nat) := wsupd (.wsupdMin d a b) d a b (fun x y => if toSigned 64 y < toSigned 64 x then y else x)
def execWsupdMax (d a b : Nat) := wsupd (.wsupdMax d a b) d a b (fun x y => if toSigned 64 x < toSigned 64 y then y else x)
def execWsupdOr (d a b : Nat) := wsupd (.wsupdOr d a b) d a b (· ||| ·)

/-- The record of a forward that is dropped (R337). -/
def State.dropForward (s : State) (k dom entry kind : Nat) : State :=
  s.record { dom := dom, src := 6, sub := 4, loc := sliceLoc k, w4 := kind * 2 ^ 8 + entry }

def execWsfwd (a b : Nat) := wsOp (.wsfwd a b) [a, b] (fun s k ev r =>
  let w := (r.S a).toNat
  match coreOfId w with
  | none => .ok (s.dropForward k ev.dom ev.entry ev.kind, .fall)
  | some core =>
    .ok (s.send { chan := 2 ^ 35 + k * 2 ^ 17 + core, ev := ⟨.wsfwdArrival, [s.nextMsg]⟩, src := (Agent.ws k).code,
                  words := [core, bits w 21 20, bits w 47 32, (r.S b).toNat, ev.dom, ev.entry, ev.kind] }, .fall))

/-- WSFWD_ARRIVAL: message (R337). -/
def execWsfwdArrival (s : State) : Host.Outcome State Fault Refusal :=
  match s.msg? (s.arg 0) with
  | none => happen s
  | some m =>
    let s := s.drop (s.arg 0)
    let w (k : Nat) := m.words.getD k 0
    let k := (Agent.ofCode m.src).slice
    if (s.regs (.ctx (w 0) (w 1))).dom.toNat ≠ w 4 ∨ 64 ≤ (s.core (w 0)).inboxUsed then happen (s.dropForward k (w 4) (w 5) (w 6))
    else happen (s.enqueue (w 0) (w 1) (header 6 0 (w 2) 0 0 (sliceLoc k)) (n64 (w 3)))

def execWsdone := wsOp .wsdone [] (fun s k _ _ => .ok (s.endHandler k none, .over))

/-- The held line of an EVICT goes back, clean, where a way of its set is free or marked dead (R338). -/
def State.keepLine (s : State) (k : Nat) (ev : WsEvent) : State :=
  let l := s.slice k
  let line := ev.va / 1024
  let ways := l.ways line
  let dead : Bool := l.sectors.any (fun e => ways.contains (e.tag.va / 4, e.tag.key / 4, e.kept) && e.dead && !e.kept && !e.pinned)
  if ev.kind ≠ 2 || !ev.holdCopy || ways.any (fun w => w.1 = line && !w.2.2) || !(ways.length < 16 || dead) then s
  else ev.tags.foldl (fun s t => s.install k t false) s

def execWsdoneKeep := wsOp .wsdoneKeep [] (fun s k ev _ => .ok ((s.keepLine k ev).endHandler k none, .over))

def execWsdoneBypass := wsOp .wsdoneBypass [] (fun s k ev _ =>
  let s := if ev.kind = 2 then s.modSlice k (fun l => { l with noAlloc := addAll l.noAlloc [ev.va / 1024] }) else s
  .ok (s.endHandler k none, .over))

/-! ## Registration (R326 to R328) -/

/-- Whether an entry's window and limits allow it to go live for a writer. -/
def Slice.mayEnable (l : Slice) (e dom : Nat) : Bool :=
  let w2 := l.word e 2
  let w3 := l.word e 3
  let msize := bits w3 23 16
  let mbase := bits w3 31 24
  bits w2 63 48 = dom && msize ≠ 0 && mbase + msize ≤ 64 && bits w2 15 0 < msize * 1024 && bits w2 31 16 ≠ 0 &&
  (List.range 16).all fun j =>
    let x3 := l.word j 3
    j = e || !bit (l.word j 0) 0 || bits (l.word j 2) 63 48 = dom ||
    !(mbase < bits x3 31 24 + bits x3 23 16 && bits x3 31 24 < mbase + msize)

/-- A cleared enable drops the entry's queued events; those with a held copy give their holding entries back (R328, R331). -/
def Slice.dropQueued (l : Slice) (e : Nat) : Slice :=
  { l with queue := l.queue.filter (fun x => x.entry ≠ e), holds := l.holds - (l.queue.filter (fun x => x.entry = e && x.holdCopy)).length }

/-- A store to a word of the handler table by a party of a domain. A store that sets en takes effect only where the entry may go live for its writer; any
other leaves the word alone. -/
def State.tableWrite (s : State) (k dom off : Nat) (v : W64) : State :=
  let e := off / 32
  let w := off % 32 / 8
  let l := s.slice k
  let live := bit (l.word e 0) 0
  let set (x : W64) : State := s.setSlice k { l with table := put (4 * e + w) x l.table }
  match w with
  | 0 =>
    let v0 := v &&& 0xFFFFFFFFFFFF0000#64
    if v.getLsbD 0 = false then (set v0).modSlice k (fun l => l.dropQueued e)
    else if l.mayEnable e dom then set (v0 ||| 1#64)
    else s.record { dom := dom, src := 6, sub := 2, loc := sliceLoc k, w4 := e }
  | 1 => if live then s else set (v &&& 0xFFFFFFFFFFFF000F#64)
  | 2 => if live then s else set (v &&& 0xFFFF0000FFFFFFFF#64)
  | _ => if live then s else set ((v &&& 0xFFFF0000#64) ||| (n64 (l.word e 3) &&& 0xFFFFFFFF00000000#64))

/-- Whether a byte of handler memory lies in a window of some entry of a domain. -/
def Slice.inWindow (l : Slice) (dom off : Nat) : Bool :=
  (List.range 16).any fun e =>
    let w3 := l.word e 3
    bits (l.word e 2) 63 48 = dom && bits w3 31 24 * 1024 ≤ off && off < (bits w3 31 24 + bits w3 23 16) * 1024

/-- A store to handler memory by a party of a domain, byte by byte; the bytes left alone make one record. It is made between two runs. -/
def State.handlerWrite (s : State) (k dom off : Nat) (bs : List Byte) : State :=
  let l := s.slice k
  let all := bs.zip (List.range bs.length)
  let mine := all.filter (fun e => l.inWindow dom (off + e.2))
  let s := mine.foldl (fun s e => s.writeBytes (handlerKey k (off + e.2)) [e.1]) s
  if mine.length = all.length then s else s.record { dom := dom, src := 6, sub := 3, loc := sliceLoc k, addr := off }

/-- The domain of a party that stores: a context, the Iluet, or a host port. -/
def State.writerDom (s : State) (code : Nat) : Nat :=
  if 2 ^ 20 ≤ code then (look {} s.ports (code - 2 ^ 20)).dom.toNat else (s.regs (Agent.ofCode code)).dom.toNat

/-- HANDLER_TABLE_WRITE: party, 2^17 × slice + offset, value. -/
def execHandlerTableWrite (s : State) : Host.Outcome State Fault Refusal :=
  happen (s.tableWrite (s.arg 1 / 2 ^ 17) (s.writerDom (s.arg 0)) (s.arg 1 % 2 ^ 17) (n64 (s.arg 2)))
/-- HANDLER_MEMORY_WRITE: party, 2^17 × slice + offset in handler memory, bytes, value. -/
def execHandlerMemoryWrite (s : State) : Host.Outcome State Fault Refusal :=
  happen (s.handlerWrite (s.arg 1 / 2 ^ 17) (s.writerDom (s.arg 0)) (s.arg 1 % 2 ^ 16) (leBytes (s.arg 2) (s.arg 3)))

/-- A load from the waystation block. -/
def State.wsBlockRead (s : State) (k off n : Nat) : Nat :=
  if 0x10000 ≤ off then s.value (handlerKey k (off - 0x10000)) n
  else if off < 0x200 then ((s.slice k).word (off / 32) (off % 32 / 8))
  else 0

/-! ## A handler's own window (R325) -/

/-- The key of an access of a handler: an offset into its window. -/
def State.windowKey (s : State) (k ea n cause : Nat) : Except Trap Nat :=
  let ev := s.wsRun (.ws k)
  if ea % n ≠ 0 then .error (trapAt cALIGN ea)
  else if ev.msize * 1024 < ea + n then .error (trapAt cause ea)
  else .ok (handlerKey k (ev.mbase * 1024 + ea))

end Sys2Proof.Machine
end

