-- ==== Sys2Proof/Machine/Sched.lean ====
section
/-!
DEFINITION. The scheduler: posts of manifest cards and routes, admission attempts, placement, the dealing of records, completion, successors
and faults, pre-emption and the end of a caravan (R29 to R32, R161, R165, R402 to R420).
-/

namespace Sys2Proof.Machine

open Sys2Proof

/-! ## Records of the scheduler -/

def State.sched (s : State) (p : Nat) : Sched := look {} s.scheds p
def State.modSched (s : State) (p : Nat) (f : Sched → Sched) : State := { s with scheds := put p (f (s.sched p)) s.scheds }
def State.job? (s : State) (p k : Nat) : Option Job := ((s.sched p).jobs.find? (fun e => e.1 = k)).map (·.2)
def State.setJob (s : State) (p k : Nat) (j : Job) : State := s.modSched p (fun d => { d with jobs := put k j d.jobs })
def State.delJob (s : State) (p k : Nat) : State := s.modSched p (fun d => { d with jobs := del k d.jobs })
def State.route? (s : State) (p k : Nat) : Option Route := ((s.sched p).routes.find? (fun e => e.1 = k)).map (·.2)
def State.setRoute (s : State) (p k : Nat) (r : Route) : State := s.modSched p (fun d => { d with routes := put k r d.routes })
def State.modNode (s : State) (p k n : Nat) (f : Node → Node) : State :=
  match s.route? p k with
  | some r => s.setRoute p k { r with nodes := r.nodes.modify n f }
  | none => s

/-- A manifest that waits in its queue. -/
def Job.queued (j : Job) : Bool := j.st = .waiting || j.st = .reserving
/-- QLEN: manifests waiting in a queue (R402). -/
def Sched.qlen (d : Sched) (q : Nat) : Nat := (d.jobs.filter (fun e => e.2.queued && e.2.queue = q)).length
/-- The columns of a partition, in the order of their slice numbers (R422). -/
def State.colsOf (s : State) (p : Nat) : List Nat :=
  (List.range 512).filter (fun c => bit (look 0 (s.part p).pcols (c / 64)).toNat (c % 64))

/-- The partition's attempt: now, or at the next instant of R411 while something waits. -/
def State.attemptNow (s : State) (p : Nat) : State := s.start .admissionAttempt [p]
def Sched.stepAt (d : Sched) (now : Nat) : List Nat :=
  if d.age = 0 then [] else
  d.jobs.filterMap fun e =>
    let k := (now - e.2.since) / (d.age * 1000)
    if e.2.queued && e.2.queue + k < 7 then some (e.2.since + (k + 1) * (d.age * 1000)) else none
def Sched.waits (d : Sched) : Bool :=
  d.jobs.any (fun e => e.2.queued || e.2.st = .finishing || e.2.mask.isSome) || !d.routes.isEmpty
def State.armAttempts (s : State) (p : Nat) : State :=
  let d := s.sched p
  if !d.waits then s
  else
    let t := (d.stepAt s.time).foldl min ((s.time / 10000 + 1) * 10000)
    if s.agenda.any (fun e => e.1 ≤ t && e.2.row = .admissionAttempt && e.2.args = [p]) then s else s.at t .admissionAttempt [p]

/-! ## Placement (R413, R414) -/

/-- A rectangle of free cores in a column, with the lowest y and then the lowest x; a resumed caravan keeps its lane parity. -/
def findRect (free : Nat → Bool) (col h w : Nat) (par : Option (Nat × Nat)) : Option Band :=
  ((List.range (15 - h)).flatMap (fun y => (List.range (15 - w)).map (fun x => (y, x)))).findSome? fun (y, x) =>
    let b : Band := ⟨col, 14 * (col % 64 / 8) + y, 14 * (col % 8) + x, h, w⟩
    if (match par with | some (py, px) => b.y % 2 = py && b.x % 2 = px | none => true) && b.cores.all free then some b else none

/-- The places of bands from an index on: `cols` are the eligible columns with their scores, `done` the bands of this caravan placed so far,
`earlier` those that the attempt has given to other caravans. -/
def placeBands (cols : List (Nat × Int)) (kband : Nat) (free : Nat → Bool) (earlier : List Band) :
    List Nat → List (Option (Nat × Nat)) → List Band → Option (List Band)
  | [], _, done => some done
  | sh :: shapes, pars, done =>
    let h := bits sh 3 0 + 1
    let w := bits sh 7 4 + 1
    let mode := bits sh 9 8
    let fits (col : Nat) : Bool :=
      if mode = 1 then col = 64 * bits sh 18 16 + bits sh 25 20
      else match done.head? with
        | some b => mode ≠ 2 || col / 64 = b.col / 64
        | none => true
    let used := earlier ++ done
    let ok (c : Nat) : Bool := free c && !(used.any (fun b => b.cores.contains c))
    let cands := (cols.filter (fun c => fits c.1)).filterMap fun (col, score) =>
      (findRect ok col h w (pars.head?.getD none)).map fun b => (score + kband * (used.filter (fun b => b.col = col)).length, b)
    let best := cands.foldl (fun m c => match m with | none => some c | some x => if c.1 < x.1 then some c else some x) (none : Option (Int × Band))
    match best with
    | none => none
    | some (_, b) => placeBands cols kband free earlier shapes pars.tail (done ++ [b])

/-- A core that a band may take (R414): no courier waits for it, which takes an idle context first (R27). -/
def State.coreFree (s : State) (c : Nat) : Bool :=
  (s.ctx (.ctx c 0)).free && !(s.core c).mark && !(s.core c).resident && (s.core c).courier.isNone

/-- The sample of an attempt: each eligible column with its score (R413). -/
def State.scores (s : State) (p : Nat) : List (Nat × Int) :=
  let d := s.sched p
  (s.colsOf p).filterMap fun c =>
    let k := s.col c
    let tz := toSigned 16 (s.tzMax c)
    if toSigned 16 d.tlim ≤ tz || s.darkCols.contains c then none
    else
      let heat := if k.sample.2 = 0 then d.kfill else d.kfill * k.sample.1 / k.sample.2
      some (c, tz + heat + 64 * k.level)

/-! ## Posting (R404 to R408) -/

/-- Why a post is not made: a failed check, or a form that is refused with result 2; or not made yet, since a granule or bytes of a device or of another module
have to be waited for. -/
inductive PostStop where
  | trap (t : Trap)
  | bad
  | wait (need : Option (Nat × Nat))

/-- Whoever posts (R406, R496): a compute core or the Iluet with its own rights, a host port (2^20 and its number) with HC.RIGHTS and HC.DOM. -/
def State.posterOf (s : State) (code : Nat) : Poster :=
  if 2 ^ 20 ≤ code then
    let p := look {} s.ports (code - 2 ^ 20)
    { ag := .ws 0, rights := p.rights, dom := p.dom.toNat }
  else
    let ag := Agent.ofCode code
    { ag := ag, rights := s.plbOf ag, dom := (s.regs ag).dom.toNat }

/-- The check of an access made for a post, or later for its job with the rights found then (R39, R406, R496). -/
def State.postCheck (s : State) (who : Poster) (va n : Nat) (need : Rights) : Except Trap Target :=
  checkWith s who.ag who.rights who.dom va n need

/-- The errand of an access: its address, its length and, for a store, its word. -/
def State.errand? (s : State) (who : Poster) (va n : Nat) (word : Option Nat) : Option Errand :=
  s.errands.find? (fun e => e.who.tag = who.tag && e.va = va && e.len = n && e.word = word)
def State.addErrand (s : State) (e : Errand) : State := { s with errands := s.errands ++ [e] }
/-- What was read for a post or a job is done with. -/
def State.forget (s : State) (who : Poster) : State := { s with errands := s.errands.filter (fun e => e.who.tag ≠ who.tag) }
/-- What a post that waits has still to read is asked for. -/
def State.askFor (s : State) (who : Poster) (need : Option (Nat × Nat)) : State :=
  match need with
  | some (va, n) => s.addErrand { who := who, va := va, len := n }
  | none => s

/-- The aligned accesses of 8, 4, 2 and 1 bytes that take a run of bytes of registers (R326, R389). -/
def scalarParts (va n : Nat) : List (Nat × Nat) :=
  let rec go : Nat → Nat → Nat → List (Nat × Nat)
    | 0, _, _ => []
    | fuel + 1, a, n =>
      if n = 0 then [] else
      let k := if a % 8 = 0 && 8 ≤ n then 8 else if a % 4 = 0 && 4 ≤ n then 4 else if a % 2 = 0 && 2 ≤ n then 2 else 1
      (a, k) :: go fuel (a + k) (n - k)
  go n va n
/-- The accesses that read a run of bytes at a target that is no memory: any size of a host device, what a flit carries of another module (R389, R472). -/
def Target.parts (t : Target) (va n : Nat) : List (Nat × Nat) :=
  match t with
  | .host _ => [(va, n)]
  | .peer .. => flitParts va n
  | _ => scalarParts va n

/-- Bytes that a post copies: memory as it stands, scratchpad bytes once no running chunk has written their granules (R125), a host device, registers and
other modules by errands (R53, R124). -/
def State.postRead (s : State) (who : Poster) (va n : Nat) : Except PostStop (List Byte) :=
  let lift {α : Type} (x : Except Trap α) : Except PostStop α := x.mapError .trap
  (lift (s.postCheck who va n rdR)).bind fun _ =>
  (piecesLen va n).foldlM (init := []) fun bs (a, len) =>
    (lift (s.postCheck who a len rdR)).bind fun t =>
      match t.key? with
      | none =>
        (t.parts a len).foldlM (init := bs) fun bs (a, len) =>
          match s.errand? who a len none with
          | none => .error (.wait (some (a, len)))
          | some e =>
            match e.got with
            | none => .error (.wait none)
            | some (0, _, x) => .ok (bs ++ x)
            | some (cause, info, _) => .error (.trap { cause := cause, info := n64 info })
      | some key =>
        if isScratch key && s.specAny (keyCore key) key len then .error (.wait none) else
        match (granules64 key len).find? s.bad with
        | some g => .error (.trap (trapAt cUE (a + g * 64 - key)))
        | none => .ok (bs ++ s.devRead t len)

/-- A read for a post or its job has met an error: it is found there (R401). -/
def State.postMeet (s : State) (who : Poster) (t : Trap) : State :=
  if t.cause ≠ cUE then s else
  match s.postCheck who t.info.toNat 1 rdR with
  | .ok x => s.meet x t.info.toNat 1
  | .error _ => s

def need (b : Bool) : Except PostStop Unit := if b then .ok () else .error .bad
def State.postRights (s : State) (who : Poster) (va : Nat) (r : Rights) : Except PostStop Unit :=
  ((s.postCheck who va 8 r).mapError PostStop.trap).map (fun _ => ())

/-- Whether a shape word keeps its form, in the partition (R405, R406). -/
def State.shapeOk (s : State) (p sh : Nat) : Bool :=
  bits sh 31 26 = 0 && bit sh 19 = false && bits sh 15 10 = 0 && bits sh 9 8 ≠ 3 && bits sh 3 0 ≤ 13 && bits sh 7 4 ≤ 13 &&
  (bits sh 9 8 ≠ 1 || (s.colsOf p).contains (64 * bits sh 18 16 + bits sh 25 20))

/-- Whether a caravan could be placed with every core of the partition free (R406). -/
def State.placeable (s : State) (p : Nat) (shapes : List Nat) : Bool :=
  (placeBands ((s.colsOf p).map (fun c => (c, 0))) 0 (fun _ => true) [] shapes [] []).isSome

/-- Copies and checks a card and its successor list (R404, R406). -/
def State.readCard (s : State) (p : Nat) (who : Poster) (va : Nat) (inRoute : Bool) : Except PostStop Card := do
  let c := leNat (← s.postRead who va 0x38)
  let bands := bits c 205 200 + 1
  let shapeBytes ← s.postRead who (va + 0x38) (4 * bands)
  let shapes := (List.range bands).map (fun b => leNat ((shapeBytes.drop (4 * b)).take 4))
  let card : Card :=
    { entry := n64 (bits c 63 0), rbase := n64 (bits c 127 64), count := bits c 159 128, rsize := bits c 175 160, prio := bits c 194 192,
      rank := bits c 198 196, shapes := shapes, save := bits c 383 320, notify := bits c 447 384 }
  let succs := bits c 214 208
  need (bits c 191 176 = 0 && !bit c 195 && !bit c 199 && bits c 207 206 = 0 && bits c 255 215 = 0 && succs ≤ 64 &&
    !bit c 0 && card.rsize ≠ 0 && card.save % 4096 = 0 && card.notify % 8 = 0 && bits c 319 256 % 8 = 0 && (!inRoute || succs = 0) &&
    shapes.all (s.shapeOk p))
  let list ← if succs = 0 then .ok [] else s.postRead who (bits c 319 256) (8 * succs)
  let succ := (List.range succs).map (fun i => leNat ((list.drop (8 * i)).take 8))
  need (succ.all (fun e => bits e 2 1 = 0))
  if card.notify = 0 then .ok () else s.postRights who card.notify wrR
  need (s.placeable p shapes)
  .ok { card with succ := succ }

/-- Copies and checks a node with its list, its card or its predicate's rights (R408). -/
def State.readNode (s : State) (p : Nat) (who : Poster) (nodes va : Nat) : Except PostStop Node := do
  let w := leNat (← s.postRead who va 32)
  let kind := bits w 129 128
  let nt := bits w 142 136
  let nf := bits w 151 145
  let addr := bits w 63 0
  need (bits w 255 152 = 0 && bit w 144 = false && bit w 143 = false && bits w 135 130 = 0 && kind ≠ 3 && nt ≤ 64 && nf ≤ 64 &&
    (kind = 1 || nf = 0) && bits w 127 64 % 2 = 0 && (if kind = 2 then addr = 0 else addr % 8 = 0))
  let list ← if nt + nf = 0 then .ok [] else s.postRead who (bits w 127 64) (2 * (nt + nf))
  let succ := (List.range (nt + nf)).map (fun i => leNat ((list.drop (2 * i)).take 2))
  need (succ.all (· < nodes) && succ.eraseDups.length = succ.length)
  let card ← if kind = 0 then s.readCard p who addr true else .ok {}
  if kind = 1 then s.postRights who addr rdR else .ok ()
  .ok { kind := kind, addr := addr, nt := nt, succ := succ, card := card, edges := succ.map (fun _ => 0) }

/-- Removes the nodes without an incoming edge, again and again; what is left lies on a cycle or behind one. -/
def pruneNodes : Nat → List (Nat × List Nat) → List (Nat × List Nat)
  | 0, l => l
  | fuel + 1, l => pruneNodes fuel (l.filter (fun x => l.any (fun y => y.2.contains x.1)))

/-- Copies and checks a route (R407, R408). -/
def State.readRoute (s : State) (p : Nat) (who : Poster) (va : Nat) : Except PostStop Route := do
  let w := leNat (← s.postRead who va 24)
  let n := bits w 72 64
  let tbase := bits w 63 0
  let notify := bits w 191 128
  need (bits w 127 73 = 0 && 1 ≤ n && n ≤ 256 && tbase % 8 = 0 && notify % 8 = 0)
  let nodes ← (List.range n).mapM (fun k => s.readNode p who n (tbase + 32 * k))
  need (pruneNodes n ((List.range n).zip (nodes.map (·.succ)))).isEmpty
  if notify = 0 then .ok () else s.postRights who notify wrR
  .ok { id := 0, notify := notify, nodes := nodes }

/-- The id after an id (R403). -/
def nextJobId (n : Nat) : Nat := if n + 1 = 2 ^ 32 then 1 else n + 1

/-! ## Routes (R409, R410, R417, R418) -/

/-- The record of a job fault. -/
def State.jobFault (s : State) (p id index bitmap node cause : Nat) : State :=
  s.record { dom := supDom p, src := 7, sub := 1, cause := cause, w4 := id, w5 := index, w6 := bitmap, w7 := node }
/-- All ones: no index is concerned. -/
def noIndex : Nat := 2 ^ 64 - 1
/-- The bitmap of signalled edges. -/
def edgeMap (l : List Nat) : Nat := (l.zip (List.range l.length)).foldl (fun m e => if e.1 = 1 then m + 2 ^ e.2 else m) 0

/-- How an attempt at a notify word's write ends. -/
inductive NotifyEnd where
  | done
  | wait
  | fail (cause : Nat)

/-- The notify word's write, with the rights recorded at the post (R496): it waits for a priority chunk or a device, or a cause refuses it (R418). A word for
another module leaves on its flow; registers take it before the step ends. -/
def State.writeNotify (s : State) (who : Poster) (addr id : Nat) (cut : Bool) : State × NotifyEnd :=
  if addr = 0 then (s, .done) else
  let v := id + b2n cut 32
  match s.errand? who addr 8 (some v) with
  | some e =>
    match e.got with
    | none => (s, .wait)
    | some (0, _, _) => (s.forget who, .done)
    | some (cause, _, _) => (s.forget who, .fail cause)
  | none =>
    match s.postCheck who addr 8 wrR with
    | .error t => (s, .fail t.cause)
    | .ok t =>
      match t with
      | .mem .. | .raw .. | .scratch .. => if s.devWaits t 8 || s.pageHeld addr then (s, .wait) else (s.devWrite none t addr (leBytes 8 v), .done)
      | .host pa => (s.out 2 [1, pa, 8, v], .done)
      | .peer flow ord pva =>
        if bit (look 0 s.flows flow).toNat 62 then (s, .fail cFLOW)
        else if !s.credit flow 1 then (s, .wait)
        else
          let seq := look 0 s.flowSeq flow
          ((({ s with flowSeq := put flow ((seq + 1) % 2 ^ 32) s.flowSeq }).out (0x1000 + flow) [seq, 1, if ord then 1 else 0, pva, 8, v]).addErrand
             { who := { who with tag := [] }, va := addr, len := 8, word := some v, ask := some (flow, seq) }, .done)
      | _ => (s.addErrand { who := who, va := addr, len := 8, word := some v }, .wait)

/-- A route faults at a node. -/
def State.routeFault (s : State) (p k n cause : Nat) : State :=
  match s.route? p k with
  | none => s
  | some r =>
    let node := r.nodes[n]?.getD {}
    let s := s.setRoute p k { r with faults := r.faults ++ [n] }
    s.jobFault p r.id noIndex (edgeMap node.edges) (if n < r.nodes.length then n else noIndex) cause

/-- The route ends when every node has run or been skipped: its notify word is written and it becomes inactive. -/
def State.routeDone (s : State) (p k : Nat) : State :=
  match s.route? p k with
  | none => s
  | some r =>
    if r.nodes.any (fun n => n.st ≠ 4) || !r.faults.isEmpty then s
    else
      match s.writeNotify { r.poster with tag := [4, p, k, r.nodes.length] } r.notify r.id (r.nodes.any (fun n => n.edges.contains 2)) with
      | (s, .done) => s.modSched p (fun d => { d with routes := del k d.routes })
      | (s, .wait) => s.armAttempts p
      | (s, .fail c) => s.routeFault p k r.nodes.length c

/-- A node all of whose edges are resolved: the notify word of its card is written, and it is finished. -/
def State.nodeDone (s : State) (p k n : Nat) : State :=
  match s.route? p k with
  | none => s
  | some r =>
    let node := r.nodes[n]?.getD {}
    if node.st ≠ 3 || node.edges.contains 0 then s
    else
      match s.writeNotify { r.poster with tag := [4, p, k, n] } node.card.notify r.id (node.edges.contains 2) with
      | (s, .done) =>
        let s := s.modNode p k n (fun x => { x with st := 4 })
        let s := match s.route? p k with
          | some r => s.setRoute p k { r with faults := r.faults.filter (· ≠ n) }
          | none => s
        s.routeDone p k
      | (s, .wait) => s.armAttempts p
      | (s, .fail c) => s.routeFault p k n c

/-- A manifest enters its queue. -/
def State.enqueueJob (s : State) (p : Nat) (j : Job) : State :=
  let key := (s.sched p).nextKey
  (s.modSched p (fun d => { d with jobs := put key { j with since := s.time } d.jobs, nextKey := key + 1 })).attemptNow p

/-- A manifest node enters its queue if there is room, or waits in the route. -/
def State.enterNode (s : State) (p k n : Nat) : State :=
  match s.route? p k with
  | none => s
  | some r =>
    let c := (r.nodes[n]?.getD {}).card
    let q := r.atQueue.getD c.prio
    if 64 ≤ (s.sched p).qlen q then s.modNode p k n (fun x => { x with st := 1 })
    else (s.modNode p k n (fun x => { x with st := 2 })).enqueueJob p { id := r.id, order := k, card := c, route := some (k, n), queue := q }

/-- The edges of a node, each with a value. -/
def Node.out (x : Node) (n : Nat) (f : Nat → Nat) : List (Nat × Nat × Nat) := (List.range x.succ.length).map (fun e => (n, e, f e))

/-- An eligible node runs or is skipped; the result says which edges are now to be resolved. -/
def State.runNode (s : State) (p k n : Nat) : State × List (Nat × Nat × Nat) :=
  match s.route? p k with
  | none => (s, [])
  | some r =>
    let x := r.nodes[n]?.getD {}
    let inc := r.nodes.flatMap (fun y => (y.succ.zip y.edges).filterMap (fun e => if e.1 = n then some e.2 else none))
    let open_ (s : State) : State := s.modNode p k n (fun x => { x with st := 3 })
    let close (s : State) (l : List (Nat × Nat × Nat)) : State × List (Nat × Nat × Nat) := if l.isEmpty then (s.nodeDone p k n, []) else (s, l)
    if !inc.isEmpty && !inc.contains 1 then
      if x.succ.isEmpty then ((s.modNode p k n (fun x => { x with st := 4 })).routeDone p k, [])
      else (s.modNode p k n (fun x => { x with st := 3, card := { x.card with notify := 0 } }), x.out n (fun _ => 2))
    else if x.kind = 0 then (s.enterNode p k n, [])
    else if x.kind = 1 then
      let who := { r.poster with tag := [2, p, k, n] }
      match s.postRead who x.addr 8 with
      | .error (.trap t) => ((((open_ s).forget who).postMeet r.poster t).routeFault p k n t.cause, [])
      | .error .bad => (s, [])
      | .error (.wait need) => (((s.modNode p k n (fun x => { x with st := 5 })).askFor who need).armAttempts p, [])
      | .ok bs => close ((open_ s).forget who) (x.out n (fun e => if decide (e < x.nt) = decide (leNat bs ≠ 0) then 1 else 2))
    else close (open_ s) (x.out n (fun _ => 1))

/-- Resolves one edge; a target whose last incoming edge it is becomes eligible at that instant. -/
def State.resolveEdge (s : State) (p k : Nat) (e : Nat × Nat × Nat) : State × List (Nat × Nat × Nat) :=
  let s := s.modNode p k e.1 (fun x => { x with edges := x.edges.set e.2.1 e.2.2 })
  let s := s.nodeDone p k e.1
  match s.route? p k with
  | none => (s, [])
  | some r =>
    match (r.nodes[e.1]?.getD {}).succ[e.2.1]? with
    | none => (s, [])
    | some t =>
      if (r.nodes[t]?.getD {}).st = 0 && r.nodes.all (fun y => (y.succ.zip y.edges).all (fun z => z.1 ≠ t || z.2 ≠ 0)) then s.runNode p k t
      else (s, [])

/-- Resolves edges in order, those of a node that becomes eligible before the rest, until more faults stand than `limit`; what is left waits
in the route. -/
def State.runEdges : Nat → State → Nat → Nat → Nat → List (Nat × Nat × Nat) → State
  | 0, s, _, _, _, _ => s
  | _ + 1, s, _, _, _, [] => s
  | fuel + 1, s, p, k, limit, e :: l =>
    match s.route? p k with
    | none => s
    | some r =>
      if limit < r.faults.length then s.setRoute p k { r with todo := e :: l ++ r.todo }
      else
        let (s, new) := s.resolveEdge p k e
        State.runEdges fuel s p k limit (new ++ l)

/-- At most 256 nodes of 128 edges. -/
def edgeFuel : Nat := 32769

/-- Goes on with what waits in the route, when no fault stands. -/
def State.routeGoOn (s : State) (p k : Nat) : State :=
  match s.route? p k with
  | none => s
  | some r => if r.faults.isEmpty then State.runEdges edgeFuel (s.setRoute p k { r with todo := [] }) p k 0 r.todo else s

/-- A manifest node has completed: its edges are signalled. -/
def State.nodeComplete (s : State) (p k n : Nat) : State :=
  let s := s.modNode p k n (fun x => { x with st := 3 })
  match s.route? p k with
  | none => s
  | some r =>
    let x := r.nodes[n]?.getD {}
    if x.succ.isEmpty then s.nodeDone p k n
    else (s.setRoute p k { r with todo := r.todo ++ x.out n (fun _ => 1) }).routeGoOn p k

/-! ## The outcome of a post -/

/-- Posts a card or a route: the result code of R165 and the job id, or a failed check, or what it waits for (R403, R406). -/
def State.post (s : State) (p : Nat) (who : Poster) (va : Nat) (isRoute : Bool) (atQueue : Option Nat) : Except PostStop (State × Nat × Nat) :=
  if va % 8 ≠ 0 then .error (.trap (trapAt cALIGN va)) else
  let d := s.sched p
  let owner := { who with tag := [] }
  if isRoute then
    match s.readRoute p who va with
    | .error .bad => .ok (s, 2, 0)
    | .error e => .error e
    | .ok r =>
      if 16 ≤ d.routes.length then .ok (s, 1, 0)
      else
        let k := d.nextKey
        let s := s.modSched p fun d =>
          { d with nextId := nextJobId d.nextId, nextKey := k + 1, routes := put k { r with id := d.nextId, poster := owner, atQueue := atQueue } d.routes }
        let heads := (List.range r.nodes.length).filter (fun n => r.nodes.all (fun y => !y.succ.contains n))
        let s := heads.foldl (init := s) fun s n =>
          let (s, new) := s.runNode p k n
          match s.route? p k with
          | some r => State.runEdges edgeFuel s p k (if r.faults.isEmpty then 0 else r.faults.length - 1) new
          | none => s
        .ok (s.attemptNow p, 0, d.nextId)
  else
    match s.readCard p who va false with
    | .error .bad => .ok (s, 2, 0)
    | .error e => .error e
    | .ok c =>
      let q := atQueue.getD c.prio
      if 64 ≤ d.qlen q then .ok (s, 1, 0)
      else
        let s := s.modSched p (fun d => { d with nextId := nextJobId d.nextId })
        .ok (s.enqueueJob p { id := d.nextId, order := d.nextKey, card := c, poster := owner, queue := q, edges := c.succ.map (fun _ => 0) }, 0, d.nextId)

/-! ## Completion of a standalone manifest (R416 to R418) -/

/-- A job whose edges are all resolved writes its notify word and is over. -/
def State.finishJob (s : State) (p k : Nat) : State :=
  match s.job? p k with
  | none => s
  | some j =>
    match s.writeNotify { j.poster with tag := [5, p, k] } j.card.notify j.id (j.edges.contains 2) with
    | (s, .done) => s.delJob p k
    | (s, .wait) => (s.setJob p k { j with st := .finishing, mask := none }).armAttempts p
    | (s, .fail c) => (s.setJob p k { j with st := .faulted, mask := none }).jobFault p j.id noIndex (edgeMap j.edges) noIndex c

/-- Signals the open entries that are selected, one at a time in list order, until one finds its queue full or fails. -/
def State.pump (s : State) (p k : Nat) : State :=
  match s.job? p k with
  | none => s
  | some j =>
    let sel (i : Nat) : Bool := match j.mask with | some m => bit m i | none => true
    let (s, stop) := (List.range j.edges.length).foldl (init := (s, false)) fun (s, stop) i =>
      match (if stop then none else s.job? p k) with
      | none => (s, stop)
      | some j =>
        if j.edges.getD i 0 ≠ 0 || !sel i then (s, false)
        else
          let e := j.card.succ.getD i 0
          let fail (cause : Nat) : State × Bool :=
            ((s.setJob p k { j with st := .faulted, mask := none }).jobFault p j.id i (edgeMap j.edges) noIndex cause, true)
          let who := { j.poster with tag := [3, p, k] }
          match s.post p who (e / 8 * 8) (bit e 0) none with
          | .error (.trap t) => let (s, stop) := fail t.cause; ((s.forget who).postMeet j.poster t, stop)
          | .error .bad => fail 0
          | .error (.wait need) => ((s.askFor who need).armAttempts p, true)
          | .ok (s, 0, _) =>
            let s := s.forget who
            match s.job? p k with
            | some j => (s.setJob p k { j with edges := j.edges.set i 1 }, false)
            | none => (s, true)
          | .ok (_, 1, _) => (s.forget who, true)
          | .ok _ => let (s, stop) := fail 0; (s.forget who, stop)
    match (if stop then none else s.job? p k) with
    | none => s
    | some j => if j.edges.contains 0 then s.setJob p k { j with st := .faulted, mask := none } else s.finishJob p k

/-! ## Residence -/

/-- The end of a caravan's residence: its cores belong to no caravan, and an attempt is made (R411, R415). -/
def State.leaveCores (s : State) (p : Nat) (j : Job) : State :=
  let s := j.cores.foldl (fun s c => s.modCore c (fun k => { k with resident := false, mark := false, stopped := false, bandId := 0, caravanId := 0 })) s
  let s := if j.preempt = some true then
      j.cores.foldl (fun s c => (List.range 4).foldl (fun s n => s.cancelPreempt (.ctx c n)) s) s else s
  s.attemptNow p

/-- A manifest completes: its successors are signalled (R416, R417). -/
def State.completeJob (s : State) (p k : Nat) : State :=
  match s.job? p k with
  | none => s
  | some j =>
    match j.route with
    | some (r, n) => (s.delJob p k).nodeComplete p r n
    | none => (s.setJob p k { j with st := .finishing, cores := [], bands := [], live := [], preempt := none }).pump p k

/-- A caravan ended by ENDCAR leaves residence, and its job faults with no edge signalled (R420). -/
def State.endedJob (s : State) (p k : Nat) (j : Job) : State :=
  let s := s.leaveCores p j
  match j.route with
  | some (r, n) => ((s.delJob p k).modNode p r n (fun x => { x with st := 3 })).routeFault p r n 0
  | none =>
    (s.setJob p k { j with st := .faulted, cores := [], bands := [], live := [], preempt := none, ending := false }).jobFault p j.id noIndex 0 noIndex 0

/-- A context of a core has ended: what follows for the caravan (R32, R416, R420). -/
def State.leftCaravan (s : State) (core n : Nat) : State :=
  match s.jobOf core with
  | none => s
  | some (p, k, j) =>
    let live := if n = 0 then j.live.filter (fun o => j.cores[o]? ≠ some core) else j.live
    let s := s.setJob p k { j with live := live }
    if j.ending then
      if j.cores.all (fun c => (List.range 4).all (fun n => !(s.ctx (.ctx c n)).live)) then s.endedJob p k { j with live := live } else s
    else if live.isEmpty then (s.leaveCores p j).completeJob p k
    else if j.preempt = some true then s.start .caravanSave [p, k]
    else s

/-- Ends a context for good once its chunk has committed; the state says so when it cannot yet. -/
def State.endNow (s : State) (ag : Agent) : State :=
  match ag, s.endChunk ag with
  | .ctx core n, .ok s => (s.endContext ag).leftCaravan core n
  | _, .error (.later s) => s
  | _, _ => s

/-- The dealer gives the next chunk of records: s3, s4 and the job after it (R30). -/
def Job.deal (j : Job) : Option (W64 × W64 × Job) :=
  let rem := j.card.count - j.dealt
  if rem = 0 then none
  else
    let d := 2 * j.cores.length
    let n := max 1 ((rem + d - 1) / d)
    some (j.card.rbase + n64 (j.dealt * j.card.rsize), n64 n, { j with dealt := j.dealt + n })

/-- The job in whose caravan a context is a participating control context that has not ended. -/
def State.control (s : State) (ag : Agent) : Option (Nat × Nat × Job) :=
  match ag with
  | .ctx core 0 =>
    match s.jobOf core with
    | some (p, k, j) => if j.live.any (fun o => j.cores[o]? = some core) then some (p, k, j) else none
    | none => none
  | _ => none

/-! ## RETIRE and MPOST -/

/-- RETIRE (R31, R32, R161): a control context goes on with the next chunk; any other context, or one that finds no record, ends, a control
context after its last helper. The end waits for the context's TAPs and their PROBEs (R347), and for what is under way on its reservation. -/
def execRetire (s : State) : Host.Outcome State Fault Refusal :=
  runWord .retire { cls := some 14, single := true } (fun s ag =>
    let c := s.ctx ag
    if c.r.act then .error (.trap (illegal .retire)) else
    match ag with
    | .ctx core n =>
      match (s.control ag).bind (fun (p, k, j) => j.deal.map (fun d => (p, k, j, d))) with
      | some (p, k, j, x, y, j') =>
        .ok ((s.setJob p k j').modR ag (fun r => (r.setS 3 x).setS 4 y), .goto j.card.entry)
      | none =>
        if !c.r.tpend.isEmpty || c.mcmds ≠ 0 || c.taps ≠ 0 || !c.probes.isEmpty ||
           ((s.core core).holder = some n && (s.core core).running n ≠ 0) then .error (.later (s.stallNow ag))
        else if n = 0 && (List.range 4).any (fun h => h ≠ 0 && (s.ctx (.ctx core h)).live) then
          .error (.later (s.modCtx ag (fun c => { c with st := .waiting, why := 4, held := true, retiring := true })))
        else .ok (((s.charge ag).endContext ag).leftCaravan core n, .over)
    | _ => .ok (s, .fall)) s

/-- HELPERS_ENDED: core. The control context that waits in RETIRE ends with its last helper (R32). -/
def execHelpersEnded (s : State) : Host.Outcome State Fault Refusal :=
  let core := s.arg 0
  let ag := Agent.ctx core 0
  let c := s.ctx ag
  if c.st = .waiting && c.why = 4 && c.retiring && (List.range 4).all (fun n => n = 0 || !(s.ctx (.ctx core n)).live) then
    happen ((((s.charge ag).endContext ag).modCore core (fun k => { k with retired := k.retired + 1 })).leftCaravan core 0)
  else happen s

/-- MPOST (R165, R406). -/
def execMpost (a b c : Nat) (s : State) : Host.Outcome State Fault Refusal :=
  runWord (.mpost a b c) { cls := some 14, single := true, reads := [a, b, c] } (fun s ag =>
    let va := ((s.regs ag).S a).toNat
    let x := ((s.regs ag).S b).toNat
    let res (s : State) (v : Nat) : Try (State × Next) := .ok (s.modR ag (·.setS c (n64 v)), .fall)
    match s.partOf ag with
    | none => res s 2
    | some p =>
      if bits x 63 5 ≠ 0 then res s 2
      else
        let who := { s.posterOf ag.code with tag := [0, ag.code] }
        match s.post p who va (bit x 4) (if bit x 3 then some (bits x 2 0) else none) with
        | .error (.trap t) => .error (.trapIn ((s.forget who).postMeet who t) t)
        | .error .bad => res (s.forget who) 2
        | .error (.wait need) => .error (.later ((s.askFor who need).awaitLine ag))
        | .ok (s, v, _) => res (s.forget who) v) s

/-! ## The window's stores (R402, R418 to R420) -/

/-- A store that names nothing, or something in the wrong state. -/
def State.badStore (s : State) (who : Nat) (cause va : Nat) : State :=
  s.record { dom := s.writerDom who, src := 7, sub := 2, cause := cause, addr := va }

/-- The poster of a store to POST. -/
def State.storePoster (s : State) (who p v : Nat) : Poster := { s.posterOf who with tag := [1, who, p, v] }
/-- The post that a store to POST makes. -/
def State.postOf (s : State) (who p v : Nat) : Except PostStop (State × Nat × Nat) :=
  if bits v 2 1 ≠ 0 then .error (.trap (trapAt cALIGN (v / 2 * 2))) else s.post p (s.storePoster who p v) (v / 8 * 8) (bit v 0) none
/-- A store to POST that waits for bytes of its card: what it asks for. -/
def State.postHalts (s : State) (who p off v : Nat) : Option State :=
  if off ≠ 0x60 then none else
  match s.postOf who p v with
  | .error (.wait need) => some (s.askFor (s.storePoster who p v) need)
  | _ => none

/-- A store to POST, which does not wait. -/
def State.storePost (s : State) (who p v : Nat) : State :=
  let set (s : State) (res id : Nat) : State := (s.forget (s.storePoster who p v)).modSched p (fun d => { d with postr := n64 (id * 2 ^ 32 + res) })
  match s.postOf who p v with
  | .error (.trap t) => set ((s.postMeet (s.posterOf who) t).badStore who t.cause t.info.toNat) 2 0
  | .error _ => s
  | .ok (s, res, id) => set s res id

/-- A store to SIGNAL. -/
def State.storeSignal (s : State) (who p v : Nat) : State :=
  let d := s.sched p
  let m := d.sigmask.toNat
  match d.jobs.find? (fun e => e.2.id = v && e.2.route.isNone && e.2.st = .faulted && e.2.edges.contains 0),
        d.routes.find? (fun e => e.2.id = v && (match e.2.faults.head? with
          | some n => (e.2.nodes[n]?.getD {}).edges.contains 0
          | none => false)) with
  | some (k, j), _ => (s.setJob p k { j with mask := some (j.mask.getD 0 ||| m) }).pump p k
  | none, some (k, r) =>
    let n := r.faults.head?.getD 0
    let x := r.nodes[n]?.getD {}
    let sel := (x.out n (fun _ => 1)).filter (fun e => bit m e.2.1 && x.edges.getD e.2.1 0 = 0)
    (State.runEdges edgeFuel s p k r.faults.length sel).routeGoOn p k
  | none, none => s.badStore who 0 0

/-- A store to CANCEL. -/
def State.storeCancel (s : State) (who p v : Nat) : State :=
  let d := s.sched p
  match d.jobs.find? (fun e => e.2.id = v && e.2.route.isNone && e.2.st = .faulted),
        d.routes.find? (fun e => e.2.id = v && !e.2.faults.isEmpty) with
  | some (k, j), _ => (s.setJob p k { j with edges := j.edges.map (fun e => if e = 0 then 2 else e), mask := none }).finishJob p k
  | none, some (k, r) =>
    let n := r.faults.head?.getD 0
    if n = r.nodes.length then (s.setRoute p k { r with faults := r.faults.tail }).routeDone p k
    else
      let x := r.nodes[n]?.getD {}
      let sel := (x.out n (fun _ => 2)).filter (fun e => x.edges.getD e.2.1 0 = 0)
      if sel.isEmpty then ((s.setRoute p k { r with faults := r.faults.tail }).nodeDone p k n).routeGoOn p k
      else (State.runEdges edgeFuel s p k r.faults.length sel).routeGoOn p k
  | none, none => s.badStore who 0 0

/-- The resident manifests that a caravan.id names. -/
def State.caravans (s : State) (p v : Nat) : List (Nat × Job) :=
  if bits v 63 32 ≠ p then [] else (s.sched p).jobs.filter (fun e => e.2.st = .resident && e.2.id = bits v 31 0)

/-- The live contexts of a job's cores. -/
def State.liveOf (s : State) (j : Job) : List Agent :=
  j.cores.flatMap (fun c => ((List.range 4).map (fun n => Agent.ctx c n)).filter (fun ag => (s.ctx ag).live))
def Ctx.frozen (c : Ctx) : Bool := c.st = .waiting && c.why = 6

/-- A store to PREEMPT: the request is made at the next multiple of 1,000 ns, or refused (R419). -/
def State.storePreempt (s : State) (who p v : Nat) : State :=
  let cars := s.caravans p v
  let known : Bool := bits v 63 32 = p &&
    ((s.sched p).jobs.any (fun e => e.2.id = bits v 31 0) || (s.sched p).routes.any (fun e => e.2.id = bits v 31 0))
  if !known then s.badStore who 0 0
  else if cars.isEmpty then s.record { dom := supDom p, src := 7, sub := 3 }
  else cars.foldl (init := s) fun s (k, j) =>
    if j.card.save = 0 || (s.liveOf j).any (fun ag => (s.ctx ag).frozen) then s.record { dom := supDom p, src := 7, sub := 3 }
    else if j.preempt.isSome then s
    else (s.setJob p k { j with preempt := some false }).at ((s.time / 1000 + 1) * 1000) .caravanPreemptTick [p, k]

/-- A store to ENDCAR: waiting and held contexts end at once, every other at its next boundary; a holder of a reservation once what runs on it has been
charged (R285, R420). A saved context that a resumption has still to load ends with the rest. -/
def State.storeEndcar (s : State) (who p v : Nat) : State :=
  let cars := s.caravans p v
  if cars.isEmpty then s.badStore who 0 0
  else cars.foldl (init := s) fun s (k, j) =>
    let j := { j with ending := true, preempt := none, saved := none }
    let s := s.setJob p k j
    let live := s.liveOf j
    if live.isEmpty then s.endedJob p k j else
    let now := live.filter (fun ag => ((s.ctx ag).st = .waiting || (s.ctx ag).parked || (s.ctx ag).loading) && !s.endHeld ag)
    let s := live.foldl (fun s ag => (s.clearPreempt ag).modCtx ag (fun c => { c with ending := true, parked := false, saving := none })) s
    now.foldl (fun s ag => s.endNow ag) s

/-- POST: storing party, partition, value. -/
def execPost (s : State) : Host.Outcome State Fault Refusal :=
  match s.postHalts (s.arg 0) (s.arg 1) 0x60 (s.arg 2) with
  | some s => happen (s.start .post s.args)
  | none => happen (s.storePost (s.arg 0) (s.arg 1) (s.arg 2))
/-- SCHED_PREEMPT: storing party, partition, value. -/
def execSchedPreempt (s : State) : Host.Outcome State Fault Refusal := happen (s.storePreempt (s.arg 0) (s.arg 1) (s.arg 2))
/-- SIGNAL: storing party, partition, value. -/
def execSignal (s : State) : Host.Outcome State Fault Refusal := happen (s.storeSignal (s.arg 0) (s.arg 1) (s.arg 2))
/-- CANCEL: storing party, partition, value. -/
def execCancel (s : State) : Host.Outcome State Fault Refusal := happen (s.storeCancel (s.arg 0) (s.arg 1) (s.arg 2))
/-- ENDCAR: storing party, partition, value. -/
def execEndcar (s : State) : Host.Outcome State Fault Refusal := happen (s.storeEndcar (s.arg 0) (s.arg 1) (s.arg 2))

/-! ## Attempts (R411 to R414) -/

/-- The effective priority. -/
def Sched.eff (d : Sched) (now : Nat) (j : Job) : Nat :=
  if d.age = 0 then j.queue else min 7 (j.queue + (now - j.since) / (d.age * 1000))

/-- A conditional that waits for its predicate word tries again. -/
def State.rerunNode (s : State) (p k n : Nat) : State :=
  let (s, new) := s.runNode p k n
  match s.route? p k with
  | some r => (s.setRoute p k { r with todo := r.todo ++ new }).routeGoOn p k
  | none => s

/-- What waited for an errand tries again. -/
def State.retryFor (s : State) (tag : List Nat) : State :=
  match tag with
  | [2, p, k, n] => s.rerunNode p k n
  | [3, p, k] => s.pump p k
  | [4, p, k, n] => (s.nodeDone p k n).routeDone p k
  | [5, p, k] => s.finishJob p k
  | _ => s

/-- What earlier attempts left waiting for room is tried again: nodes, entries of finishing jobs, edges that SIGNAL selected, notify words. -/
def State.retryAll (s : State) (p : Nat) : State :=
  let s := (s.sched p).routes.foldl (init := s) fun s (k, r) =>
    let s := (List.range r.nodes.length).foldl (init := s) fun s n =>
      match (s.route? p k).bind (fun r => r.nodes[n]?) with
      | some x =>
        if x.st = 1 then s.enterNode p k n
        else if x.st = 5 then s.rerunNode p k n
        else if x.st = 3 && !r.faults.contains n then s.nodeDone p k n
        else s
      | none => s
    s.routeDone p k
  (s.sched p).jobs.foldl (init := s) fun s (k, j) => if j.st = .finishing || j.mask.isSome then s.pump p k else s

/-- Whether one waiting manifest is considered before another: eff descending, then in the order of posting. -/
def Sched.ahead (d : Sched) (now : Nat) (a b : Nat × Job) : Bool :=
  let x := d.eff now a.2
  let y := d.eff now b.2
  y < x || (x = y && (a.2.order < b.2.order || (a.2.order = b.2.order && a.1 ≤ b.1)))
def insertBy {α : Type} (le : α → α → Bool) (a : α) : List α → List α
  | [] => [a]
  | b :: l => if le a b then a :: b :: l else b :: insertBy le a l

/-- Sends the reservations of a caravan whose bands all have a place. -/
def State.reserveCaravan (s : State) (p k : Nat) (j : Job) (bands : List Band) : State :=
  let cores := bands.flatMap Band.cores
  let s := s.setJob p k { j with st := .reserving, bands := bands, cores := cores, asked := cores, refused := false }
  cores.foldl (init := s) fun s c =>
    s.send { chan := 2 ^ 38 + s.nextMsg, ev := ⟨.coreReservation, [s.nextMsg]⟩, words := [p, k, c] }

/-- A manifest whose admission no manifest with a larger id is put ahead of: one with eff = 7 that an attempt has failed to place, or whose reservations
are unanswered (R412). -/
def Sched.barred (d : Sched) (st : JobSt) (j : Job) : Bool := d.jobs.any (fun e => e.2.st = st && e.2.blocking && e.2.order < j.order)

/-- ADMISSION_ATTEMPT: partition. While reservations of an earlier attempt are unanswered, the attempt comes after them; at the instant of a tick it comes
after the tick (R413). -/
def execAdmissionAttempt (s : State) : Host.Outcome State Fault Refusal :=
  let p := s.arg 0
  if s.agenda.any (fun e => e.1 ≤ s.time && e.2.row = .reservoirTick) then happen (s.at s.time .admissionAttempt [p])
  else if (s.sched p).jobs.any (fun e => e.2.st = .reserving) then happen ((s.modSched p (fun d => { d with again := true })).armAttempts p)
  else
    let s := s.retryAll p
    let d := s.sched p
    let cols := s.scores p
    let order := (d.jobs.filter (fun e => e.2.st = .waiting)).foldl (fun l e => insertBy (d.ahead s.time) e l) []
    let (s, _) := order.foldl (init := (s, ([] : List Band))) fun (s, taken) (k, j) =>
      if (s.sched p).barred .waiting j || (j.card.count = 0 && (s.sched p).barred .reserving j) then (s.modSched p (fun d => { d with again := true }), taken)
      else if j.card.count = 0 then (s.completeJob p k, taken)
      else
        let j := { j with blocking := j.blocking || d.eff s.time j = 7 }
        match placeBands cols d.kband s.coreFree taken j.card.shapes (j.parity.map some) [] with
        | none => (s.setJob p k j, taken)
        | some bands => (s.reserveCaravan p k j bands, taken ++ bands)
    let s := (s.sched p).routes.foldl (init := s) fun s (k, r) => (List.range r.nodes.length).foldl (init := s) fun s n =>
      match (s.route? p k).bind (fun r => r.nodes[n]?) with
      | some x => if x.st = 1 then s.enterNode p k n else s
      | none => s
    let s := if (s.sched p).jobs.any (fun e => e.2.st = .reserving) then s else s.modSched p (fun d => { d with again := false })
    happen (s.armAttempts p)

/-- A core is reserved no longer: a courier that waits takes its context 0 (R27, R414). -/
def State.unmark (s : State) (c : Nat) : State :=
  let s := s.modCore c (fun x => { x with mark := false })
  if (s.core c).courier.isSome then s.start .courierSlotStart [c] else s

/-- The reservations of a caravan are withdrawn: it keeps its place and its age. -/
def State.withdraw (s : State) (p k : Nat) (j : Job) : State :=
  let s := j.cores.foldl State.unmark s
  s.setJob p k { j with st := .waiting, cores := [], bands := [], asked := [], refused := false }

/-- What becomes of a caravan whose reservations are all answered: one that a core has refused is withdrawn (R414). One posted after a manifest with
eff = 7 is not admitted ahead of it: it waits while that one's reservations are unanswered, and is withdrawn if they are (R412). Otherwise it starts at
the next multiple of 1,000 ns. -/
def State.decided (s : State) (p k : Nat) (j : Job) : State :=
  if j.refused then (s.withdraw p k j).modSched p (fun d => { d with withdrawn := (d.withdrawn + 1) % 2 ^ 32 })
  else if (s.sched p).barred .waiting j then (s.withdraw p k j).modSched p (fun d => { d with again := true })
  else if (s.sched p).barred .reserving j then s
  else
    ((s.setJob p k { j with st := .starting, asked := [], blocking := false }).modSched p
      (fun d => { d with admits := (d.admits + 1) % 2 ^ 32 })).at ((s.time / 1000 + 1) * 1000) .caravanStart [p, k]

/-- Every reservation of a caravan is answered; so may be, now, what waited for its outcome, in the order of posting. -/
def State.settleCaravan (s : State) (p k : Nat) (j : Job) : State :=
  let s := s.setJob p k j
  let ready := ((s.sched p).jobs.filter (fun e => e.2.st = .reserving && e.2.asked.isEmpty)).foldl
    (fun l e => insertBy (fun a b => decide (a.2.order < b.2.order || (a.2.order = b.2.order && a.1 ≤ b.1))) e l) []
  let s := ready.foldl (fun s e => s.decided p e.1 e.2) s
  let d := s.sched p
  if d.again && !(d.jobs.any (fun e => e.2.st = .reserving)) then (s.modSched p (fun d => { d with again := false })).attemptNow p else s

/-- CORE_RESERVATION: message. The core accepts while its context 0 is idle and unreserved; a courier that waits takes an idle context first (R27). -/
def execCoreReservation (s : State) : Host.Outcome State Fault Refusal :=
  match s.msg? (s.arg 0) with
  | none => happen s
  | some m =>
    let s := s.drop (s.arg 0)
    let (p, k, core) := (m.words.getD 0 0, m.words.getD 1 0, m.words.getD 2 0)
    match s.job? p k with
    | none => happen s
    | some j =>
      let s := s.slotStart core
      let ok := s.coreFree core
      let s := if ok then s.modCore core (fun x => { x with mark := true }) else s
      let j := { j with asked := j.asked.erase core, refused := j.refused || !ok }
      if j.asked.isEmpty then happen (s.settleCaravan p k j) else happen (s.setJob p k j)

/-! ## Start, resumption and dealing (R30, R414, R415, R419) -/

/-- Writes the ids into the caravan's cores. -/
def State.writeIds (s : State) (p : Nat) (j : Job) : State :=
  (List.range j.bands.length).foldl (init := s) fun s b =>
    let cores := (j.bands.getD b ⟨0, 0, 0, 1, 1⟩).cores
    (cores.zip (List.range cores.length)).foldl (init := s) fun s (c, o) =>
      s.modCore c (fun k => { k with bandId := bandWord j.bands b o, caravanId := n64 (p * 2 ^ 32 + j.id), resident := true, mark := false })

/-- The first deal, in increasing core index order. A control context keeps its domain (R28). A courier that waits takes a context 0 that gets no chunk
(R27). -/
def State.firstDeal (s : State) (p k : Nat) (j : Job) : State :=
  let order := j.cores.foldl (fun l c => insertBy (fun a b => decide (a ≤ b)) c l) []
  let (s, j) := order.foldl (init := (s, j)) fun (s, j) c =>
    match j.deal with
    | none => (s.unmark c, j)
    | some (x, y, j) =>
      (s.launch c 0 j.card.entry x y (n64 j.card.rank) (s.regs (.ctx c 0)).dom, { j with live := j.live ++ [j.cores.idxOf c] })
  s.setJob p k j

/-- Loads one saved context, behind a courier that waits for a context of its core (R27). A load that faults traps to the supervisor in that context; one
that must wait for operand slots leaves it Stalled, with its load to be made again (R377), as is one whose context number is in use on the new core. The
result says whether it has been made. -/
def State.resumeOne (s : State) (j : Job) (x : Nat) : State × Bool :=
  let core := j.cores.getD (x / 4) 0
  let ag := Agent.ctx core (x % 4)
  let base := j.card.save + 0xA000 * x
  let s := s.slotStart core
  if !(s.ctx ag).free && !(s.ctx ag).loading then (s, false)
  else
    let s0 := if (s.ctx ag).loading then s else s.launch core (x % 4) j.card.entry 0 0 0 (s.regs ag).dom
    let go (s : State) : State := s.modCtx ag (fun c => { c with loading := false, st := .ready, held := false })
    match s0.loadArea core (x % 4) base with
    | .ok s => ((go s).armDeadline ag, true)
    | .error (.trap t) => ((go s0).supEntry ag t.cause t.detail t.info (s0.regs ag).pc false, true)
    | .error _ => (s0.modCtx ag (fun c => { c with loading := true, st := .stalled, held := true }), false)

/-- CARAVAN_START: partition, key. At the start tick the ids are written and the first deal is made, or the saved contexts are loaded. -/
def execCaravanStart (s : State) : Host.Outcome State Fault Refusal :=
  let (p, k) := (s.arg 0, s.arg 1)
  match s.job? p k with
  | none => happen s
  | some j =>
    let load (s : State) (j : Job) (l : List Nat) : State :=
      let (s, rest) := l.foldl (init := (s, ([] : List Nat))) fun (s, rest) x =>
        let r := s.resumeOne j x
        (r.1, if r.2 then rest else rest ++ [x])
      if rest.isEmpty then s.setJob p k { j with saved := none } else (s.setJob p k { j with saved := some rest }).start .caravanStart [p, k]
    if j.st = .starting then
      let s := s.writeIds p j
      let j := { j with st := .resident }
      match j.saved with
      | none => happen (s.firstDeal p k j)
      | some l => happen (j.cores.foldl State.unmark (load s j l))
    else if j.st = .resident then
      match j.saved with
      | some l => happen (load s j l)
      | none => happen s
    else happen s

/-! ## Pre-emption of a caravan (R419) -/

/-- CARAVAN_PREEMPT_TICK: partition, key. Every live context receives its request. -/
def execCaravanPreemptTick (s : State) : Host.Outcome State Fault Refusal :=
  let (p, k) := (s.arg 0, s.arg 1)
  match s.job? p k with
  | none => happen s
  | some j =>
    if j.st ≠ .resident || j.preempt ≠ some false then happen s
    else
      let s := s.setJob p k { j with preempt := some true }
      let s := (List.range j.cores.length).foldl (init := s) fun s o => (List.range 4).foldl (init := s) fun s n =>
        let ag := Agent.ctx (j.cores.getD o 0) n
        if !(s.ctx ag).live then s
        else (s.devR ag (fun r => { r with save := n64 (j.card.save + 0xA000 * (4 * o + n)) })).requestPreempt ag
      happen (s.start .caravanSave [p, k])

/-- CARAVAN_SAVE: partition, key. Made when every live context is held, or waits at user level and is not frozen; a frozen one abandons the
request. The saves are made at one instant, or none: a failed write traps in its context, whose request stays pending until its next safe point or
boundary, while the others stay held (R373, R374). -/
def execCaravanSave (s : State) : Host.Outcome State Fault Refusal :=
  let (p, k) := (s.arg 0, s.arg 1)
  match s.job? p k with
  | none => happen s
  | some j =>
    if j.st ≠ .resident || j.preempt ≠ some true || j.saved.isSome then happen s
    else
      let live := s.liveOf j
      let giveUp (s : State) : State := (s.abandon p k).record { dom := supDom p, src := 7, sub := 3 }
      if live.any (fun ag => (s.ctx ag).frozen) then happen (giveUp s)
      else if !live.all (fun ag => let c := s.ctx ag; c.parked || (c.st = .waiting && c.lvl = .user && c.reply.isNone)) then happen s
      else if let some ag := live.find? (fun ag => let c := s.ctx ag; c.parked && c.mcmds = 0 && c.taps = 0 && !c.probes.isEmpty) then
        happen (s.modCtx ag (fun c => { c with saving := none, parked := false, st := .ready, held := false,
                                               preDue := c.preDue || (c.saving.any (fun h => h.1 = 2)) }))
      else if !live.all (fun ag => match ag with | .ctx c n => s.saveReady c n | _ => true) then happen (s.start .caravanSave [p, k])
      else
        let one (s : State) (ag : Agent) : Except (Agent × Option Trap) State :=
          match ag with
          | .ctx core n =>
            match s.makeSave core n ((s.ctx ag).saving.getD (2, 0)) with
            | .ok s => .ok s
            | .error (.trap t) => .error (ag, some t)
            | .error _ => .error (ag, none)
          | _ => .ok s
        match live.foldlM one s with
        | .error (_, none) => happen (s.start .caravanSave [p, k])
        | .error (ag, some t) =>
          happen (((s.withdrawWait ag).modCtx ag (fun c =>
            { c with saving := none, parked := false, st := .ready, held := false,
                     preDue := c.preDue || (c.saving.any (fun h => h.1 = 2)) })).takeTrap ag t)
        | .ok s =>
          let nums := live.filterMap (fun ag => match ag with | .ctx c n => some (4 * j.cores.idxOf c + n) | _ => none)
          let s := s.leaveCores p { j with preempt := none }
          happen (s.setJob p k { j with st := .waiting, preempt := none, saved := some nums, cores := [], bands := [],
                                        parity := j.bands.map (fun b => (b.y % 2, b.x % 2)) })

/-! ## The window's registers (R402) -/

/-- A load from the scheduler window. -/
def State.schedRead (s : State) (p off : Nat) : Nat :=
  let d := s.sched p
  if off < 0x40 then (if off % 8 = 0 then d.qlen (off / 8) else 0)
  else if off = 0x40 then d.age
  else if off = 0x48 then d.tlim
  else if off = 0x50 then d.kfill
  else if off = 0x58 then d.kband
  else if off = 0x68 then d.postr.toNat
  else if off = 0x78 then d.sigmask.toNat
  else if off = 0x98 then d.withdrawn * 2 ^ 32 + d.admits
  else 0

/-- A store to the scheduler window by a party. -/
def State.schedWrite (s : State) (who p off v : Nat) : State :=
  if off = 0x40 then (s.modSched p (fun d => { d with age := v % 2 ^ 32 })).armAttempts p
  else if off = 0x48 then s.modSched p (fun d => { d with tlim := v % 2 ^ 16 })
  else if off = 0x50 then s.modSched p (fun d => { d with kfill := v % 2 ^ 16 })
  else if off = 0x58 then s.modSched p (fun d => { d with kband := v % 2 ^ 16 })
  else if off = 0x60 then s.storePost who p v
  else if off = 0x70 then s.storePreempt who p v
  else if off = 0x78 then s.modSched p (fun d => { d with sigmask := n64 v })
  else if off = 0x80 then s.storeSignal who p v
  else if off = 0x88 then s.storeCancel who p v
  else if off = 0x90 then s.storeEndcar who p v
  else s

end Sys2Proof.Machine
end

