-- ==== Sys2Proof/Machine/Partition.lean ====
section
/-!
DEFINITION. Partitions: membership of columns, the partition block, stopping a band, the partition reset; dark columns and tiers; snapshots
(R54, R55, R422 to R438).
-/

namespace Sys2Proof.Machine

open Sys2Proof

/-! ## Membership (R422, R425) -/

/-- The listed cores of a column. -/
def State.coresIn (s : State) (col : Nat) : List Nat := (s.cores.map (·.1)).filter (fun c => colOf c = col)

/-- Whether a column's membership may change: every context idle or saved, no courier in a slot. -/
def State.colQuiet (s : State) (col : Nat) : Bool :=
  (s.coresIn col).all fun c => (s.core c).courier.isNone && (List.range 4).all (fun n => !(s.ctx (.ctx c n)).live)

/-- A column joins a partition: its event unit is reset and the PLB entries of its cores are invalidated. -/
def State.joinCol (s : State) (col : Nat) : State :=
  let s := s.setEv col {}
  (s.coresIn col).foldl (fun s c => s.modCore c (fun k => { k with plb := k.plb.map (fun e => (e.1, { e.2 with v := false })) })) s

/-- Firmware writes PCOLS of a stack: ignored, with a record in the firmware log, if a column would belong to two partitions or a changed column is
in use. The spec gives that record no source number and no kind: they are free (log 12). -/
def State.writePcols (s : State) (p st : Nat) (v : W64) : State :=
  let old := look 0 (s.part p).pcols st
  let changed := (List.range 64).filter (fun c => old.getLsbD c ≠ v.getLsbD c)
  let clash : Bool := s.parts.any (fun e => e.1 ≠ p && (look 0 e.2.pcols st) &&& v ≠ 0)
  if clash || changed.any (fun c => !s.colQuiet (64 * st + c)) then
    s.record { dom := supDom p, src := (Config.freeWord s.seq 1).toNat % 256, sub := (Config.freeWord s.seq 2).toNat % 256, w4 := v.toNat,
               fw := true, log := true }
  else
    let s := s.setPart p { s.part p with pcols := put st v (s.part p).pcols }
    (changed.filter (fun c => v.getLsbD c)).foldl (fun s c => s.joinCol (64 * st + c)) s

/-- PCOLS_WRITE: party, offset from the partition blocks' base, value. -/
def execPcolsWrite (s : State) : Host.Outcome State Fault Refusal :=
  happen (s.writePcols (s.arg 1 / 2 ^ 12) (s.arg 1 % 2 ^ 12 / 8 % 8) (n64 (s.arg 2)))

/-! ## Stopping a band, closing a forest, resetting a partition (R431 to R434) -/

/-- A store to BSTOP. -/
def State.storeBstop (s : State) (who p v : Nat) : State :=
  let b := bits v 53 48
  let cars := (s.caravans p (bits v 37 0)).filter fun e =>
    b < e.2.bands.length && !((e.2.bands.getD b ⟨0, 0, 0, 1, 1⟩).cores.any (fun c => (s.core c).stopped))
  if cars.isEmpty then s.badStore who 0 0
  else cars.foldl (fun s e => s.stopBand p e.1 e.2 b (((e.2.bands.getD b ⟨0, 0, 0, 1, 1⟩).cores.head?).getD 0) 0) s
/-- BSTOP: party, partition, value. -/
def execBstop (s : State) : Host.Outcome State Fault Refusal := happen (s.storeBstop (s.arg 0) (s.arg 1) (s.arg 2))

/-- FCLOSE: party, partition, value. -/
def execFclose (s : State) : Host.Outcome State Fault Refusal := happen (s.closeForest (s.arg 1) (bits (s.arg 2) 3 0))

/-- A context ends in a partition reset: its chunk commits first if it can. -/
def State.resetCtx (s : State) (ag : Agent) : State :=
  if !(s.ctx ag).live then s else
  match s.endChunk ag with
  | .ok s => s.endContext ag
  | .error _ => (s.squash ag).endContext ag

/-- The listed cores of a partition. -/
def State.coresOf (s : State) (p : Nat) : List Nat :=
  let cols := s.colsOf p
  (s.cores.map (·.1)).filter (fun c => cols.contains (colOf c))

/-- Whether engine operations of a partition's cores still run: the store to PRESET completes when they have finished (R434). -/
def State.presetBusy (s : State) (p : Nat) : Bool :=
  (s.coresOf p).any (fun c => (s.core c).ctxs.any (fun e => e.2.slots.any (fun x => x.2.st = .running)))

/-- Whether an errand is of a partition's scheduler, or of a post of one of its cores. -/
def Errand.ofPart (e : Errand) (p : Nat) (cores : List Nat) : Bool :=
  match e.who.tag with
  | 0 :: a :: _ => ((Agent.ofCode a).core?.map cores.contains).getD false
  | 1 :: _ :: q :: _ => q = p
  | _ :: q :: _ => q = p
  | _ => false

/-- Resets a partition (R434). What is in flight on a reservation is charged before its holder ends (R285). -/
def State.resetPart (s : State) (p : Nat) : State :=
  let cols := s.colsOf p
  let s := (s.coresOf p).foldl (init := s) fun s c =>
    let s := match (s.core c).courier with
      | some x => (s.modCore c (fun k => { k with courier := none })).courierDone x c stFULL
      | none => s
    let s := (List.range 4).foldl (fun s n => s.charge (.ctx c n)) s
    let s := (List.range 4).foldl (fun s n => s.resetCtx (.ctx c n)) s
    s.modCore c fun k =>
      { k with inbox := [], plb := k.plb.map (fun e => (e.1, { e.2 with v := false })),
               resident := false, mark := false, stopped := false, bandId := 0, caravanId := 0,
               ctxs := k.ctxs.map (fun e => (e.1, { e.2 with slots := e.2.slots.map (fun x => (x.1, { x.2 with mute := x.2.st = .running })) })) }
  let s := cols.foldl (fun s c => s.setEv c {}) s
  let s := (List.range 16).foldl (fun s h => s.closeForest p h) s
  { s with errands := s.errands.filter (fun e => !e.ofPart p (s.coresOf p)) }.modSched p (fun d => { d with jobs := [], routes := [], again := false })

/-- PRESET: party, partition. -/
def execPreset (s : State) : Host.Outcome State Fault Refusal :=
  let t := s.resetPart (s.arg 1)
  happen (if t.presetBusy (s.arg 1) then t.activity .preset s.args else t)

/-! ## The partition block (R424) -/

def State.partRead (s : State) (p off : Nat) : Nat :=
  let x := s.part p
  if off < 0x40 then (if off % 8 = 0 then (look 0 x.pcols (off / 8)).toNat else 0)
  else if off = 0x40 then x.pdomt.toNat
  else if off = 0x48 then x.prsv
  else if off = 0x68 then x.perrLog % 2 ^ 32 * 2 ^ 32 + x.perrRing % 2 ^ 32
  else 0

/-- A store to the partition block; PCOLS and PRESET are the firmware's. -/
def State.partWrite (s : State) (who : Nat) (fw : Bool) (p off v : Nat) : State :=
  if off < 0x40 then (if fw && off % 8 = 0 then s.writePcols p (off / 8) (n64 v) else s)
  else if off = 0x40 then s.setPart p { s.part p with pdomt := n64 (v / 32 * 32) }
  else if off = 0x48 then s.setPart p { s.part p with prsv := v % 2 ^ 32 }
  else if off = 0x50 then s.closeForest p (bits v 3 0)
  else if off = 0x58 then s.storeBstop who p v
  else if off = 0x60 then (if fw && bit v 0 then s.resetPart p else s)
  else s

/-! ## Dark tiers and columns (R54, R55, R435) -/

/-- TIER_POWER_OFF: 0, stack, DRAM tier; or 1, stack, column: the compute and SRAM tiers of a column that belongs to no partition. -/
def execTierPowerOff (s : State) : Host.Outcome State Fault Refusal :=
  let k := 8 * s.arg 1 + s.arg 2
  let col := 64 * s.arg 1 + s.arg 2
  if s.arg 0 = 0 then happen (if s.dark.contains k then s else { s with dark := s.dark ++ [k] })
  else if (s.partOfCol col).isSome || s.darkCols.contains col then happen s
  else happen ({ s with darkCols := s.darkCols ++ [col] }.modCol col (fun x => { x with fill := 0, cap := 0, sample := (0, 0) }))

/-- DARK_TIER_POWER_UP: operands as above. Sectors out of lookup that were held for the tier are written back, and their ways freed; lines that were
kept for it may be victims again. -/
def execDarkTierPowerUp (s : State) : Host.Outcome State Fault Refusal :=
  let k := 8 * s.arg 1 + s.arg 2
  let col := 64 * s.arg 1 + s.arg 2
  if s.arg 0 ≠ 0 then happen { s with darkCols := s.darkCols.filter (· ≠ col) }
  else
    let mine (e : Sector) : Bool := isDram (e.tag.key * 256) && tierOf (e.tag.key * 256) = k
    let kept := s.slices.flatMap (fun l => (l.2.sectors.filter (fun e => e.kept && mine e)).map (·.tag.key))
    let s := kept.foldl (fun s g => s.writeBack g) { s with dark := s.dark.filter (· ≠ k) }
    happen { s with slices := s.slices.map fun l =>
      (l.1, { l.2 with sectors := (l.2.sectors.filter (fun e => !(e.kept && mine e))).map
                        (fun e => if mine e then { e with pinned := false } else e) }) }

/-! ## Snapshots (R436 to R438) -/

/-- The eight words that a core latches. -/
def Core.latchWords (c : Core) (n : Nat) : List W64 :=
  let x (k : Nat) : Ctx := look {} c.ctxs k
  (List.range 4).map (fun k => (x k).r.pc) ++
  [n64 (((List.range 4).map (fun k => (x k).status % 2 ^ 16 * 2 ^ (16 * k))).sum), n64 c.retired,
   n64 ((c.holder.map (fun h => (x h).rsvSpent)).getD 0 % 2 ^ 32), n64 n]

/-- The words that a column latches. -/
def State.colLatch (s : State) (col n : Nat) : List W64 :=
  let k := s.col col
  (List.range 15).map (fun i => s.colRead col (8 * i)) ++ (if s.darkCols.contains col then [0, 0] else [n64 k.fill, n64 k.cap]) ++ [n64 n]

/-- SNAPSHOT_LATCH: every block latches (R438). -/
def execSnapshotLatch (s : State) : Host.Outcome State Fault Refusal :=
  match s.snap.due with
  | none => happen s
  | some t =>
    let n := (s.snap.latched + 1) % 2 ^ 32
    let s := (List.range 512).foldl (fun s c => s.modCol c (fun k => { k with snap := s.colLatch c n })) s
    happen { s with
      snap := { s.snap with due := none, latched := n, time := n64 t, ctl := s.snap.ctl ||| 0x200#64 },
      cores := s.cores.map (fun e => (e.1, { e.2 with latch := e.2.latchWords n })) }

/-- SNAP_GO. -/
def execSnapGo (s : State) : Host.Outcome State Fault Refusal := happen s.snapTrigger
/-- SNAP_RELEASE: a hold is released. -/
def State.snapRelease (s : State) : State := { s with snap := { s.snap with ctl := s.snap.ctl &&& ~~~(0x200#64) } }
def execSnapRelease (s : State) : Host.Outcome State Fault Refusal := happen s.snapRelease
/-- SNAP_TIMER: `time` reaches SNAP.TCMP. -/
def execSnapTimer (s : State) : Host.Outcome State Fault Refusal :=
  happen (if s.snap.tcmp ≠ 0 ∧ s.snap.tcmp.toNat ≤ s.time ∧ s.snap.ctl.getLsbD 1 then s.snapTrigger else s)
/-- DBGSNAP_N: the falling edge of the pin. -/
def execDbgsnapN (s : State) : Host.Outcome State Fault Refusal := happen (if s.snap.ctl.getLsbD 2 then s.snapTrigger else s)

/-- The latched copies of a column, at +0x200 to +0x288. -/
def State.colLatched (s : State) (col off : Nat) : Nat :=
  if 0x200 ≤ off ∧ off ≤ 0x288 ∧ off % 8 = 0 then ((s.col col).snap.getD ((off - 0x200) / 8) 0).toNat else 0

/-- A word of a core's latched snapshot; a core of which nothing was recorded at the latch stood as after reset. -/
def State.coreLatched (s : State) (core k : Nat) : Nat :=
  if s.snap.latched = 0 then 0
  else
    let l := (s.core core).latch
    ((if l.isEmpty then ({} : Core).latchWords s.snap.latched else l).getD k 0).toNat

def State.snapRead (s : State) (off : Nat) : Nat :=
  let x := s.snap
  if off = 0x000 then x.ctl.toNat
  else if off = 0x010 then x.tcmp.toNat
  else if off = 0x018 then x.missed * 2 ^ 32 + x.latched
  else if off = 0x020 then x.time.toNat
  else if off = 0x028 then x.emask.toNat
  else if off = 0x040 then x.flogBase.toNat
  else if off = 0x048 then x.flogRing.toNat
  else 0

def State.snapWrite (s : State) (off v : Nat) : State :=
  let x := s.snap
  if off = 0x000 then
    let s := if bit v 8 then s.snapRelease else s
    { s with snap := { s.snap with ctl := (s.snap.ctl &&& 0x200#64) ||| (n64 v &&& 0xE#64) } }
  else if off = 0x008 then s.snapTrigger
  else if off = 0x010 then
    let s := { s with snap := { x with tcmp := n64 v }, agenda := s.agenda.filter (fun e => e.2.row ≠ .snapTimer) }
    if v = 0 then s else s.at (max v s.time) .snapTimer []
  else if off = 0x028 then { s with snap := { x with emask := n64 v } }
  else if off = 0x040 then { s with snap := { x with flogBase := n64 (v / 64 * 64) } }
  else if off = 0x048 then { s with snap := { x with flogRing := (n64 v &&& 0xFFFF00000000FFFF#64) ||| (x.flogRing &&& 0x0000FFFF00000000#64) } }
  else s

end Sys2Proof.Machine
end

