-- ==== Sys2Proof/Machine/Remote.lean ====
section
/-!
DEFINITION. What arrives over the hedgerow and over the trail flows: store groups, remote reads and atomics at a scratchpad (R131, R216), bank-side
operations (R132 to R134), fills (R51), the accesses of other modules and their acknowledgements (R217, R472 to R475).
-/

namespace Sys2Proof.Machine

open Sys2Proof

/-! ## Atomic operations (R130) -/

/-- The new value of a word of `w` bits under operation `op` (0 add, 1 and, 2 or, 3 xor, 4 min, 5 max, 6 minn, 7 maxn, 8 swap, 9 cas) with
operand `y` and expected value `e`. -/
def amoNew (op w old y e : Nat) : Nat :=
  match op with
  | 0 => (old + y) % 2 ^ w
  | 1 => old &&& y
  | 2 => old ||| y
  | 3 => old ^^^ y
  | 4 => if toSigned w y < toSigned w old then y else old
  | 5 => if toSigned w old < toSigned w y then y else old
  | 6 => min old y
  | 7 => max old y
  | 8 => y
  | _ => if old = e then y else old

/-- Whether the operation writes: a CAS that fails does not. -/
def amoWrites (op old new : Nat) : Bool := op ≠ 9 || new ≠ old

/-- The old value as S(d) receives it: zero-extended for MINN and MAXN, sign-extended otherwise. -/
def amoOld (op w old : Nat) : W64 := if op = 6 ∨ op = 7 then n64 old else w64 (toSigned w old)

/-! ## Arrivals at a scratchpad -/

/-- A context that waits in a fence looks again. -/
def State.wakeFence (s : State) (ag : Agent) : State :=
  let c := s.ctx ag
  if c.st = .stalled && c.held && c.asked.isNone && c.saving.isNone then s.wake ag else s

/-- REMOTE_STORE_GROUP: message. The stores of a chunk to one core are applied as one group, each converting one by the bank format now in force
(R48, R155, R216); the group waits while a priority chunk has touched its granules (R213). -/
def execRemoteStoreGroup (s : State) : Host.Outcome State Fault Refusal :=
  match s.msg? (s.arg 0) with
  | none => happen s
  | some m =>
    if m.stores.any (fun t => s.holdDelivery (scratchKey t.core t.off) (s.storeBytes t).length) then happen s
    else
      let s := s.drop (s.arg 0)
      let s := m.stores.foldl (fun s t => s.devWrite none (.scratch t.core t.off) (absolute 0x80 t.core t.off) (s.storeBytes t)) s
      happen (s.send { chan := 2 ^ 38 + s.nextMsg, ev := ⟨.scratchStoreAck, [s.nextMsg]⟩, src := m.src })

/-- SCRATCH_STORE_ACK: message (R137). -/
def execScratchStoreAck (s : State) : Host.Outcome State Fault Refusal :=
  match s.msg? (s.arg 0) with
  | none => happen s
  | some m =>
    let ag := Agent.ofCode m.src
    happen (((s.drop (s.arg 0)).modCtx ag (fun c => { c with unackedScratch := c.unackedScratch - 1 })).wakeFence ag)

/-- The first poisoned granule of some scratchpad bytes, as its distance from the first byte. -/
def State.poisonAt (s : State) (key n : Nat) : Option Nat :=
  if s.noBad then none
  else ((granules64 key n).find? s.bad).map (fun g => (2 ^ 64 + g * 64 - key) % 2 ^ 64)

/-- REMOTE_READ: message. It is served at once, or waits for bytes that a running chunk has written; a wait that would close a cycle squashes a chunk
instead (R125, R216). It is not ordered with the groups and atomics of its pair of cores; a waiting read holds nothing else up. -/
def execRemoteRead (s : State) : Host.Outcome State Fault Refusal :=
  let id := s.arg 0
  match s.msg? id with
  | none => happen s
  | some m =>
    let ag := Agent.ofCode m.src
    let (core, off, n) := (m.words.getD 0 0, m.words.getD 1 0, m.words.getD 2 0)
    let key := scratchKey core off
    match (granules64 key n).findSome? (fun g => (s.specHolder core ag g).map (fun h => (g, h))) with
    | some (g, h) =>
      if (State.waitChain 402000 s h).contains ag then happen (s.squash (if (s.ctx ag).token then h else ag))
      else
        happen (s.modCtx ag (fun c => { c with waitOn := some g }))
    | none =>
      let s := (s.drop id).findFlaws none 0 key n
      match s.poisonAt key n with
      | some d => happen (s.reply m.src id [cUE, d])
      | none => happen (s.reply m.src id (0 :: (s.bytes key n).map (·.toNat)))

/-- REMOTE_ATOMIC: message. The bank's atomic unit applies it to the word, restored if a running chunk had written it (R131, R211). -/
def execRemoteAtomic (s : State) : Host.Outcome State Fault Refusal :=
  let id := s.arg 0
  match s.msg? id with
  | none => happen s
  | some m =>
    let w (k : Nat) := m.words.getD k 0
    let (core, off, n, op) := (w 0, w 1, w 2, w 3)
    let key := scratchKey core off
    if s.holdDelivery key n then happen s
    else
      let s := (s.drop id).findFlaws none 0 key n
      match s.poisonAt key n with
      | some d => happen (s.reply m.src id [cUE, d])
      | none =>
        let s := s.squashOthers none (granules key n)
        let old := s.value key n
        let new := amoNew op (8 * n) old (w 4) (w 5)
        let s := if amoWrites op old new then s.writeBytes key (leBytes n new) else s
        happen (s.reply m.src id [0, old])

/-! ## Bank-side operations (R132 to R134) -/

/-- BANK_OP_ACCEPT: message with words VA, operation, type, y, e, scale, posted, the domain, the operation's minor code. The home slice translates,
writes its sector back and removes it, acts as a commit does, and forwards to the bank; the issuer goes on if the operation is posted (R133). A
priority chunk that holds the granule, and a page that is moving, are waited for. -/
def execBankOpAccept (s : State) : Host.Outcome State Fault Refusal :=
  let id := s.arg 0
  match s.msg? id with
  | none => happen s
  | some m =>
    let w (k : Nat) := m.words.getD k 0
    let va := w 0
    let ag := Agent.ofCode m.src
    let refuse (t : Trap) : Host.Outcome State Fault Refusal :=
      happen ((s.drop id).reply m.src id ([1, t.cause, t.info.toNat] ++ (match t.plb with | some (k, l, a) => [k, l, a.toNat] | none => [])))
    match s.pageTarget ag Target.isDram false va with
    | .error t => refuse t
    | .ok (.mem slice tag key) =>
      if s.darkAt key then refuse (trapAt cDARK va)
      else if s.reserved ag [key / 256] || s.pageHeld va then happen s
      else
        let s := (s.drop id).countUse tag (s.requester ag)
        let s := s.writeOut slice ((s.slice slice).sectors.filter (fun e => e.tag.key = key / 256 && !e.kept))
        let s := s.modSlice slice (fun l => { l with sectors := l.sectors.filter (fun e => e.kept || e.tag.key ≠ key / 256) })
        let s := (s.dropL1 [key / 256] none).squashOthers (some ag) [key / 256]
        let no := s.nextMsg
        let s := s.send { chan := 2 ^ 34 + key / 2 ^ 12, ev := ⟨.bankOpPerform, [no]⟩, src := m.src, words := [key, w 1, w 2, w 3, w 4, w 5, w 6, w 7, w 8, va, tag.own, tag.home] }
        if w 6 = 1 then happen (s.reply m.src id [0])
        else happen (s.modCtx ag (fun c => if c.asked = some id then { c with asked := some no } else c))
    | .ok _ => happen (s.drop id)

/-- BANK_OP_PERFORM: message. The bank unit performs an accepted operation (R132). -/
def execBankOpPerform (s : State) : Host.Outcome State Fault Refusal := happen (s.bankPerform (s.arg 0))

/-! ## Fills (R51) -/

/-- L2_FILL: slice, VA. Fill data of a sector that the slice homes arrives, for no requester's demand; memory that is dark gives none. -/
def execL2Fill (s : State) : Host.Outcome State Fault Refusal :=
  let k := s.arg 0
  let va := s.arg 1
  match s.walk va with
  | .error _ => happen s
  | .ok l =>
    let key := l.key va
    let t : LineTag := ⟨va / 256, key / 256, homeSlice l.stack va, l.ty, l.own⟩
    if 2 ≤ l.ty || t.home ≠ k || s.darkLine t || ((s.slice k).find va).isSome then happen s
    else happen (s.fillSector k t { dom := l.own })

/-! ## Trail links and flows (R472 to R475) -/

/-- The links of a flow, and whether every one of them is down. -/
def flowLinks (w : Nat) : Nat := bits w 47 32
def State.flowDown (s : State) (w : Nat) : Bool := flowLinks w ≠ 0 && flowLinks w &&& s.tlUp.toNat = 0
/-- brk of every flow, as the links now stand (R473). -/
def State.setBrk (s : State) : State :=
  { s with flows := s.flows.map fun (f, w) =>
      (f, if s.flowDown w.toNat then w ||| n64 (2 ^ 62) else w &&& ~~~(n64 (2 ^ 62))) }

/-- What a TAP at its acceptance has asked of another module comes; bytes that do not come fail its read (R354). -/
def Msg.tapAnswer (m : Msg) (flow seq reason : Nat) (data : List Nat) : Msg :=
  if m.ev.row = .tapAccept && m.words.getD 8 0 = flow && m.words.getD 9 0 = seq && 8 < m.words.length then
    { m with words := m.words.take 8,
             stores := m.stores ++ [⟨flow, m.words.getD 10 0, .raw (if reason = 0 then data.map (BitVec.ofNat 8) else [])⟩] }
  else m

/-- What the scheduler has asked of another module comes; a notify word that has left is done with (R217, R475). -/
def Errand.peerAnswer (e : Errand) (flow seq reason : Nat) (data : List Nat) : Option Errand :=
  if e.ask ≠ some (flow, seq) || e.got.isSome then some e
  else if e.word.isSome then none
  else some { e with got := some (if reason = 0 then (0, 0, data.map (BitVec.ofNat 8)) else (cFLOW, reason * 2 ^ 8 + flow, [])) }

/-- An acknowledgement of an access on a flow, of a context, an engine piece, a TAP or the scheduler: reason 0, or a reason of R475; data for loads and atomics. -/
def State.peerAck (s : State) (flow seq reason : Nat) (data : List Nat) : State :=
  let s : State := { s with flight := s.flight.map (fun (e : Nat × Msg) => (e.1, e.2.tapAnswer flow seq reason data)),
                            errands := s.errands.filterMap (·.peerAnswer flow seq reason data) }
  s.agents.foldl (init := s) fun s ag =>
    let c := s.ctx ag
    let asks : Bool := c.asked = some (peerAsk flow seq)
    let s := if c.unackedPeer.contains (flow, seq) then
        (s.modCtx ag (fun c => { c with unackedPeer := c.unackedPeer.erase (flow, seq),
                                        flowMarks := if reason ≠ 0 && !asks then c.flowMarks ++ [(flow, reason)] else c.flowMarks })).wakeFence ag
      else s
    let s := if asks then s.reply ag.code (peerAsk flow seq) (reason :: data) else s
    c.slots.foldl (init := s) fun s (k, x) =>
      if x.peer.any (fun q => q.flow = flow && q.seq = seq && q.ack.isNone) then
        (s.setEng ag k { x with peer := x.peer.map (fun q => if q.flow = flow && q.seq = seq then { q with ack := some (reason, data) } else q) }).start
          .enginePieceDone [ag.code, k]
      else s

/-- PEER_ACK: message with words flow, sequence number, reason, data bytes. -/
def execPeerAck (s : State) : Host.Outcome State Fault Refusal :=
  match s.msg? (s.arg 0) with
  | none => happen s
  | some m =>
    match m.words with
    | flow :: seq :: reason :: data => happen ((s.drop (s.arg 0)).peerAck flow seq reason data)
    | _ => happen (s.drop (s.arg 0))

/-- brk as the links and the flow table now stand: what is outstanding on a flow that breaks fails with reason 3 (R473, R475). -/
def State.breakFlows (s : State) : State :=
  let fresh := (s.flows.filter (fun e => s.flowDown e.2.toNat && !bit e.2.toNat 62)).map (·.1)
  fresh.foldl (init := s.setBrk) fun s f => (s.outstanding f).foldl (fun s q => s.peerAck f q 3 []) s
/-- A link goes down. -/
def State.linkDown (s : State) (l : Nat) : State := { s with tlUp := s.tlUp &&& ~~~(n64 (2 ^ l)), tlFails := del l s.tlFails }.breakFlows

/-- TRAIL_LINK_UP: link. A link that firmware trains comes up (R474). -/
def execTrailLinkUp (s : State) : Host.Outcome State Fault Refusal :=
  let l := s.arg 0
  happen (if bit s.tlTrain l then { s with tlUp := s.tlUp ||| n64 (2 ^ l), tlTrain := s.tlTrain - 2 ^ l }.setBrk else s)

/-- A store to TL.TRAIN: the links of its set bits are trained; each comes up when it has trained. -/
def State.trainLinks (s : State) (v : Nat) : State := { s with tlTrain := s.tlTrain ||| v % 2 ^ 16 }
/-- TL_TRAIN: agent, value. -/
def execTlTrain (s : State) : Host.Outcome State Fault Refusal := happen (s.trainLinks (s.arg 1))

/-! ### Accesses of other modules

An access arrives as the words flow, sequence number, kind (0 load, 1 store, 2 atomic), ordered class, VA, length, and then the little-endian data of
a store, or operation, operand and expected value of an atomic: the form in which this module's own accesses leave. Acknowledgements leave as sequence
number, 3 or 4 (refused), and the data. -/

/-- A refusal: a negative acknowledgement, and a record in the ring of the flow's domain (R474, R475). -/
def State.refusePeer (s : State) (flow seq va cause : Nat) : State :=
  let w := (look 0 s.flows flow).toNat
  (s.out (0x1000 + flow) [seq, 4]).record
    { dom := bits w 31 16, src := 11, sub := 1, cause := cause, loc := iluetId, addr := va, w4 := 4 * 2 ^ 8 + flow, w5 := bits w 11 0 }

/-- The memory that an access from outside lands on, page by page: checked against rights for a domain, translated as this module's own address, of
the types allowed (R466, R474). -/
def State.outsideTargets (s : State) (rights : Tab PlbEntry) (dom va n : Nat) (need : Rights) (tys : List Nat) : Except Nat (List (Nat × Nat × Target)) :=
  if n = 0 || 0x80 ≤ bits va 63 48 then .error cPAGE
  else
    let fit (t : Target) : Bool := match t with | .mem _ tag _ => tys.contains tag.ty | _ => false
    match rightsCheck rights dom va va n need, s.landing (.ws 0) va n none fit with
    | .error t, _ => .error t.cause
    | _, .error t => .error t.cause
    | _, _ =>
      (piecesLen va n).mapM fun (p : Nat × Nat) =>
        match s.globalTarget (.ws 0) p.1 with
        | .error t => .error t.cause
        | .ok (t, _) => .ok (p.1, p.2, t)

/-- Whether an access from outside has to wait: for a checkpoint's end, a priority chunk, or a page that moves (R213, R398, R483). -/
def State.outsideWaits (s : State) (ts : List (Nat × Nat × Target)) : Bool :=
  s.boot.ckRun || ts.any (fun t => s.reserved (.ws 0) (t.2.2.granules t.2.1) || s.pageHeld t.1)

/-- A demand access from outside brings the lines of a target into their slices (R329). -/
def State.demandAll (s : State) (t : Target) (va n : Nat) (rq : Requester) : State :=
  match t with
  | .mem _ tag _ => (List.range ((va % 256 + n - 1) / 256 + 1)).foldl (fun s i => s.demand (tag.up i).home (tag.up i) rq) s
  | _ => s

/-- Whether a read from outside has to wait: for a checkpoint's end, or a page that moves. -/
def State.outsideReadWaits (s : State) (ts : List (Nat × Nat × Target)) : Bool := s.boot.ckRun || ts.any (fun t => s.pageHeld t.1)

/-- What an access from outside reads is met: the bank-side operations before it, and the errors in it (R133, R401). -/
def State.meetAll (s : State) (ts : List (Nat × Nat × Target)) : State := ts.foldl (fun s t => s.meet t.2.2 t.1 t.2.1) s

/-- Reads for an access from outside, made in the name of domain `dom` (R329). What poisoned bytes read as there is not laid down, and is free (DESIGN CHOICE,
log 27). -/
def State.outsideRead (s : State) (dom : Nat) (ts : List (Nat × Nat × Target)) : State × List Byte :=
  let s := s.meetAll ts
  let read (t : Nat × Nat × Target) : List Byte :=
    (s.devRead t.2.2 t.2.1).zipIdx.map fun (b, i) =>
      if (t.2.2.key?.map (fun k => s.bad ((k + i) / 64))).getD false then Config.freeByte s.seq i else b
  (ts.foldl (fun s t => s.demandAll t.2.2 t.1 t.2.1 { dom := dom }) s, ts.flatMap read)
/-- Each granule of a write from outside is a chunk of its own (R217, R220). -/
def State.outsideWrite (s : State) (dom : Nat) (ts : List (Nat × Nat × Target)) (bs : List Byte) : State :=
  (ts.foldl (init := (s, bs)) fun (s, bs) (va, n, t) =>
    ((peerParts va n).foldl (fun s (q : Nat × Nat) => s.devWrite none (t.up va (q.1 - va)) q.1 ((bs.drop (q.1 - va)).take q.2) (some { dom := dom })) s, bs.drop n)).1

/-- Performs an access that has arrived; none where it has to wait for a priority chunk, a page that moves, or the end of a checkpoint. -/
def State.peerPerform (s : State) (words : List Nat) : Option State :=
  let w (k : Nat) := words.getD k 0
  let (flow, seq, kind, va, n) := (w 0, w 1, w 2, w 4, w 5)
  let need : Rights := match kind with | 0 => rdR | 1 => wrR | _ => amoR
  let n := if kind = 2 then (if n = 4 then 4 else 8) else n
  let f := (look 0 s.flows flow).toNat
  if s.boot.ckRun then none
  else if bit f 63 = false then some (s.refusePeer flow seq va cFLOW)
  else if kind = 2 && va % n ≠ 0 then some (s.refusePeer flow seq va cALIGN)
  else
    match s.outsideTargets s.tlRights (bits f 31 16) va n need [0, 1] with
    | .error c => some (s.refusePeer flow seq va c)
    | .ok ts =>
      if s.outsideWaits ts then none
      else
      let s := if kind ≠ 1 then s.meetAll ts else s
      if kind ≠ 1 && ts.any (fun t => (t.2.2.key?.bind (fun k => s.poisonAt k t.2.1)).isSome) then some (s.refusePeer flow seq va cUE)
      else
        match kind with
        | 0 =>
          let (s, bs) := s.outsideRead (bits f 31 16) ts
          some (s.out (0x1000 + flow) (seq :: 3 :: bs.map (·.toNat)))
        | 1 => some ((s.outsideWrite (bits f 31 16) ts (leBytes n (w 6))).out (0x1000 + flow) [seq, 3])
        | _ =>
          let (s, bs) := s.outsideRead (bits f 31 16) ts
          let old := leNat bs
          let new := amoNew (w 6) (8 * n) old (w 7) (w 8)
          let s := if amoWrites (w 6) old new then s.outsideWrite (bits f 31 16) ts (leBytes n new) else s
          some (s.out (0x1000 + flow) (seq :: 3 :: (leBytes n old).map (·.toNat)))

/-- The next sequence number steps over those that have arrived; held accesses whose turn has come go on. -/
def Rob.advance : Nat → Rob → List (List Nat) → Rob × List (List Nat)
  | 0, r, out => (r, out)
  | fuel + 1, r, out =>
    if r.seen.contains r.next then
      let now := (r.held.filter (fun h => h.1 = r.next)).map (·.2)
      Rob.advance fuel { next := (r.next + 1) % 2 ^ 32, seen := r.seen.filter (· ≠ r.next), held := r.held.filter (fun h => h.1 ≠ r.next) } (out ++ now)
    else (r, out)

/-- An access reaches the reorder buffer of its flow: of the unordered class it goes on, of the ordered class when every earlier one has (R217). What
goes on is a message of its own, of which those of the ordered class keep their order. -/
def State.peerArrives (s : State) (row : Instr) (words : List Nat) : State :=
  let flow := words.getD 0 0
  let seq := words.getD 1 0
  let ord : Bool := words.getD 3 0 = 1
  let r := look {} s.robs flow
  let r := { r with seen := addAll r.seen [seq], held := if ord then r.held ++ [(seq, words)] else r.held }
  let x := r.advance (r.seen.length + 1) []
  let s := { s with robs := put flow x.1 s.robs }
  let s := if ord then s else s.send { chan := 2 ^ 38 + s.nextMsg, ev := ⟨row, [s.nextMsg]⟩, words := words }
  x.2.foldl (init := s) fun s ws =>
    s.send { chan := 2 ^ 35 + 2 ^ 34 + flow, ev := ⟨(if ws.getD 2 0 = 0 then .peerLoadArrival else .peerWriteArrival), [s.nextMsg]⟩, words := ws }

/-- An access that has passed its reorder buffer is performed, or waits. -/
def peerArrival (s : State) : Host.Outcome State Fault Refusal :=
  match s.msg? (s.arg 0) with
  | none => happen s
  | some m =>
    match s.peerPerform m.words with
    | some s' => happen (s'.drop (s.arg 0))
    | none => happen s

/-- PEER_WRITE_ARRIVAL: message. A store or an atomic commits at its home slice as a chunk of its granule. -/
def execPeerWriteArrival (s : State) : Host.Outcome State Fault Refusal := peerArrival s
/-- PEER_LOAD_ARRIVAL: message. The value at the home slice when the load arrives. -/
def execPeerLoadArrival (s : State) : Host.Outcome State Fault Refusal := peerArrival s

end Sys2Proof.Machine
end

