-- ==== Sys2Proof/Machine/Host.lean ====
section
/-!
DEFINITION. The host ports, start-up, attestation and checkpoints (R463 to R471, R477 to R484).

What the host does comes as messages, those of one requester of a port on a channel of their own, so that its posted order stands (R220, R470).
-/

namespace Sys2Proof.Machine

open Sys2Proof

def State.hostPort (s : State) (k : Nat) : Port := look {} s.ports k
def State.setHostPort (s : State) (k : Nat) (p : Port) : State := { s with ports := put k p s.ports }
def State.modBoot (s : State) (f : Boot → Boot) : State := { s with boot := f s.boot }

/-- HC.ERR latches a refused address (R464, R466). -/
def State.latchErr (s : State) (port addr : Nat) : State := s.setHostPort port { s.hostPort port with err := n64 (2 ^ 63 + addr % 2 ^ 63) }

/-! ## Rights in the two-word layout (R380, R465, R474) -/

def PlbEntry.wordA (e : PlbEntry) : Nat := e.base / 2 ^ 16 % 2 ^ 40 * 2 ^ 16 + e.sz % 2 ^ 6
def PlbEntry.wordB (e : PlbEntry) : Nat :=
  let f (b : Bool) (n : Nat) := if b then 2 ^ n else 0
  e.dom % 2 ^ 16 * 2 ^ 48 + f e.v 7 + f e.e 4 + f e.at_ 3 + f e.x 2 + f e.w 1 + f e.r 0
def PlbEntry.setA (e : PlbEntry) (v : Nat) : PlbEntry := { e with base := bits v 55 16 * 2 ^ 16, sz := bits v 5 0 }
def PlbEntry.setB (e : PlbEntry) (v : Nat) : PlbEntry :=
  { e with dom := bits v 63 48, v := bit v 7, e := bit v 4, at_ := bit v 3, x := bit v 2, w := bit v 1, r := bit v 0 }

/-- A word of a table of rights, by its offset. -/
def rightsRead (t : Tab PlbEntry) (off : Nat) : Nat :=
  let e := look { sz := 0 } t (off / 16)
  if off % 16 = 0 then e.wordA else e.wordB
def rightsWrite (t : Tab PlbEntry) (off v : Nat) : Tab PlbEntry :=
  let e := look { sz := 0 } t (off / 16)
  put (off / 16) (if off % 16 = 0 then e.setA v else e.setB v) t

/-! ## Start-up (R477, R478) -/

/-- The bound of a step in ns. -/
def startBound : Nat → Nat
  | 1 => 5000000000
  | 2 => 100000000
  | 3 => 2000000000
  | 4 => 3000000000
  | 5 => 2000000000
  | 6 => 1000000
  | _ => 10000000000

/-- Bytes of a table, unlisted ones zero. -/
def bytesOf (t : Tab Byte) (n : Nat) : List Byte := (List.range n).map (look 0 t)
/-- The boot ROM takes an image whose key hashes to the fuses and whose signature verifies (R480). -/
def Rom.good (r : Rom) : Bool :=
  Config.sha256 (bytesOf r.key 64) = r.fused && Config.verifies (bytesOf r.key 64) (bytesOf r.sig 29792) (bytesOf r.image r.imageLen)

/-- A step of the start begins: it ends in its own time, well or not, and its bound runs. The first fails where the boot ROM refuses the image. -/
def State.beginStep (s : State) (k : Nat) : State :=
  let no := s.boot.no + 1
  let s := (s.modBoot (fun b => { b with stage := k, no := no })).at (s.time + startBound k + 1) .startStageTimeout [no]
  let good : Bool := if k = 1 then s.rom.good else Config.succeeds s.seq
  if k < 7 then s.at (s.time + Config.lapse s.seq) .startStepEnd [no, if good then 1 else 0] else s

/-- What goes on in a module that starts or has failed to: a report under way, and the beat of `time`, at which no column does anything then. -/
def Event.always (ev : Event) : Bool :=
  match ev.row with
  | .attestReport => true
  | .reservoirTick => true
  | _ => false
/-- Only the host ports stay active: what else is under way is lost, after the bank-side operations accepted (R133, R478). -/
def State.hostOnly (s : State) : State :=
  let s := s.settleAll
  { s with flight := s.flight.filter (fun e => e.2.ofHost), agenda := s.agenda.filter (fun e => e.2.always), tokenQ := [], tokenHolder := none }

/-- The module starts: cold, or warm when asked for and fewer than three warm starts in a row have failed. Running chunks end without a trace. -/
def State.startModule (s : State) (warm : Bool) : State :=
  let s := (s.agents.foldl State.squash s).hostOnly
  (s.modBoot (fun b => { b with isWarm := warm && b.fails < 3, count := b.count + 1, done := false, fail := false })).beginStep 1

/-- The start fails: the module stays with only its host ports active. -/
def State.failStart (s : State) : State :=
  s.hostOnly.modBoot (fun b => { b with fail := true, no := b.no + 1, fails := if b.isWarm then min 3 (b.fails + 1) else b.fails })

/-- The samples, ticks and windows of a running module (R275, R396, R444, R451, R457). -/
def State.armClocks (s : State) : State :=
  let t10 := (s.time / 10000 + 1) * 10000
  let t1 := (s.time / 1000 + 1) * 1000
  let t1000 := (s.time / 1000000 + 1) * 1000000
  ((((s.at t10 .sensorSample [t10]).at t10 .arbiterSample [t10]).at t10 .slackWindow [t10]).at t1 .reservoirTick [t1]).at t1000 .counterHalving [t1000]

/-- Memory is cleared, and its poison (step 5); the host's memory is not the module's. -/
def State.clearMemory (s : State) : State := { s with mem := s.mem.filter (fun e => 2 ^ 64 ≤ e.1), under := [], poison := [], flaws := [] }

/-- Every register, table, cache and unit at its reset value, `time`, kind and keep among them (R5, R454, R477), with memory as it stands; the Iluet
is ready at the image entry (step 6). What a warm start keeps beside memory: the counts that run since a cold start, and what power is off. -/
def State.resetUnits (s : State) : State :=
  let warm := s.boot.isWarm
  let stays (key : Nat) : Bool := key < 2 ^ 42 || 2 ^ 64 ≤ key
  let b : Boot := { fails := s.boot.fails, stage := s.boot.stage, isWarm := warm,
                    count := s.boot.count, no := s.boot.no }
  let fresh : State :=
    { seq := s.seq, nextMsg := s.nextMsg, inputs := s.inputs, outbox := s.outbox, flight := s.flight.filter (fun e => e.2.ofHost),
      mem := s.mem.filter (fun e => stays e.1), poison := s.poison.filter (fun g => stays (64 * g)),
      flaws := s.flaws.filter (fun g => stays (64 * g)), boot := b, rom := s.rom,
      ports := s.ports.map (fun e => (e.1, { up := e.2.up })), iluet := { st := .ready },
      cores := if warm then s.cores.map (fun e => (e.1, { retired := e.2.retired })) else [],
      quads := if warm then s.quads.map (fun e => (e.1, { mc := e.2.mc })) else [],
      dark := if warm then s.dark else [], darkCols := if warm then s.darkCols else [] }
  fresh.armClocks

/-- START_STEP_END: number of the step in progress, 1 if it has done its work. The next step begins: a warm start leaves out steps 2 and 3, and clears
memory only where keep is 0. -/
def execStartStepEnd (s : State) : Host.Outcome State Fault Refusal :=
  let b := s.boot
  if s.arg 0 ≠ b.no || b.fail || 7 ≤ b.stage then happen s
  else if s.arg 1 = 0 then happen s.failStart
  else
    match b.stage with
    | 1 => happen (s.beginStep (if b.isWarm then 4 else 2))
    | 5 => happen ((if b.isWarm && b.keep then s else s.clearMemory).beginStep 6)
    | 6 => happen (s.resetUnits.beginStep 7)
    | k => happen (s.beginStep (k + 1))

/-- START_STAGE_TIMEOUT: number of the step. -/
def execStartStageTimeout (s : State) : Host.Outcome State Fault Refusal :=
  let b := s.boot
  happen (if s.arg 0 = b.no && !b.fail && !b.done then s.failStart else s)

/-- Firmware writes done, which completes the start (R477). -/
def State.startDone (s : State) : State :=
  if s.boot.stage = 7 && !s.boot.fail && !s.boot.done then s.modBoot (fun b => { b with done := true, fails := 0 }) else s
/-- START_DONE. -/
def execStartDone (s : State) : Host.Outcome State Fault Refusal := happen s.startDone

/-- stage: the step in progress, or the step that failed; none is in progress when the start has completed. -/
def Boot.stageWord (b : Boot) : Nat := if b.done then 0 else b.stage
/-- HC.START as it reads. -/
def State.startWord (s : State) : Nat :=
  let b := s.boot
  let f (c : Bool) (n : Nat) := if c then 2 ^ n else 0
  f b.keep 49 + f b.warm 48 + b.fails % 256 * 2 ^ 32 + b.stageWord % 256 * 2 ^ 16 + f b.fail 1 + f b.done 0
/-- A store to HC.START; the firmware's may write done. -/
def State.startWrite (s : State) (fw : Bool) (v : Nat) : State :=
  let s := s.modBoot (fun b => { b with keep := bit v 49, warm := bit v 48 })
  if bit v 63 then s.startModule (bit v 48) else if fw && bit v 0 then s.startDone else s

/-- POWER_ON: a cold start of a module that holds nothing. -/
def execPowerOn (s : State) : Host.Outcome State Fault Refusal :=
  happen (({ ({ s with boot := {} } : State).clearMemory.resetUnits with agenda := [] } : State).modBoot (fun b => { b with fails := 0, count := 0 }) |>.startModule false)
/-- START_GO: the value stored in HC.START. -/
def execStartGo (s : State) : Host.Outcome State Fault Refusal := happen (s.startWrite false (s.arg 0 % 2 ^ 63 + 2 ^ 63))
/-- PERST: PERST# on port 0. -/
def execPerst (s : State) : Host.Outcome State Fault Refusal := happen (s.startModule s.boot.warm)

/-! ## Attestation (R481) -/

/-- ATTEST_DOORBELL: the value stored. A request starts unless one runs; the signature takes at most 2 s. -/
def State.attest (s : State) (v : Nat) : State :=
  if v ≠ 1 || s.boot.mrun then s
  else
    (s.modBoot (fun b => { b with mrun := true, mdone := false, nonce := (List.range 32).map (fun i => look 0 b.mbox i) })).at
      (s.time + Config.lapse s.seq % 2000000001) .attestReport []
def execAttestDoorbell (s : State) : Host.Outcome State Fault Refusal := happen (s.attest (s.arg 0))

/-- ATTEST_REPORT: the report is there, and the done bit. -/
def execAttestReport (s : State) : Host.Outcome State Fault Refusal :=
  happen (if s.boot.mrun then
    s.modBoot (fun b => { b with mrun := false, mdone := true, report := some (s.seq, b.count, if b.isWarm then 1 else 0) }) else s)

/-- Byte `j` of the digest of the `i`-th firmware stage that a start has loaded: the digests are the start's, the same in all its reports (log 16). -/
def stageDigest (count i j : Nat) : Byte := BitVec.ofNat 8 ((Config.freeWord count (2 + 4 * i + j / 8)).toNat / 2 ^ (8 * (j % 8)))
/-- What the report of a start says, before the signature: the nonce, the serial, the start count and kind, the digest of each firmware stage that was loaded,
and their number. The serial and the packing of the start count and kind are not given by the specification (log 16). -/
def Boot.reportBody (b : Boot) (count kind : Nat) : List Byte :=
  (List.range 32).map (fun i => b.nonce.getD i 0) ++ (List.range 16).map (fun i => Config.freeByte 0 i) ++
  (List.range 8).map (fun i => BitVec.ofNat 8 ((Config.freeWord count kind).toNat / 2 ^ (8 * i))) ++
  (List.range (32 * b.stages)).map (fun i => stageDigest count (i / 32) (i % 32)) ++ leBytes 8 b.stages

/-- A byte of the mailbox: the report, and after it the signature by the identity key over all of it. -/
def State.mailByte (s : State) (off : Nat) : Byte :=
  let b := s.boot
  if off = 0xFFF0 then (if b.mdone then 1 else 0)
  else if off < 0x20 then look 0 b.mbox off
  else
    match b.report with
    | none => 0
    | some (_, count, kind) =>
      let body := b.reportBody count kind
      let o := off - 0x100
      if off < 0x100 then 0
      else if o < body.length then body.getD o 0
      else if o < body.length + 29792 then Config.signature (bytesOf s.rom.idPrivate 128) body (o - body.length)
      else 0

/-! ## Checkpoints (R482 to R484) -/

/-- Whether some engine, equivalence or tap operation, or a matrix command, is still at work, or stores of a chunk are under way. -/
def State.unitsBusy (s : State) : Bool :=
  s.cores.any (fun c => c.2.ctxs.any (fun x => x.2.slots.any (fun e => e.2.st = .running) || x.2.taps ≠ 0 || x.2.mcmds ≠ 0)) ||
  s.flight.any (fun e => e.2.ev.row = .eqAsyncCompletion || e.2.ev.row = .remoteStoreGroup)

/-- The key of host memory at which a module byte stands in an image, if it is part of it: the header, each stack's DRAM but for dark tiers, every
scratchpad. -/
def State.imagePos (s : State) (key : Nat) : Option Nat :=
  let lit (n : Nat) : Nat := ((List.range n).filter (fun t => !s.dark.contains t)).length
  if isDram key then
    if s.dark.contains (tierOf key) then none else some (4096 + lit (tierOf key) * 2 ^ 32 + key % 2 ^ 32)
  else if isScratch key then some (4096 + lit 64 * 2 ^ 32 + (key - 2 ^ 40))
  else none

/-- The header: `time` of the pause, the bitmap of dark tiers, the count of poisoned granules and the first 500 of their addresses. -/
def State.imageHeader (s : State) (time : Nat) : List Byte :=
  let p := s.poison.filter (fun g => isDram (g * 64) || isScratch (g * 64))
  let all := (time :: s.dark.foldl (fun m t => m + 2 ^ t) 0 :: p.length :: (p.take 500).map (· * 64)).flatMap (leBytes 8)
  all ++ List.replicate (4096 - all.length) 0

/-- The image is written into the host's memory; poisoned granules are written as zeros. -/
def State.writeImage (s : State) : State :=
  let base := hostKey (s.hostPort s.boot.ckPort).ckaddr.toNat
  let len := 4096 + (64 - s.dark.length) * 2 ^ 32 + 100352 * 2 ^ 17
  let cells : List (Nat × Byte) := s.mem.filterMap (fun e => if s.poison.contains (e.1 / 64) then none else (s.imagePos e.1).map (fun o => (base + o, e.2)))
  let rest := s.mem.filter (fun e => e.1 < base || base + len ≤ e.1)
  ({ s with mem := cells.foldl (fun m (e : Nat × Byte) => memSet m e.1 e.2) rest }).writeBytes base (s.imageHeader s.boot.ckTime)

/-- Every context's chunk commits before the pause, or is squashed and runs again after it. -/
def State.commitAll (s : State) : State :=
  s.agents.foldl (init := s) fun s ag =>
    match s.endChunk ag with
    | .ok s => s
    | .error (.later s) => s
    | .error _ => s

/-- done and err of both ports' HC.CK (R484). -/
def State.setCk (s : State) (done err : Bool) : State :=
  [0, 1].foldl (fun s k => s.setHostPort k { s.hostPort k with ckDone := done, ckErr := err }) s

/-- Every dirty sector is written back, but for those of a dark tier (R55, R483). -/
def State.writeBackAll (s : State) : State :=
  let s := s.slices.foldl (fun s l => s.writeOut l.1 (l.2.sectors.filter (fun e => e.dirty && !s.darkAt (e.tag.key * 256)))) s
  { s with slices := s.slices.map (fun (l : Nat × Slice) =>
      (l.1, { l.2 with sectors := l.2.sectors.map (fun (e : Sector) => if s.darkAt (e.tag.key * 256) then e else { e with dirty := false }) })) }

/-- A write of HC.CK.go, through a port, or (2) by firmware. -/
def State.checkpoint (s : State) (port : Nat) : State :=
  if s.boot.ckRun then s
  else if !(s.hostPort 0).up && !(s.hostPort 1).up then s.setCk true true
  else
    let s := s.commitAll.setCk false false
    ((s.modBoot (fun b => { b with ckRun := true, ckBad := false, ckPort := if port = 1 then 1 else 0, ckTime := s.time })).activity .checkpointEnd []).at
      (s.time + 1500000000) .checkpointEnd []
/-- CHECKPOINT_GO: port, or 2. -/
def execCheckpointGo (s : State) : Host.Outcome State Fault Refusal := happen (s.checkpoint (s.arg 0))

/-- CHECKPOINT_END: when accepted operations have run to completion, chunks that their matrix commands held up commit, dirty sectors are written back, and the
image is written; a write of it may fail (log 10). This comes 1.5 s after the pause at the latest, where the operations accepted have ended by then. -/
def execCheckpointEnd (s : State) : Host.Outcome State Fault Refusal :=
  if !s.boot.ckRun then happen s
  else if s.unitsBusy then happen (s.start .checkpointEnd [])
  else if s.agents.any (fun ag => (s.ctx ag).chunk.run) then happen (s.commitAll.start .checkpointEnd [])
  else
    let bad := s.boot.ckBad || !Config.succeeds s.seq
    happen ((s.settleAll.writeBackAll.writeImage.modBoot (fun b => { b with ckRun := false, ckBad := false })).setCk true bad)

/-- HC.CK of a port. -/
def State.ckWord (s : State) (port : Nat) : Nat :=
  let f (c : Bool) (n : Nat) := if c then 2 ^ n else 0
  f (s.hostPort port).ckDone 63 + f (s.hostPort port).ckErr 62 + f s.boot.ckRun 61
/-- A store to HC.CK of a port; `who` is the port, or 2 for firmware. -/
def State.ckWrite (s : State) (who port v : Nat) : State :=
  let p := s.hostPort port
  let s := s.setHostPort port { p with ckDone := p.ckDone && !bit v 63, ckErr := p.ckErr && !bit v 62 }
  if bit v 0 then s.checkpoint who else s

/-! ## The links of the ports (R468, R484) -/

/-- HOST_LINK_DOWN: port. A write of an image may be lost with the link. -/
def execHostLinkDown (s : State) : Host.Outcome State Fault Refusal :=
  let s := s.setHostPort (s.arg 0) { s.hostPort (s.arg 0) with up := false }
  happen (s.modBoot (fun b => { b with ckBad := b.ckBad || (b.ckRun && (!Config.succeeds s.seq || (!(s.hostPort 0).up && !(s.hostPort 1).up))) }))
/-- HOST_LINK_UP: port. -/
def execHostLinkUp (s : State) : Host.Outcome State Fault Refusal :=
  happen (s.setHostPort (s.arg 0) { s.hostPort (s.arg 0) with up := true })

/-! ## The host control block (R465) -/

def State.hcRead (s : State) (port off : Nat) : Nat :=
  let p := s.hostPort port
  if off = 0x000 then p.abase.toNat
  else if off = 0x008 then p.dom.toNat
  else if off = 0x010 then p.pmask.toNat
  else if off = 0x018 then p.cring.toNat
  else if off = 0x020 then p.cptr.toNat
  else if off = 0x028 then p.err.toNat
  else if off = 0x030 then s.startWord
  else if off = 0x038 then s.ckWord port
  else if off = 0x040 then p.ckaddr.toNat
  else if 0x100 ≤ off ∧ off < 0x200 ∧ off % 8 = 0 then rightsRead p.rights (off - 0x100)
  else 0

/-- A store to the control block, by the host or by firmware. -/
def State.hcWrite (s : State) (port : Nat) (fw : Bool) (off v : Nat) : State :=
  let p := s.hostPort port
  if off = 0x000 then (if fw then s.setHostPort port { p with abase := n64 (bits v 55 36 * 2 ^ 36) } else s)
  else if off = 0x008 then (if fw then s.setHostPort port { p with dom := n64 (v % 2 ^ 16) } else s)
  else if off = 0x010 then (if fw then s.setHostPort port { p with pmask := n64 v } else s)
  else if off = 0x018 then s.setHostPort port { p with cring := n64 (v / 16 * 16) }
  else if off = 0x020 then
    s.setHostPort port { p with cptr := (n64 v &&& 0xFFFF00000000FFFF#64) ||| (p.cptr &&& 0x0000FFFF00000000#64) }
  else if off = 0x028 then s.setHostPort port { p with err := p.err &&& ~~~(n64 v) }
  else if off = 0x030 then s.startWrite fw v
  else if off = 0x038 then s.ckWrite (if fw then 2 else port) port v
  else if off = 0x040 then s.setHostPort port { p with ckaddr := n64 (v / 4096 * 4096) }
  else if 0x100 ≤ off ∧ off < 0x200 ∧ off % 8 = 0 then
    (if fw then s.setHostPort port { p with rights := rightsWrite p.rights (off - 0x100) v } else s)
  else s

/-- The Iluet state block (R479). -/
def State.iluetBlock (s : State) (off : Nat) : Nat :=
  if !s.fw.stopped && !s.boot.fail then 0
  else if off = 0x000 then 1
  else if off = 0x008 then s.fw.fpc.toNat
  else if off = 0x010 then s.fw.fcause.toNat
  else if off = 0x018 then s.fw.finfo.toNat
  else if off = 0x020 then s.fw.fstat.toNat
  else if 0x100 ≤ off ∧ off < 0x200 ∧ off % 8 = 0 then (s.iluet.r.S ((off - 0x100) / 8)).toNat
  else if off = 0x200 then s.boot.stageWord
  else 0

/-! ## Couriers from the host (R469, R470) -/

/-- The couriers of a host port that have not been answered yet: on their way, or in a courier slot. Each has an entry of the completion ring to come. -/
def State.couriersOf (s : State) (port : Nat) : Nat :=
  (s.flight.filter (fun e => e.2.ev.row = .courierArrival && e.2.src = 2 ^ 20 + port)).length +
  (s.cores.filter (fun e => match e.2.courier with | some c => c.src = 2 ^ 20 + port | none => false)).length

/-- A write of 32 bytes to the doorbell: without room in the completion ring for its entry, behind those of the couriers not answered yet, the courier is
refused with FULL, and nothing tells of it. -/
def State.doorbell (s : State) (port v : Nat) : State :=
  let p := s.hostPort port
  let w0 := v % 2 ^ 64
  let cptr := p.cptr.toNat
  let size := bits cptr 63 48
  let c : Courier := { pc := n64 (bits v 127 64), x := n64 (bits v 191 128), y := n64 (bits v 255 192), src := 2 ^ 20 + port, ack := true,
                       tag := bits w0 63 48, payload := n64 w0, dom := p.dom.toNat }
  if size = 0 || (List.range (s.couriersOf port + 1)).any (fun i => (bits cptr 47 32 + 1 + i) % size = bits cptr 15 0) then s
  else if bit w0 47 || bits w0 27 0 ≠ 0 || 112 ≤ bits w0 43 36 || 112 ≤ bits w0 35 28 then s.courierDone c 0 cBOUNDS
  else
    let core := coreOf (bits w0 46 44) (bits w0 43 36) (bits w0 35 28)
    if s.darkCols.contains (colOf core) then s.courierDone c core cDARK
    else if s.partOfCol (colOf core) ≠ some (p.dom.toNat / 2 ^ 10) then s.courierDone c core cPROT
    else
      s.send { chan := 2 ^ 38 + s.nextMsg, ev := ⟨.courierArrival, [s.nextMsg]⟩, src := 2 ^ 20 + port,
               words := [core, c.pc.toNat, c.x.toNat, c.y.toNat, 1, c.tag, w0, c.dom] }
/-- COURIER_DOORBELL: port, the 32 bytes as a little-endian number. -/
def execCourierDoorbell (s : State) : Host.Outcome State Fault Refusal := happen (s.doorbell (s.arg 0) (s.arg 1))

/-! ## Host accesses (R464, R466) -/

/-- Whether BAR0 lists an offset for a port. -/
def State.bar0Has (s : State) (port off : Nat) : Bool :=
  off < 0x48 || (0x100 ≤ off && off < 0x200) ||
  (0x400000 ≤ off && off < 0x800000 && bit (s.hostPort port).pmask.toNat ((off - 0x400000) / 2 ^ 16)) ||
  (0x800000 ≤ off && off < 0x801000) || (0x900000 ≤ off && off < 0x910000)

/-- A store through BAR0: 8 bytes, aligned, at a listed offset, or 32 bytes to the doorbell; anything else is discarded and latches HC.ERR. -/
def State.bar0Write (s : State) (port off len v : Nat) : State :=
  if off = 0x10000 && len = 32 then s.doorbell port v
  else if len ≠ 8 || off % 8 ≠ 0 || !s.bar0Has port off then s.latchErr port off
  else if off < 0x1000 then s.hcWrite port false off v
  else if off < 0x800000 then s.schedWrite (2 ^ 20 + port) ((off - 0x400000) / 2 ^ 16) (off % 2 ^ 16) v
  else if off < 0x900000 then s
  else if off < 0x900020 then
    s.modBoot (fun b => { b with mbox := (List.range 8).foldl (fun t i => put (off - 0x900000 + i) (BitVec.ofNat 8 (v / 2 ^ (8 * i))) t) b.mbox })
  else if off = 0x90FFF8 then s.attest v
  else s

/-- A store to POST through BAR0 that has to wait: what it asks for. -/
def State.bar0Halts (s : State) (port off len v : Nat) : Option State :=
  if len = 8 && off % 8 = 0 && s.bar0Has port off && 0x400000 ≤ off && off < 0x800000 then
    s.postHalts (2 ^ 20 + port) ((off - 0x400000) / 2 ^ 16) (off % 2 ^ 16) v
  else none

/-- A read through BAR0: its value, or nothing where it is unsupported. -/
def State.bar0Read (s : State) (port off len : Nat) : Option Nat :=
  if len ≠ 8 || off % 8 ≠ 0 || !s.bar0Has port off then none
  else if off < 0x1000 then some (s.hcRead port off)
  else if off < 0x800000 then some (s.schedRead ((off - 0x400000) / 2 ^ 16) (off % 2 ^ 16))
  else if off < 0x900000 then some (s.iluetBlock (off - 0x800000))
  else some (leNat ((List.range 8).map (fun i => s.mailByte (off - 0x900000 + i))))

/-- The memory of a host access through BAR2 or a decoder: Global VA HC.ABASE + offset, DRAM alone. -/
def State.hostTargets (s : State) (port off n : Nat) (need : Rights) : Except Nat (List (Nat × Nat × Target)) :=
  let p := s.hostPort port
  s.outsideTargets p.rights p.dom.toNat (p.abase.toNat + off) n need [0]

/-- HOST_WRITE: message with words port, 0 for BAR0 or 2 for BAR2, offset, length, data. -/
def execHostWrite (s : State) : Host.Outcome State Fault Refusal :=
  let id := s.arg 0
  match s.msg? id with
  | none => happen s
  | some m =>
    let w (k : Nat) := m.words.getD k 0
    let (port, off, n) := (w 0, w 2, w 3)
    if w 1 = 0 then
      match s.bar0Halts port off n (w 4) with
      | some s => happen s
      | none => happen ((s.drop id).bar0Write port off n (w 4))
    else
      match s.hostTargets port off n wrR with
      | .error _ => happen ((s.drop id).latchErr port ((s.hostPort port).abase.toNat + off))
      | .ok ts => if s.outsideWaits ts then happen s else happen ((s.drop id).outsideWrite (s.hostPort port).dom.toNat ts (leBytes n (w 4)))

/-- HOST_READ: message with words port, BAR, offset, length. The completion leaves through the port: offset, length, 0 with the data or 1 for Unsupported
Request. -/
def execHostRead (s : State) : Host.Outcome State Fault Refusal :=
  let id := s.arg 0
  match s.msg? id with
  | none => happen s
  | some m =>
    let w (k : Nat) := m.words.getD k 0
    let (port, off, n) := (w 0, w 2, w 3)
    let s' := s.drop id
    if w 1 = 0 then
      match s.bar0Read port off n with
      | some v => happen (s'.out port [off, n, 0, v])
      | none => happen ((s'.latchErr port off).out port [off, n, 1])
    else
      match s.hostTargets port off n rdR with
      | .error _ => happen ((s'.latchErr port ((s.hostPort port).abase.toNat + off)).out port [off, n, 1])
      | .ok ts =>
        if s.outsideReadWaits ts then happen s else
        let (s', bs) := s'.outsideRead (s.hostPort port).dom.toNat ts
        happen (s'.out port [off, n, 0, leNat bs])

/-- A host chunk on a line that is taken from the module's caches (R467): its dirty data leave, L1 copies go, conflicting chunks are squashed. -/
def State.takeLineAway (s : State) (port g : Nat) : State :=
  let dirty := s.slices.any (fun l => l.2.sectors.any (fun e => e.tag.key = g && e.dirty && !e.kept))
  let s := s.settleBank [g]
  let s := if dirty then s.out port [g * 256, leNat (s.bytes (g * 256) 256)] else s
  let s := s.slices.foldl (fun s l => s.writeOut l.1 (l.2.sectors.filter (fun e => e.tag.key = g && !e.kept))) (s.enter none [g])
  { s with slices := s.slices.map (fun l => (l.1, { l.2 with sectors := l.2.sectors.filter (fun e => e.tag.key ≠ g || e.kept) })) }

/-- HOST_SNOOP: message with words port, host physical address, length, and the bytes that the host then holds there. A line that a slice holds is given up
as by a host chunk; one that none holds is the host's alone, but whoever in the module has read it is treated alike (log 61). -/
def execHostSnoop (s : State) : Host.Outcome State Fault Refusal :=
  let id := s.arg 0
  match s.msg? id with
  | none => happen s
  | some m =>
    let w (k : Nat) := m.words.getD k 0
    let key := hostKey (w 1)
    let gs := granules key (max 1 (w 2))
    if s.reserved (.ws 0) gs then happen s
    else happen ((gs.foldl (fun s g => s.takeLineAway (w 0) g) (s.drop id)).writeBytes key (leBytes (w 2) (w 3)))

/-- BACK_INVALIDATE: message with words port, offset of a DRAM line in the port's aperture. -/
def execBackInvalidate (s : State) : Host.Outcome State Fault Refusal :=
  let id := s.arg 0
  match s.msg? id with
  | none => happen s
  | some m =>
    let (port, off) := (m.words.getD 0 0, m.words.getD 1 0)
    match s.hostTargets port off 1 {} with
    | .ok ts =>
      let gs := ts.flatMap (fun t => t.2.2.granules t.2.1)
      if s.outsideWaits ts then happen s else happen (gs.foldl (fun s g => s.takeLineAway port g) (s.drop id))
    | .error _ => happen (s.drop id)

end Sys2Proof.Machine
end

