-- ==== Sys2Proof/Machine/Xlat.lean ====
section
/-!
DEFINITION. The translation block: invalidation of a range, migration and promotion of pages (R394 to R399).
-/

namespace Sys2Proof.Machine

open Sys2Proof

def State.modXlat (s : State) (f : Xlat → Xlat) : State := { s with xlat := f s.xlat }

/-! ## Invalidation (R395) -/

/-- Whether a 56-bit address lies in an aligned range. -/
def inRange (base size va : Nat) : Bool := bits va 55 0 / size = base / size

/-- Whether the running chunk of a context holds a granule of a range. -/
def Ctx.touches (c : Ctx) (base size : Nat) : Bool := c.chunk.run && c.chunk.vas.any (fun g => inRange base size (g * 256))

/-- Whether a priority chunk holds a granule of a range: it commits first (R213, R398). -/
def State.priorityIn (s : State) (base size : Nat) : Bool :=
  match s.tokenHolder with
  | some code => let c := s.ctx (Agent.ofCode code); c.token && c.touches base size
  | none => false

/-- Drops every cached line and translation of a range, dirty sectors written back or, for a dark tier, held out of lookup; squashes the
chunks that hold a granule of it. -/
def State.dropRange (s : State) (base size : Nat) : State :=
  let mine (t : LineTag) : Bool := inRange base size (t.va * 256)
  let s := s.agents.foldl (fun s ag => if (s.ctx ag).touches base size && !(s.ctx ag).token then s.squash ag else s) s
  let s := s.slices.foldl (fun s l =>
    s.writeOut l.1 (l.2.sectors.filter (fun e => mine e.tag && !e.kept && !(e.dirty && s.darkAt (e.tag.key * 256))))) s
  let held (s : State) (e : Sector) : Bool := e.dirty && s.darkAt (e.tag.key * 256)
  { s with
    tcs := s.tcs.map (fun t => (t.1, t.2.filter (fun e => !(inRange base size e.base || inRange e.base (2 ^ e.leaf.size) base)))),
    cores := s.cores.map (fun c => (c.1, { c.2 with l1 := c.2.l1.filter (fun t => !mine t),
                                                    icache := c.2.icache.filter (fun b => !inRange base size (b.va * 64) && (b.bytes.length = 64 || !inRange base size (b.va * 64 + 64))) })),
    slices := s.slices.map (fun l => (l.1, { l.2 with
      sectors := (l.2.sectors.filter (fun e => !mine e.tag || e.kept || held s e)).map (fun e => if mine e.tag then { e with kept := true } else e),
      run := l.2.run.map (fun ev => { ev with tags := ev.tags.filter (fun t => !mine t) }),
      queue := l.2.queue.map (fun ev => { ev with tags := ev.tags.filter (fun t => !mine t) }) })) }

/-- Whether a value is a well-formed TINV operand. -/
def tinvOk (t : Nat) : Bool :=
  bits t 63 56 = 0 && bits t 15 6 = 0 && 16 ≤ bits t 5 0 && bits t 5 0 ≤ 56 && bits t 55 16 * 2 ^ 16 % 2 ^ bits t 5 0 = 0

/-- A store to TINV, once no priority chunk holds a granule of the range. -/
def State.tinv (s : State) (who t : Nat) : State :=
  if tinvOk t then s.dropRange (bits t 55 16 * 2 ^ 16) (2 ^ bits t 5 0)
  else s.record { dom := s.writerDom who, src := 10, sub := 1, w4 := t }
/-- Whether a store to TINV has to wait. -/
def State.tinvWaits (s : State) (t : Nat) : Bool := tinvOk t && s.priorityIn (bits t 55 16 * 2 ^ 16) (2 ^ bits t 5 0)
/-- TINV: party, value. -/
def execTinv (s : State) : Host.Outcome State Fault Refusal := happen (if s.tinvWaits (s.arg 1) then s else s.tinv (s.arg 0) (s.arg 1))

/-! ## Rings (R394) -/

/-- A ring's base and pointer word, by the offset of its base register. -/
def State.ring (s : State) (off : Nat) : Nat × Nat := ((look 0 s.xlat.rings off).toNat, (look 0 s.xlat.rings (off + 8)).toNat)
def State.setRingPtr (s : State) (off v : Nat) : State := s.modXlat (fun x => { x with rings := put (off + 8) (n64 v) x.rings })

/-- Takes the entry at the head of a pool ring; none when the ring is empty or cannot be read. -/
def State.takeFrame (s : State) (off : Nat) : Option (Nat × State) :=
  let (base, p) := s.ring off
  let size := bits p 63 48
  let head := bits p 31 16
  if size = 0 || head = bits p 15 0 then none
  else
    let va := (base + 8 * head) % 2 ^ 64
    match s.devCheck none va 8 rdR with
    | .error _ => none
    | .ok t =>
      if t.key?.isNone then none
      else some (leNat (s.devRead t 8), s.setRingPtr off (size * 2 ^ 48 + bits p 47 32 * 2 ^ 32 + (head + 1) % size * 2 ^ 16 + bits p 15 0))

/-- Room in the freed ring. -/
def State.freedRoom (s : State) : Nat :=
  let p := (s.ring 0x200).2
  let size := bits p 63 48
  if size = 0 then 0 else (bits p 31 16 + size - 1 - bits p 15 0 % size) % size

/-- Writes an entry to the freed ring, at its tail; none when it is full or cannot be written. -/
def State.freeFrame (s : State) (v : Nat) : Option State :=
  let (base, p) := s.ring 0x200
  let size := bits p 63 48
  if s.freedRoom = 0 then none
  else
    let va := (base + 8 * bits p 15 0) % 2 ^ 64
    match s.devCheck none va 8 wrR with
    | .error _ => none
    | .ok t =>
      if t.key?.isNone then none
      else some ((s.devWrite none t va (leBytes 8 v)).setRingPtr 0x200 (bits p 63 16 * 2 ^ 16 + (bits p 15 0 + 1) % size))

/-! ## Moving pages -/

/-- Whether a hold covers some page of a range. -/
def State.heldOver (s : State) (base size : Nat) : Bool := s.xlat.held.any (fun h => h.1 < base + size && base < h.1 + h.2)

/-- Copies bytes of DRAM with their poison marks; no sector stands above them. -/
def State.copyDram (s : State) (src dst n : Nat) : State :=
  let here := s.mem.filter (fun e => src ≤ e.1 && e.1 < src + n)
  let rest := s.mem.filter (fun e => !(dst ≤ e.1 && e.1 < dst + n))
  { s with
    mem := here.foldl (fun m e => memSet m (dst + (e.1 - src)) e.2) rest,
    poison := s.poison.filter (fun g => !(dst / 64 ≤ g && g < (dst + n) / 64)) ++
              (s.poison.filter (fun g => src / 64 ≤ g && g < (src + n) / 64)).map (fun g => dst / 64 + (g - src / 64)) }

/-- Writes a leaf in DRAM as one write in the chunk order (R398). -/
def State.writeLeaf (s : State) (key v : Nat) : State := s.devWrite none (.raw key ⟨0, key / 256, 0, 0, 0⟩) 0 (leBytes 8 v)

/-- A word with another stack and frame. -/
def leafAt (w stack frame : Nat) : Nat :=
  w - bits w 47 16 * 2 ^ 16 - bits w 15 13 * 2 ^ 13 + frame % 2 ^ 32 * 2 ^ 16 + stack * 2 ^ 13

/-! ## Migration (R396 to R398) -/

/-- The counting slice of a unit and the unit. -/
def countSlice (home va : Nat) : Nat := 64 * home + bits va 21 16
def unitOf (va : Nat) : Nat := bits va 55 16

/-- Counts a use of a unit by a stack: the latest counted unit stands first, of 256. -/
def countUnit (l : List (Nat × Tab Nat)) (u stack : Nat) : List (Nat × Tab Nat) :=
  let c := look [] l u
  ((u, put stack (min 65535 (look 0 c stack + 1)) c) :: l.filter (fun e => e.1 ≠ u)).take 256

def State.clearUnit (s : State) (k u : Nat) : State :=
  s.modXlat (fun x => { x with counts := put k ((look [] x.counts k).filter (fun e => e.1 ≠ u)) x.counts })

/-- MIGRATION_COUNT: message. -/
def execMigrationCount (s : State) : Host.Outcome State Fault Refusal :=
  match s.msg? (s.arg 0) with
  | none => happen s
  | some m =>
    let s := s.drop (s.arg 0)
    let (va, home, st, thresh) := (m.words.getD 0 0, m.words.getD 1 0, m.words.getD 2 0, m.words.getD 3 0)
    let k := countSlice home va
    let u := unitOf va
    let s := s.modXlat (fun x => { x with counts := put k (countUnit (look [] x.counts k) u st) x.counts })
    let c := look [] (look [] s.xlat.counts k) u
    if thresh = 0 ∨ st = home ∨ look 0 c st < thresh ∨ look 0 c st ≤ look 0 c home then happen s
    else
      match s.walk va with
      | .error _ => happen s
      | .ok l =>
        let base := bits va 55 0 / 2 ^ l.size * 2 ^ l.size
        if l.ty ≠ 0 ∨ l.pin ∨ l.size = 30 ∨ l.stack ≠ home ∨ s.heldOver base (2 ^ l.size) then happen s
        else
          let refuse := (s.modXlat (fun x => { x with refused := (x.refused + 1) % 2 ^ 32 })).clearUnit k u
          if s.darkAt (l.key va) then happen refuse
          else
            match s.takeFrame (0x100 + 16 * (2 * st + (if l.size = 21 then 1 else 0))) with
            | none => happen refuse
            | some (frame, s) =>
              let s := s.modXlat (fun x => { x with held := x.held ++ [(base, 2 ^ l.size)] })
              happen (s.send { chan := 2 ^ 38 + s.nextMsg, ev := ⟨.migrationFinish, [s.nextMsg]⟩, words := [va, st, frame, k, 0, base, 2 ^ l.size] })

/-- The end of a hold. -/
def State.unhold (s : State) (base size : Nat) : State := s.modXlat (fun x => { x with held := x.held.erase (base, size) })

/-- MIGRATION_FINISH: message with words VA, stack, frame, counting slice, whether step 6 alone is left, the held page's base and size, its old frame.
Steps 2 to 5 of R398 are made at once, when no priority chunk holds the page, and step 6 then releases the held accesses to the new home; the old frame
enters the freed ring when that has room. A leaf that software has changed
meanwhile ends the migration. -/
def execMigrationFinish (s : State) : Host.Outcome State Fault Refusal :=
  let id := s.arg 0
  match s.msg? id with
  | none => happen s
  | some m =>
    let w (k : Nat) := m.words.getD k 0
    let (va, st, frame, k, base, size) := (w 0, w 1, w 2, w 3, w 5, w 6)
    let last (s : State) (old : Nat) : State :=
      match s.freeFrame old with
      | none => s.send { m with chan := 2 ^ 38 + s.nextMsg, ev := ⟨.migrationFinish, [s.nextMsg]⟩, words := [va, st, frame, k, 1, base, size, old] }
      | some s => (s.modXlat (fun x => { x with migrations := (x.migrations + 1) % 2 ^ 32 })).clearUnit k (unitOf va)
    if w 4 = 1 then happen (last (s.drop id) (w 7))
    else
      match s.walk va with
      | .error _ => happen ((s.drop id).unhold base size)
      | .ok l =>
        if l.ty ≠ 0 ∨ 2 ^ l.size ≠ size then happen ((s.drop id).unhold base size)
        else if s.priorityIn base size then happen s
        else
          let s := (s.drop id).settleAll.dropRange base size
          let s := s.copyDram (dramKey l.stack (l.frame * 2 ^ 16)) (dramKey st (frame * 2 ^ 16)) size
          let s := s.writeLeaf l.entry (leafAt (s.rawValue l.entry 8) st frame)
          happen (last ((s.dropRange base size).unhold base size) l.frame)

/-- COUNTER_HALVING: every counter of every slice, at each multiple of 1,000,000 ns. -/
def execCounterHalving (s : State) : Host.Outcome State Fault Refusal :=
  happen ((s.modXlat (fun x => { x with counts := x.counts.map (fun t => (t.1, t.2.map (fun u => (u.1, u.2.map (fun c => (c.1, c.2 / 2)))))) })).at
    (s.arg 0 + 1000000) .counterHalving [s.arg 0 + 1000000])

/-! ## Promotion (R399) -/

/-- The DRAM key of the entry of a level on the walk of an address. -/
def State.entryKey (s : State) (va lvl : Nat) : Option Nat :=
  let rec go : Nat → Nat → Nat → Option Nat
    | 0, _, _ => none
    | fuel + 1, w, l =>
      let key := dramKey (bits w 50 48) (bits w 47 8 * 2 ^ 8 + 8 * bits va (levelHi l) (levelLo l))
      if l = lvl then some key else go fuel (leNat (s.rawBytes key 8)) (l + 1)
  go 5 s.trRoot.toNat 0

/-- The leaves of a range, page by page, or none where one breaks a rule of status 2. -/
def State.promoteLeaves (s : State) (base : Nat) (big : Bool) : Option (List Leaf) :=
  let small := if big then 21 else 16
  let n := if big then 512 else 32
  match s.walk base with
  | .error _ => none
  | .ok f =>
    (List.range n).mapM fun i =>
      match s.walk (base + i * 2 ^ small) with
      | .error _ => none
      | .ok l =>
        if l.ty = 0 ∧ !l.pin ∧ l.size = small ∧ l.stack = f.stack ∧ l.own = f.own ∧
           tierOf (l.key (base + i * 2 ^ small)) = tierOf (f.key base) ∧ !s.darkAt (l.key base) then some l else none

/-- A store to PROMOTE. -/
def State.promote (s : State) (t : Nat) : State :=
  let big := bit t 0
  let base := bits t 55 21 * 2 ^ 21
  let size := if big then 2 ^ 30 else 2 ^ 21
  let stat (s : State) (v : Nat) : State := s.modXlat (fun x => { x with pstat := v })
  if bits t 63 56 ≠ 0 ∨ bits t 20 1 ≠ 0 ∨ base % size ≠ 0 then stat s 2
  else
    match s.walk base with
    | .error _ => stat s 2
    | .ok f =>
      if f.ty = 0 ∧ s.xlat.promoting.contains f.stack then stat s 3
      else
        match s.promoteLeaves base big with
        | none => stat s 2
        | some ls =>
          if s.freedRoom < ls.length + 1 then stat s 4
          else
            let s := (stat s 1).modXlat (fun x => { x with held := x.held ++ [(base, size)], promoting := x.promoting ++ [f.stack] })
            s.send { chan := 2 ^ 38 + s.nextMsg, ev := ⟨.promotionFinish, [s.nextMsg]⟩, words := [t, f.stack] }
/-- PROMOTE: party, value. -/
def execPromote (s : State) : Host.Outcome State Fault Refusal := happen (s.promote (s.arg 1))

/-- Writes entries to the freed ring; none where one of them cannot be written. -/
def State.freeFrames (s : State) (vs : List Nat) : Option State := vs.foldlM State.freeFrame s

/-- The copies of a promotion: each page to its place in the large frame, as the pages stood before. -/
def State.gather (s : State) (srcs : List Nat) (dst step : Nat) : State :=
  let old := s
  (srcs.zip (List.range srcs.length)).foldl (init := s) fun s (src, i) =>
    let dst := dst + i * step
    if src = dst then s
    else
      let x := ({ s with mem := old.mem.filter (fun e => src ≤ e.1 && e.1 < src + step),
                         poison := old.poison.filter (fun g => src / 64 ≤ g && g < (src + step) / 64) }).copyDram src dst step
      { s with mem := (x.mem.filter (fun e => dst ≤ e.1 && e.1 < dst + step)).foldl (fun m e => memSet m e.1 e.2)
                        (s.mem.filter (fun e => !(dst ≤ e.1 && e.1 < dst + step))),
               poison := s.poison.filter (fun g => !(dst / 64 ≤ g && g < (dst + step) / 64)) ++
                         x.poison.filter (fun g => dst / 64 ≤ g && g < (dst + step) / 64) }

/-- The pages of a range, the leaves `f :: ls`, become one page of the large frame that holds the first: nothing of the range stands in a cache, each
page is copied to its place, and the large leaf is written in place of the table pointer. -/
def State.mergePages (s : State) (f : Leaf) (ls : List Leaf) (key base size small : Nat) : State :=
  let new := f.frame * 2 ^ 16 / size * size
  let s := (s.dropRange base size).gather ((f :: ls).map (fun l => dramKey l.stack (l.frame * 2 ^ 16))) (dramKey f.stack new) (2 ^ small)
  (s.writeLeaf key (f.own * 2 ^ 48 + new / 2 ^ 16 * 2 ^ 16 + f.stack * 2 ^ 13 + 3)).dropRange base size

/-- PROMOTION_FINISH: message. A migration that holds a page of the range comes first, and so does a priority chunk. Leaves that software has changed
meanwhile refuse the promotion. The old frames and then the lower table, by its address, enter the freed ring, which is waited for (log 54). -/
def execPromotionFinish (s : State) : Host.Outcome State Fault Refusal :=
  let id := s.arg 0
  match s.msg? id with
  | none => happen s
  | some m =>
    let t := m.words.getD 0 0
    let big := bit t 0
    let base := bits t 55 21 * 2 ^ 21
    let size := if big then 2 ^ 30 else 2 ^ 21
    let small := if big then 21 else 16
    if s.priorityIn base size || (s.unhold base size).heldOver base size then happen s
    else
      let over_ (s : State) (v : Nat) : State :=
        (s.unhold base size).modXlat (fun x => { x with pstat := v, promoting := x.promoting.erase (m.words.getD 1 0) })
      match s.promoteLeaves base big, s.entryKey base (if big then 2 else 3) with
      | some (f :: ls), some key =>
        let table := bits (leNat (s.rawBytes key 8)) 47 8 * 2 ^ 8
        match ((s.drop id).settleAll.mergePages f ls key base size small).freeFrames ((f :: ls).map (·.frame) ++ [table]) with
        | some s1 => happen ((over_ s1 0).modXlat (fun x => { x with promotions := (x.promotions + 1) % 2 ^ 32 }))
        | none => happen s
      | _, _ => happen (over_ (s.drop id) 2)

/-! ## The registers (R394) -/

def State.xlatRead (s : State) (off : Nat) : Nat :=
  let x := s.xlat
  if off = 0x000 then s.trRoot.toNat
  else if off = 0x018 then x.promotions * 2 ^ 32 + x.pstat
  else if off = 0x020 then x.refused * 2 ^ 32 + x.migrations
  else if off % 8 = 0 && ((0x100 ≤ off && off < 0x200) || off = 0x200 || off = 0x208) then (look 0 x.rings off).toNat
  else 0

/-- A store to the translation block; tr.root takes only firmware's. -/
def State.xlatWrite (s : State) (who : Nat) (fw : Bool) (off v : Nat) : State :=
  if off = 0x000 then (if fw then { s with trRoot := n64 v } else s)
  else if off = 0x008 then s.tinv who v
  else if off = 0x010 then s.promote v
  else if off % 16 = 0 && 0x100 ≤ off && off ≤ 0x200 then s.modXlat (fun x => { x with rings := put off (n64 (v / 8 * 8)) x.rings })
  else if off % 16 = 8 && 0x108 ≤ off && off ≤ 0x208 then
    s.modXlat (fun x => { x with rings := put off (n64 v &&& 0xFFFF0000FFFFFFFF#64) x.rings })
  else s

end Sys2Proof.Machine
end

