-- ==== Sys2Proof/Machine/Mmio.lean ====
section
/-!
DEFINITION. Accesses outside chunks: on-module blocks behind MMIO pages (R326, R389, R394, R402, R424), the management region of firmware (R124,
R438, R443, R449, R454, R465, R473, R474), the event page and the courier window (R42, R199, R471).
-/

namespace Sys2Proof.Machine

open Sys2Proof

/-! ## The management region -/

/-- Blocks of the management region, by bits 55:48 of the address. Block 0x00, where the model puts the Iluet's PLB, is its own choice; so is that an address
under 0xFF00 to 0xFF7F or 0xFFFF which no block lists reads as zero, and that a store to it does nothing (DESIGN CHOICE, log 17). -/
def State.mgmtRead (s : State) (va : Nat) : Nat :=
  let o := bits va 47 0
  match bits va 55 48 with
  | 0x00 => if o < 0x400 ∧ o % 8 = 0 then rightsRead s.iluetPlb o else 0
  | 0x01 =>
    if 2 ^ 19 ≤ o then 0 else
    let col := o / 2 ^ 10
    let off := o % 2 ^ 10
    if 0x200 ≤ off then s.colLatched col off else (s.colRead col off).toNat
  | 0x02 => if o < 0x1000 then s.xlatRead o else 0
  | 0x03 => if o < 2 ^ 22 then s.schedRead (o / 2 ^ 16) (o % 2 ^ 16) else 0
  | 0x04 => if o < 2 ^ 18 then s.partRead (o / 2 ^ 12) (o % 2 ^ 12) else 0
  | 0x05 => s.snapRead o
  | 0x06 =>
    let y := bits o 20 14
    let x := bits o 13 6
    if o < 2 ^ 24 ∧ y < 112 ∧ x < 112 ∧ o % 8 = 0 then s.coreLatched (coreOf (bits o 23 21) y x) (o % 64 / 8) else 0
  | 0x07 => (s.powRead o).toNat
  | 0x08 => (s.tmRead o).toNat
  | 0x09 => if o < 0x100 ∧ o % 8 = 0 then (look 0 s.flows (o / 8)).toNat else 0
  | 0x0A => if o < 0x2000 then s.hcRead (o / 2 ^ 12) (o % 2 ^ 12) else 0
  | 0x0B =>
    if o = 0x000 then s.tlUp.toNat
    else if o = 0x010 then s.tlReplay
    else if 0x100 ≤ o ∧ o < 0x200 ∧ o % 8 = 0 then rightsRead s.tlRights (o - 0x100)
    else 0
  | _ => 0

/-- A store of firmware to the management region. -/
def State.mgmtWrite (s : State) (who va v : Nat) : State :=
  let o := bits va 47 0
  match bits va 55 48 with
  | 0x00 => if o < 0x400 ∧ o % 8 = 0 then { s with iluetPlb := rightsWrite s.iluetPlb o v } else s
  | 0x01 => if o < 2 ^ 19 ∧ o % 2 ^ 10 < 0x200 then s.colWrite (o / 2 ^ 10) (o % 2 ^ 10) (n64 v) else s
  | 0x02 => if o < 0x1000 then s.xlatWrite who true o v else s
  | 0x03 => if o < 2 ^ 22 then s.schedWrite who (o / 2 ^ 16) (o % 2 ^ 16) v else s
  | 0x04 => if o < 2 ^ 18 then s.partWrite who true (o / 2 ^ 12) (o % 2 ^ 12) v else s
  | 0x05 => s.snapWrite o v
  | 0x07 => s.powWrite o (n64 v)
  | 0x08 => s.tmWrite o (n64 v)
  | 0x09 =>
    if o < 0x100 ∧ o % 8 = 0 then { s with flows := put (o / 8) (n64 v &&& 0x803FFFFFFFFF0FFF#64) s.flows }.breakFlows else s
  | 0x0A => if o < 0x2000 then s.hcWrite (o / 2 ^ 12) true (o % 2 ^ 12) v else s
  | 0x0B =>
    if o = 0x008 then s.trainLinks v
    else if o = 0x010 then { s with tlReplay := v % 2 ^ 32 }
    else if 0x100 ≤ o ∧ o < 0x200 ∧ o % 8 = 0 then { s with tlRights := rightsWrite s.tlRights (o - 0x100) v }
    else s
  | _ => s

/-- REGISTER_WRITE: party, address in the management region, value. -/
def execRegisterWrite (s : State) : Host.Outcome State Fault Refusal := happen (s.mgmtWrite (s.arg 0) (s.arg 1) (n64 (s.arg 2)).toNat)

/-! ## Blocks behind MMIO pages -/

/-- Whether a block takes an access of a size at an offset: registers take 8 bytes alone, aligned; handler memory takes a scalar access, aligned, and the
reserved range of a waystation block any (R326, R389). -/
def blockTakes (kind off n : Nat) : Bool :=
  if kind = 1 && 0x10000 ≤ off then (n = 1 || n = 2 || n = 4 || n = 8) && off % n = 0
  else if kind = 1 && 0x200 ≤ off then true
  else n = 8 && off % 8 = 0

def State.blockRead (s : State) (kind k off n : Nat) : Nat :=
  match kind with
  | 1 => s.wsBlockRead k off n
  | 2 => if off < 0x1000 then s.xlatRead off else 0
  | 3 => s.schedRead k (off % 2 ^ 16)
  | _ => if off < 0x1000 then s.partRead k off else 0

/-- A store to a block; nothing where it has to wait: handler memory between two runs, TINV for a priority chunk (R328, R213). -/
def State.blockWrite (s : State) (who dom kind k off n v : Nat) : Option State :=
  match kind with
  | 1 =>
    if 0x10000 ≤ off then (if (s.slice k).run.isSome then none else some (s.handlerWrite k dom (off - 0x10000) (leBytes n v)))
    else if off < 0x200 then some (s.tableWrite k dom off (n64 v))
    else some s
  | 2 => if off = 0x008 && s.tinvWaits v then none else some (if off < 0x1000 then s.xlatWrite who false off v else s)
  | 3 => some (s.schedWrite who k (off % 2 ^ 16) v)
  | _ => some (if off < 0x1000 then s.partWrite who false k off v else s)

/-! ## Loads and stores of devices -/

/-- A load of `n` bytes at a target that is no memory (R124). -/
def State.deviceLoad (s : State) (ag : Agent) (t : Target) (va n : Nat) : Try (State × Nat) :=
  let align : Try (State × Nat) := .error (.trap (trapAt cALIGN va))
  match t with
  | .event col off => if n ≠ 8 then align else (s.eventLoad ag col off va).map fun (s, v) => (s, v.toNat)
  | .courier core =>
    if n ≠ 8 then align
    else
      let idle := ((List.range 4).filter (fun k => (s.ctx (.ctx core k)).st = .idle)).length
      .ok (s, (if (s.core core).courier.isSome then 1 else 0) + idle * 2 ^ 8)
  | .mgmt a => if n ≠ 8 then align else .ok (s, s.mgmtRead a)
  | .block kind k off => if blockTakes kind off n then s.needTiers ag (.ok (s, s.blockRead kind k off n)) else align
  | _ => .ok (s, 0)

/-- A store of `n` bytes at a target that is no memory. -/
def State.deviceStore (s : State) (ag : Agent) (t : Target) (va n v : Nat) : Try State :=
  let align : Try State := .error (.trap (trapAt cALIGN va))
  match t with
  | .event col off => if n ≠ 8 then align else s.eventStore ag col off va (n64 v)
  | .courier _ => if n ≠ 8 then align else .error (.trap (trapAt cBOUNDS va))
  | .mgmt a =>
    if n ≠ 8 then align
    else if bits a 55 48 = 0x02 && bits a 47 0 = 0x008 && s.tinvWaits v then .error (.later (s.stallNow ag))
    else if bits a 55 48 = 0x04 && bits a 47 0 < 2 ^ 18 && bits a 11 0 = 0x60 && bit v 0 && (s.presetBusy (bits a 17 12)) then
      .error (.later ((s.mgmtWrite ag.code a v).stallNow ag))
    else
      match (if bits a 55 48 = 0x03 && bits a 47 0 < 2 ^ 22 then s.postHalts ag.code (bits a 47 16) (bits a 15 0) v else none) with
      | some s => .error (.later (s.awaitLine ag))
      | none => .ok (s.mgmtWrite ag.code a v)
  | .block kind k off =>
    if !blockTakes kind off n then align
    else s.needTiers ag <|
      match (if kind = 3 then s.postHalts ag.code k (off % 2 ^ 16) v else none), s.blockWrite ag.code (s.regs ag).dom.toNat kind k off n v with
      | some s, _ => .error (.later (s.awaitLine ag))
      | none, some s => .ok s
      | none, none => .error (.later (s.stallNow ag))
  | _ => .ok s

/-- A target that is no memory and no host device. -/
def Target.device : Target → Bool
  | .block .. | .event .. | .courier .. | .mgmt .. => true
  | _ => false

end Sys2Proof.Machine
end

