-- ==== Sys2Proof/Machine/Memory.lean ====
section
/-!
DEFINITION. Loads and stores of scalar registers, through base and offset, base and index, and pointers; the pointer instructions; cache hints and
CLEAN (R122 to R129, R135, R136); the loads and stores of a waystation handler (R325).
-/

namespace Sys2Proof.Machine

open Sys2Proof

/-! ## One access -/

/-- The answer of an event unit to a load of the context that has waited for it; a kept ticket for the address is done with (R200, R202). -/
def State.evAnswer (s : State) (ag : Agent) (va : Nat) : Option (State × Nat) :=
  let c := s.ctx ag
  match c.reply with
  | some (v :: _) =>
    if c.asked = some evAsk && bits va 63 48 = 0xFF81 then
      some (s.modR ag (fun r => if (r.keptTicket (bits va 20 0)).isSome then { r with ticket := none } else r), v)
    else none
  | _ => none

/-- Order 1 of R39 for a load or a store: the alignment of its address, and the size that the event window, the courier window and the management region
take alone (R124). -/
def misaligned (ag : Agent) (va n : Nat) : Bool := va % n ≠ 0 || (n ≠ 8 && wordOnly ag va)

/-- Loads the `n` bytes at an address, their alignment checked first (R122, R124, R127). -/
def State.load (s : State) (ag : Agent) (va n : Nat) : Try (State × List Byte) :=
  match ag with
  | .ws k => (liftT (s.windowKey k va n cBOUNDS)).map (fun key => (s, s.bytes key n))
  | _ =>
    match s.evAnswer ag va with
    | some (s, v) => (s.endChunk ag).map (fun s => (s, leBytes n v))
    | none =>
      if misaligned ag va n then .error (.trap (trapAt cALIGN va)) else
      (liftT (s.check ag va n rdR)).bind fun t =>
      if t.single then
        (s.endChunk ag).bind fun s =>
          if t.device then (s.deviceLoad ag t va n).map (fun (s, v) => (s, leBytes n v))
          else (s.loadAt ag 0 t va n).map (fun (s, bs, _) => (s, bs))
      else (s.loadRun ag 0 t va n).map (fun (s, bs, _) => (s, bs))

/-- Stores bytes at an address. -/
def State.store (s : State) (ag : Agent) (va : Nat) (bs : List Byte) : Try State :=
  let n := bs.length
  match ag with
  | .ws k => (liftT (s.windowKey k va n cBOUNDS)).map (fun key => s.writeBytes key bs)
  | _ =>
    if misaligned ag va n then .error (.trap (trapAt cALIGN va)) else
    (liftT (s.check ag va n wrR)).bind fun t =>
    if t.single then
      (s.endChunk ag).bind fun s => if t.device then s.deviceStore ag t va n (leNat bs) else s.storeAt ag t va bs
    else s.storeRun ag t va bs

/-- A scalar load: class 4. -/
def loadOp (i : Instr) (d : Nat) (reads : List Nat) (ea : Regs → Nat) (size : Nat) (signed : Bool) :
    State → Host.Outcome State Fault Refusal :=
  runWord i { cls := some 4, reads := reads } (fun s ag =>
    (s.load ag (ea (s.regs ag)) (2 ^ size)).map fun (s, bs) => (s.modR ag (·.setS d (loaded signed bs)), .fall))

/-- A scalar store: class 5. -/
def storeOp (i : Instr) (d : Nat) (reads : List Nat) (ea : Regs → Nat) (size : Nat) : State → Host.Outcome State Fault Refusal :=
  runWord i { cls := some 5, reads := d :: reads } (fun s ag =>
    let r := s.regs ag
    (s.store ag (ea r) (regBytes (r.S d) (2 ^ size))).map fun s => (s, .fall))

def execLd (d a s : Nat) (i : Int) := loadOp (.ld d a s i) d [a] (fun r => eaOff r a i) s false
def execLdSigned (d a s : Nat) (i : Int) := loadOp (.ldSigned d a s i) d [a] (fun r => eaOff r a i) s true
def execLdx (d a s b : Nat) := loadOp (.ldx d a s b) d [a, b] (fun r => eaIdx r a b s) s false
def execLdxSigned (d a s b : Nat) := loadOp (.ldxSigned d a s b) d [a, b] (fun r => eaIdx r a b s) s true
def execSt (d a s : Nat) (i : Int) := storeOp (.st d a s i) d [a] (fun r => eaOff r a i) s
def execStx (d a s b : Nat) := storeOp (.stx d a s b) d [a, b] (fun r => eaIdx r a b s) s
def execCLd (d a : Nat) := loadOp (.cLd d a) d [a] (fun r => eaOff r a 0) 3 false
def execCSt (d a : Nat) := storeOp (.cSt d a) d [a] (fun r => eaOff r a 0) 3

/-! ## Pointers (R128, R129) -/

/-- The checks of a pointer access before the access itself: its address, and the registers after its walk. -/
def pointerEa (r : Regs) (p n : Nat) (off : Int) (walk : Bool) : Except Trap (Nat × Regs) :=
  let x := eaPtr r p off
  if x.1 % n ≠ 0 then .error (trapAt cALIGN x.1)
  else if x.2 < 0 ∨ 0x20000 < x.2 + n then .error (trapAt cBOUNDS x.1)
  else if walk then
    match r.walk p with
    | none => .error { cause := cBOUNDS, info := n64 p }
    | some r' => .ok (x.1, r')
  else .ok (x.1, r)

/-- The pointer and its walk register after an access. -/
def Regs.takeWalk (r r' : Regs) (p : Nat) : Regs := (r.setP p (r'.P p)).setPW p (r'.PW p)

def execLdp (d a s p : Nat) (i : Int) : State → Host.Outcome State Fault Refusal :=
  runWord (.ldp d a s p i) { cls := some 4 } (fun st ag =>
    (liftT (pointerEa (st.regs ag) a (2 ^ s) i (p = 1))).bind fun (ea, r') =>
    (st.load ag ea (2 ^ s)).map fun (st, bs) => (st.modR ag (fun r => (r.setS d (loaded false bs)).takeWalk r' a), .fall))

def execStp (d a s p : Nat) (i : Int) : State → Host.Outcome State Fault Refusal :=
  runWord (.stp d a s p i) { cls := some 5, reads := [d] } (fun st ag =>
    let r := st.regs ag
    (liftT (pointerEa r a (2 ^ s) i (p = 1))).bind fun (ea, r') =>
    (st.store ag ea (regBytes (r.S d) (2 ^ s))).map fun st => (st.modR ag (fun r => r.takeWalk r' a), .fall))

def execPset (d a : Nat) := runRegs (.pset d a) 0 [a] (fun r => .ok (r.setP d (r.S a), .fall))
def execPget (d a : Nat) := runRegs (.pget d a) 0 [] (fun r => .ok (r.setS d (r.P a), .fall))

/-- PADD: one step of the walk with S(a) for its stride; a zero changes nothing. -/
def execPadd (d a : Nat) := runRegs (.padd d a) 0 [a] (fun r =>
  let st := (r.S a).toNat
  let bad : Trap := { cause := cBOUNDS, info := n64 d }
  if 65535 < st then .error bad
  else
    match pwalk (r.P d).toNat (r.PW d).toNat st with
    | none => .error bad
    | some (p, w) => .ok (if st = 0 then r else (r.setP d (n64 p)).setPW d (n64 w), .fall))

/-- PCFG: the checks of a walk configuration are made when it is written. -/
def execPcfg (d a : Nat) := runRegs (.pcfg d a) 0 [a] (fun r =>
  let w := (r.S a).toNat
  let span := if bits w 16 0 = 0 then 0x20000 else bits w 16 0
  if bits w 62 60 ≠ 0 ∨ 112 < bits w 36 30 ∨ 112 < bits w 51 45 ∨ 0x20000 < bits w 29 17 * 16 + span then
    .error { cause := cBOUNDS, info := n64 d }
  else .ok (r.setPW d (r.S a), .fall))

/-! ## Cache hints and CLEAN (R135, R136) -/

/-- A hint acts on a line of cached memory that the context may read; anything else, and any failed check, makes it nothing. The page of the line may be
held for a move: the hint waits like any access (R398). -/
def hintOp (i : Instr) (a : Nat) (off : Int) (f : State → Agent → Nat → LineTag → State) : State → Host.Outcome State Fault Refusal :=
  runWord i { cls := some 4, reads := [a] } (fun s ag =>
    let ea := eaOff (s.regs ag) a off
    match s.check ag ea 1 rdR (fit := Target.isMem) with
    | .ok (.mem _ tag _) => if s.pageHeld ea then .error (.later (s.stallNow ag)) else s.needTiers ag (.ok (f s ag ea tag, .fall))
    | _ => .ok (s, .fall))

def execPrefL1 (a : Nat) (i : Int) := hintOp (.prefL1 a i) a i (fun s ag ea tag => s.touch ag tag ea 1)
def execPrefL2 (a : Nat) (i : Int) := hintOp (.prefL2 a i) a i (fun s ag _ tag => s.demand tag.home tag (s.requester ag))
def execDead (a : Nat) (i : Int) := hintOp (.dead a i) a i (fun s _ ea tag =>
  s.modSlice tag.home (fun l => l.modSectors (fun e => if e.tag.va / 4 = ea / 1024 && !e.kept then { e with dead := true } else e)))

/-- Writes back the dirty sectors of an L2 line, which stays, clean; the errors in them are met (R136, R401). -/
def State.cleanLine (s : State) (k line : Nat) : State :=
  let mine (e : Sector) : Bool := e.tag.va / 4 = line && e.dirty && !e.kept
  (s.writeOut k ((s.slice k).sectors.filter mine)).modSlice k (fun l => l.modSectors (fun e => if mine e then { e with dirty := false } else e))

/-- What CLEAN may name (R124). -/
def Target.cleans : Target → Bool
  | .event .. | .courier .. | .mgmt .. => false
  | _ => true

/-- CLEAN (R136). It makes no access of a flow, and its check closes none (R475; DEDUCED, log 19). -/
def execClean (a : Nat) (i : Int) : State → Host.Outcome State Fault Refusal :=
  runWord (.clean a i) { cls := some 4, single := true, reads := [a] } (fun s ag =>
    let ea := eaOff (s.regs ag) a i
    (liftT (s.check ag ea 1 rdR (fit := Target.cleans) (peer := false))).bind fun t =>
      match t with
      | .mem k _ _ =>
        if s.pageHeld ea then .error (.later (s.stallNow ag))
        else if (s.slice k).sectors.any (fun e => e.tag.va / 4 = ea / 1024 && e.dirty && !e.kept && s.darkLine e.tag) then
          .error (.trap (trapAt cDARK ea))
        else s.needTiers ag (.ok (s.cleanLine k (ea / 1024), .fall))
      | _ => .ok (s, .fall))

end Sys2Proof.Machine
end

