-- ==== Sys2Proof/Machine/Atomics.lean ====
section
/-!
DEFINITION. Atomics and bank-side operations (R130 to R134): the instructions; what happens at the executing unit stands with the arrivals.
-/

namespace Sys2Proof.Machine

open Sys2Proof

/-! ## Atomics (R130, R131) -/

/-- The line of a target is reached at its home slice, for a requester (R51). -/
def State.reachLine (s : State) (t : Target) (rq : Requester) : State :=
  match t with
  | .mem k tag _ => s.demand k tag rq
  | _ => s

/-- An atomic at a home slice or at a bank of the own core: a singleton that enters the order at once. One that writes invalidates every L1 copy. -/
def State.amoHere (s : State) (ag : Agent) (t : Target) (va key n op y e : Nat) : Try (State × Nat) :=
  (s.consume t.tag? va key n).map fun s =>
    let old := s.value key n
    let new := amoNew op (8 * n) old y e
    if amoWrites op old new then
      ((s.devWrite (some ag) t va (leBytes n new) (some (s.requester ag))).dropL1 (t.granules n) none, old)
    else (s.reachLine t (s.requester ag), old)

/-- Performs an atomic at its target: the old value. An atomic on a DRAM word counts towards a migration where its line is in the slice too (R396). -/
def State.amoAt (s : State) (ag : Agent) (t : Target) (va n op y e : Nat) : Try (State × Nat) :=
  match t with
  | .mem k tag key =>
    let here : Bool := ((s.slice k).find va).isSome
    if s.reserved ag (granules key n) || s.pageHeld va then .error (.later (s.stallNow ag))
    else if !(s.ctx ag).missed && s.closed ag then .error (.later (s.fifoHold ag))
    else if !here && !(s.ctx ag).missed then .error (.later (s.awaitLine ag))
    else (if here then s.countUse tag (s.requester ag) else s).amoHere ag t va key n op y e
  | .scratch core off =>
    let key := scratchKey core off
    if s.tapHeld ag key n then .error (.later (s.stallNow ag))
    else if ag.core? = some core then
      match (granules64 key n).findSome? (fun g => (s.specHolder core ag g).map (fun h => (g, h))) with
      | some (g, h) => .error (s.waitGranule ag h g)
      | none => if s.reserved ag (granules key n) then .error (.later (s.stallNow ag)) else s.amoHere ag t va key n op y e
    else
      (s.request ag 0 (fun s =>
        (s.send { chan := chanOf ag.place core, ev := ⟨.remoteAtomic, [s.nextMsg]⟩, src := ag.code, words := [core, off, n, op, y, e] },
         s.nextMsg))).bind fun (s, r) =>
      match r with
      | 0 :: old :: _ => .ok (s, old)
      | cause :: d :: _ => .error (.trap (trapAt cause (va + d)))
      | _ => .error (.later (s.stallHeld ag))
  | .peer flow ord pva =>
    if s.asksFirst ag 0 && bit (look 0 s.flows flow).toNat 62 then .error (.trap { cause := cFLOW, info := n64 (3 * 2 ^ 8 + flow) })
    else if s.asksFirst ag 0 && s.closed ag then .error (.later (s.fifoHold ag))
    else if s.asksFirst ag 0 && !s.credit flow 1 then .error (.later (s.stallNow ag))
    else
      (s.request ag 0 (fun s =>
        let seq := look 0 s.flowSeq flow
        (s.sendPeer ag flow [2, if ord then 1 else 0, pva, n, op, y, e], peerAsk flow seq))).bind fun (s, r) =>
      match r with
      | 0 :: bs => .ok (s, leNat (bs.map (BitVec.ofNat 8)) % 2 ^ (8 * n))
      | reason :: _ => .error (.trap { cause := cFLOW, info := n64 (reason * 2 ^ 8 + flow) })
      | [] => .error (.later (s.stallHeld ag))
  | _ => .error (.trap (plbTrap cPAGE va 5 7 va))

/-- AMO and CAS; `w` 0 is .d, 1 is .w. -/
def amo (i : Instr) (op d a b w : Nat) : State → Host.Outcome State Fault Refusal :=
  runWord i { cls := some 6, single := true, reads := if op = 9 then [d, a, b] else [a, b] } (fun s ag =>
    let r := s.regs ag
    let ea := (r.S a).toNat
    let n := if w = 1 then 4 else 8
    if ea % n ≠ 0 then .error (.trap (trapAt cALIGN ea)) else
    (liftT (s.check ag ea n amoR (fit := Target.words))).bind fun t =>
    (s.amoAt ag t ea n op ((r.S b).toNat % 2 ^ (8 * n)) ((r.S d).toNat % 2 ^ (8 * n))).map fun (s, old) =>
      (s.modR ag (·.setS d (amoOld op (8 * n) old)), .fall))

def execAmoAdd (d a b w : Nat) := amo (.amoAdd d a b w) 0 d a b w
def execAmoAnd (d a b w : Nat) := amo (.amoAnd d a b w) 1 d a b w
def execAmoOr (d a b w : Nat) := amo (.amoOr d a b w) 2 d a b w
def execAmoXor (d a b w : Nat) := amo (.amoXor d a b w) 3 d a b w
def execAmoMin (d a b w : Nat) := amo (.amoMin d a b w) 4 d a b w
def execAmoMax (d a b w : Nat) := amo (.amoMax d a b w) 5 d a b w
def execAmoMinn (d a b w : Nat) := amo (.amoMinn d a b w) 6 d a b w
def execAmoMaxn (d a b w : Nat) := amo (.amoMaxn d a b w) 7 d a b w
def execAmoSwap (d a b w : Nat) := amo (.amoSwap d a b w) 8 d a b w
def execCas (d a b w : Nat) := amo (.cas d a b w) 9 d a b w

/-! ## Bank-side operations (R132, R133) -/

/-- MRED, MCAS and MSCA: checked here, accepted at the home slice, performed at the bank; a posted one is done when it is accepted. -/
def bankOp (i : Instr) (op ty d a b : Nat) : State → Host.Outcome State Fault Refusal :=
  runWord i { cls := some 7, single := true, reads := if op = 3 then [d, a, b] else [a, b] } (fun s ag =>
    let r := s.regs ag
    let ea := (r.S a).toNat
    let n := if ty = 1 then 8 else 4
    let posted : Bool := d = 0 && op ≠ 3
    if ea % n ≠ 0 then .error (.trap (trapAt cALIGN ea)) else
    let go (s : State) : Try (State × Next) :=
      (s.request ag 0 (fun s =>
        (s.send { chan := 2 ^ 38 + s.nextMsg, ev := ⟨.bankOpAccept, [s.nextMsg]⟩, src := ag.code,
                  words := [ea, op, ty, (r.S b).toNat % 2 ^ (8 * n), (r.S d).toNat % 2 ^ (8 * n), (r.OX 5).toNat % 2 ^ 32,
                            if posted then 1 else 0, r.dom.toNat, bits (insWord i) 10 1] },
         s.nextMsg))).bind fun (s, x) =>
      match x with
      | 1 :: cause :: info :: rest =>
        .error (.trap { cause := cause, info := n64 info, addr := cause ≠ cFPX, plb := match rest with | k :: l :: va :: _ => some (k, l, n64 va) | _ => none })
      | 0 :: old :: fl :: _ =>
        .ok (s.modR ag (fun r => (r.setS d (if ty = 0 then w64 (toSigned 32 old) else n64 old)).addFlags (BitVec.ofNat 6 fl)), .fall)
      | _ => .ok (s, .fall)
    let c := s.ctx ag
    if c.asked.isSome || c.reply.isSome then go s
    else
      (liftT (s.check ag ea n amoR (fit := Target.isDram) (peer := false))).bind fun _ => s.needTiers ag (go s))

def execMredAdd (d a b t : Nat) := bankOp (.mredAdd d a b t) 0 t d a b
def execMredMin (d a b t : Nat) := bankOp (.mredMin d a b t) 1 t d a b
def execMredMax (d a b t : Nat) := bankOp (.mredMax d a b t) 2 t d a b
def execMcas (d a b t : Nat) := bankOp (.mcas d a b t) 3 t d a b
def execMsca (d a b : Nat) := bankOp (.msca d a b) 4 2 d a b

end Sys2Proof.Machine
end

