-- ==== Sys2Proof/Machine/Int.lean ====
section
/-!
DEFINITION. Scalar integer, immediate and operand-extension instructions (R100 to R108) and their 16-bit forms (R85, R121).
-/

namespace Sys2Proof.Machine

open Sys2Proof

/-! ## The operations -/

/-- One bit as a register value. -/
def flag (b : Bool) : W64 := if b then 1 else 0
def minS (x y : W64) : W64 := if x.toInt ≤ y.toInt then x else y
def maxS (x y : W64) : W64 := if x.toInt ≤ y.toInt then y else x
def minU (x y : W64) : W64 := if x.toNat ≤ y.toNat then x else y
def maxU (x y : W64) : W64 := if x.toNat ≤ y.toNat then y else x
/-- Shift amount: the low six bits. -/
def shAmt (y : W64) : Nat := y.toNat % 64
/-- Number of zero bits above the highest set bit; 64 for 0. -/
def clz64 (x : W64) : W64 := n64 (if x = 0 then 64 else 63 - Nat.log2 x.toNat)
/-- Number of zero bits below the lowest set bit; 64 for 0. -/
def ctz64 (x : W64) : W64 := n64 (((List.range 64).find? (fun i => x.getLsbD i)).getD 64)
/-- Number of set bits. -/
def popc64 (x : W64) : W64 := n64 (((List.range 64).filter (fun i => x.getLsbD i)).length)
/-- Sign and zero extension of the low bits (R7). -/
def sext (w : Nat) (x : W64) : W64 := w64 (toSigned w x.toNat)
def zext (w : Nat) (x : W64) : W64 := n64 (x.toNat % 2 ^ w)
def mulh (x y : W64) : W64 := w64 (x.toInt * y.toInt / 2 ^ 64)
def mulhn (x y : W64) : W64 := n64 (x.toNat * y.toNat / 2 ^ 64)
/-- Division (R105): the quotient truncates towards zero; a divisor of 0 and −2^63 / −1 have fixed results. -/
def divS (x y : W64) : W64 := if y = 0 then w64 (-1) else w64 (Int.tdiv x.toInt y.toInt)
def remS (x y : W64) : W64 := if y = 0 then x else w64 (Int.tmod x.toInt y.toInt)
def divU (x y : W64) : W64 := if y = 0 then w64 (-1) else n64 (x.toNat / y.toNat)
def remU (x y : W64) : W64 := if y = 0 then x else n64 (x.toNat % y.toNat)

/-- A register-register operation. -/
def aluRR (i : Instr) (cls d a b : Nat) (f : W64 → W64 → W64) (s : State) : Host.Outcome State Fault Refusal :=
  runRegs i cls [a, b] (fun r => .ok (r.setS d (f (r.S a) (r.S b)), .fall)) s
/-- A one-source operation. -/
def aluR (i : Instr) (d a : Nat) (f : W64 → W64) (s : State) : Host.Outcome State Fault Refusal :=
  runRegs i 0 [a] (fun r => .ok (r.setS d (f (r.S a)), .fall)) s
/-- A checked 32-bit operation (R104): OVF leaves the destination as it was; its info holds the destination and the direction. -/
def checked (i : Instr) (cls d a b : Nat) (f : Int → Int → Int) (s : State) : Host.Outcome State Fault Refusal :=
  runRegs i cls [a, b] (fun r =>
    let v := f (toSigned 32 (r.S a).toNat) (toSigned 32 (r.S b).toNat)
    if 2 ^ 31 - 1 < v ∨ v < -(2 ^ 31) then
      .error { cause := cOVF, info := n64 ((if v < 0 then 2 ^ 8 else 0) + d) }
    else .ok (r.setS d (w64 v), .fall)) s

/-! ## INT-R and INT-M (R103 to R105) -/

def execAdd (d a b : Nat) := aluRR (.add d a b) 0 d a b (· + ·)
def execSub (d a b : Nat) := aluRR (.sub d a b) 0 d a b (· - ·)
def execAnd (d a b : Nat) := aluRR (.and d a b) 0 d a b (· &&& ·)
def execOr (d a b : Nat) := aluRR (.or d a b) 0 d a b (· ||| ·)
def execXor (d a b : Nat) := aluRR (.xor d a b) 0 d a b (· ^^^ ·)
def execAndn (d a b : Nat) := aluRR (.andn d a b) 0 d a b (fun x y => x &&& ~~~y)
def execSll (d a b : Nat) := aluRR (.sll d a b) 0 d a b (fun x y => x <<< shAmt y)
def execSrl (d a b : Nat) := aluRR (.srl d a b) 0 d a b (fun x y => x >>> shAmt y)
def execSra (d a b : Nat) := aluRR (.sra d a b) 0 d a b (fun x y => x.sshiftRight (shAmt y))
def execSlt (d a b : Nat) := aluRR (.slt d a b) 0 d a b (fun x y => flag (x.toInt < y.toInt))
def execSltn (d a b : Nat) := aluRR (.sltn d a b) 0 d a b (fun x y => flag (x.toNat < y.toNat))
def execMin (d a b : Nat) := aluRR (.min d a b) 0 d a b minS
def execMax (d a b : Nat) := aluRR (.max d a b) 0 d a b maxS
def execMinn (d a b : Nat) := aluRR (.minn d a b) 0 d a b minU
def execMaxn (d a b : Nat) := aluRR (.maxn d a b) 0 d a b maxU
def execAddv (d a b : Nat) := checked (.addv d a b) 0 d a b (· + ·)
def execSubv (d a b : Nat) := checked (.subv d a b) 0 d a b (· - ·)
def execClz (d a : Nat) := aluR (.clz d a) d a clz64
def execCtz (d a : Nat) := aluR (.ctz d a) d a ctz64
def execPopc (d a : Nat) := aluR (.popc d a) d a popc64
def execSextB (d a : Nat) := aluR (.sextB d a) d a (sext 8)
def execSextH (d a : Nat) := aluR (.sextH d a) d a (sext 16)
def execSextW (d a : Nat) := aluR (.sextW d a) d a (sext 32)
def execZextB (d a : Nat) := aluR (.zextB d a) d a (zext 8)
def execZextH (d a : Nat) := aluR (.zextH d a) d a (zext 16)
def execZextW (d a : Nat) := aluR (.zextW d a) d a (zext 32)
def execMul (d a b : Nat) := aluRR (.mul d a b) 2 d a b (· * ·)
def execMulh (d a b : Nat) := aluRR (.mulh d a b) 2 d a b mulh
def execMulhn (d a b : Nat) := aluRR (.mulhn d a b) 2 d a b mulhn
def execMulv (d a b : Nat) := checked (.mulv d a b) 2 d a b (· * ·)
def execDiv (d a b : Nat) := aluRR (.div d a b) 3 d a b divS
def execDivn (d a b : Nat) := aluRR (.divn d a b) 3 d a b divU
def execRem (d a b : Nat) := aluRR (.rem d a b) 3 d a b remS
def execRemn (d a b : Nat) := aluRR (.remn d a b) 3 d a b remU

/-! ## Immediates and constants (R106 to R108) -/

def execAddi (d a : Nat) (i : Int) := aluR (.addi d a i) d a (· + w64 i)
def execAndi (d a : Nat) (i : Int) := aluR (.andi d a i) d a (· &&& w64 i)
def execOri (d a : Nat) (i : Int) := aluR (.ori d a i) d a (· ||| w64 i)
def execXori (d a : Nat) (i : Int) := aluR (.xori d a i) d a (· ^^^ w64 i)
def execSlli (d a h : Nat) := aluR (.slli d a h) d a (· <<< h)
def execSrli (d a h : Nat) := aluR (.srli d a h) d a (· >>> h)
def execSrai (d a h : Nat) := aluR (.srai d a h) d a (·.sshiftRight h)
def execSlti (d a : Nat) (i : Int) := aluR (.slti d a i) d a (fun x => flag (x.toInt < i))
def execSltni (d a : Nat) (i : Int) := aluR (.sltni d a i) d a (fun x => flag (x.toNat < (w64 i).toNat))
def execLi (d : Nat) (i : Int) := runRegs (.li d i) 0 [] (fun r => .ok (r.setS d (w64 i), .fall))
def execLis (d i : Nat) := runRegs (.lis d i) 0 [d] (fun r => .ok (r.setS d ((r.S d <<< 16) ||| n64 i), .fall))
def execOxw (d a : Nat) := runRegs (.oxw d a) 0 [a] (fun r => .ok (r.setOX d (r.S a), .fall))
def execOxr (d a : Nat) := runRegs (.oxr d a) 0 [] (fun r => .ok (r.setS d (r.OX a), .fall))
def execOxi (d : Nat) (i : Int) := runRegs (.oxi d i) 0 [] (fun r => .ok (r.setOX d (w64 i), .fall))

/-! ## 16-bit forms (R85, R121) -/

def execCMv (d a : Nat) := aluRR (.cMv d a) 0 d a 0 (· + ·)
def execCAdd (d a : Nat) := aluRR (.cAdd d a) 0 d d a (· + ·)
def execCSub (d a : Nat) := aluRR (.cSub d a) 0 d d a (· - ·)
def execCAddi (d : Nat) (i : Int) := aluR (.cAddi d i) d d (· + w64 i)
def execCLi (d : Nat) (i : Int) := runRegs (.cLi d i) 0 [] (fun r => .ok (r.setS d (w64 i), .fall))
def execCSlli (d i : Nat) := aluR (.cSlli d i) d d (· <<< i)
def execCSrai (d i : Nat) := aluR (.cSrai d i) d d (·.sshiftRight i)
def execCAnd (d a : Nat) := aluRR (.cAnd d a) 0 d d a (· &&& ·)
def execCOr (d a : Nat) := aluRR (.cOr d a) 0 d d a (· ||| ·)
def execCXor (d a : Nat) := aluRR (.cXor d a) 0 d d a (· ^^^ ·)

end Sys2Proof.Machine
end

