-- ==== Sys2Proof/Machine/Control.lean ====
section
/-!
DEFINITION. Branches, jumps and hardware loops (R109 to R116), NOP, and their 16-bit forms.
-/

namespace Sys2Proof.Machine

open Sys2Proof

/-- A conditional branch (R109): a taken one is a control transfer. -/
def branch (i : Instr) (a b : Nat) (disp : Int) (c : W64 → W64 → Bool) (s : State) : Host.Outcome State Fault Refusal :=
  runRegs i 1 [a, b] (fun r => .ok (r, if c (r.S a) (r.S b) then .goto (r.pc + w64 (2 * disp)) else .fall)) s
/-- JAL (R110). -/
def jump (i : Instr) (d : Nat) (disp : Int) (s : State) : Host.Outcome State Fault Refusal :=
  runRegs i 1 [] (fun r => .ok (r.setS d (r.pc + n64 i.size), .goto (r.pc + w64 (2 * disp)))) s
/-- JALR (R79, R110): an odd target raises ALIGN and changes nothing. -/
def jumpReg (i : Instr) (d a : Nat) (off : Int) (s : State) : Host.Outcome State Fault Refusal :=
  runRegs i 1 [a] (fun r =>
    let t := r.S a + w64 off
    if t.getLsbD 0 then .error { cause := cALIGN, info := t, addr := true }
    else .ok (r.setS d (r.pc + n64 i.size), .goto t)) s
/-- LSETUP and LSETUPI (R112): the loop set is overwritten; a count of 0 skips the body; LoopCheck applies in both cases. -/
def loopSetup (i : Instr) (n : Nat) (reads : List Nat) (count : Regs → W64) (disp : Nat) (s : State) :
    Host.Outcome State Fault Refusal :=
  runRegs i 1 reads (fun r =>
    let l : LoopSet := { start := r.pc + 4, stop := r.pc + n64 (2 * disp), count := count r }
    let r' := if n = 0 then { r with loop0 := l } else { r with loop1 := l }
    .ok (r', if l.count = 0 then .thru l.stop else .fall)) s

def execBeq (a b : Nat) (i : Int) := branch (.beq a b i) a b i (fun x y => x = y)
def execBne (a b : Nat) (i : Int) := branch (.bne a b i) a b i (fun x y => x ≠ y)
def execBlt (a b : Nat) (i : Int) := branch (.blt a b i) a b i (fun x y => x.toInt < y.toInt)
def execBge (a b : Nat) (i : Int) := branch (.bge a b i) a b i (fun x y => y.toInt ≤ x.toInt)
def execBltn (a b : Nat) (i : Int) := branch (.bltn a b i) a b i (fun x y => x.toNat < y.toNat)
def execBgen (a b : Nat) (i : Int) := branch (.bgen a b i) a b i (fun x y => y.toNat ≤ x.toNat)
def execJal (d : Nat) (i : Int) := jump (.jal d i) d i
def execJalr (d a : Nat) (i : Int) := jumpReg (.jalr d a i) d a i
def execLsetup (n a i : Nat) := loopSetup (.lsetup n a i) n [a] (fun r => r.S a) i
def execLsetupi (n c i : Nat) := loopSetup (.lsetupi n c i) n [] (fun _ => n64 c) i
def execNop := runRegs .nop 0 [] (fun r => .ok (r, .fall))

def execCBeqz (d : Nat) (i : Int) := branch (.cBeqz d i) d 0 i (fun x y => x = y)
def execCBnez (d : Nat) (i : Int) := branch (.cBnez d i) d 0 i (fun x y => x ≠ y)
def execCJ (i : Int) := jump (.cJ i) 0 i
def execCJr (a : Nat) := jumpReg (.cJr a) 0 a 0
def execCNop := runRegs .cNop 0 [] (fun r => .ok (r, .fall))

end Sys2Proof.Machine
end

