-- ==== Sys2Proof/Machine/Enqueue.lean ====
section
/-!
DEFINITION. The write with enqueue at its sender (R181, R183).
-/

namespace Sys2Proof.Machine

open Sys2Proof

/-- The source bytes of a PUTQ, at its place in the chunk order: memory and the like of any length; registers that take 8 bytes alone as a load of 8 bytes reads
them; an on-module block in the sizes that it takes (R326, R389). -/
def State.putqSource (s : State) (ag : Agent) (t : Target) (src len : Nat) : Try (State × List Byte) :=
  match t with
  | .block .. => (s.deviceLoad ag t src len).map (fun x => (x.1, leBytes len x.2))
  | _ => if t.device then s.load ag src len else (s.loadRun ag 0 t src len).map (fun x => (x.1, x.2.1))

/-- PUTQ (R181, R183): the checks in their order, the source read, the payload sent. Of a length that its source does not take it raises ALIGN (R124, R389).
A courier's length other than 24 raises BOUNDS with S(d) as info, after the checks of the source and of the destination's region and before those of its address
(DESIGN CHOICE, log 73). A destination in a TAP's batch waits (R347). -/
def execPutq (d a b : Nat) (s : State) : Host.Outcome State Fault Refusal :=
  runWord (.putq d a b) { cls := some 14, single := true, reads := [d, a, b] } (fun s ag =>
    let r := s.regs ag
    let w := (r.S d).toNat
    let len := bits w 8 0
    let dst := (r.S a).toNat
    let src := (r.S b).toNat
    match ag with
    | .ctx core n =>
      if len = 0 ∨ 256 < len then .error (.trap { cause := cBOUNDS, info := r.S d }) else
      if len ≠ 8 && wordOnly ag src then .error (.trap (trapAt cALIGN src)) else
      (liftT (s.check ag src len rdR)).bind fun t =>
      let reg := bits dst 63 48
      if reg ≠ 0xFF80 ∧ reg ≠ 0xFF82 then .error (.trap (trapAt cPAGE dst)) else
      if reg = 0xFF82 ∧ len ≠ 24 then .error (.trap { cause := cBOUNDS, info := r.S d }) else
      let dn := if reg = 0xFF82 then 8 else len
      (liftT (addrCheck ag dst dn false)).bind fun win =>
      (liftT (rightsCheck (s.plbOf ag) r.dom.toNat dst (seenVa dst win) dn wrR)).bind fun _ =>
      let to_ := win.getD 0
      if reg = 0xFF80 && s.tapHeld ag (scratchKey to_ (bits dst 16 0)) len then .error (.later (s.stallNow ag)) else
      (s.reserve ag).bind fun _ =>
      ((s.addStall ag).putqSource ag t src len).bind fun (s, bs) =>
      (s.reserve ag).map fun s =>
        let ack := if bit w 20 then 1 else 0
        let tag := bits w 47 32
        if reg = 0xFF82 then
          (s.send { chan := chanOf core to_, ev := ⟨.courierArrival, [s.nextMsg]⟩, src := 4 * core + n,
                    words := [to_, leNat (bs.take 8), leNat ((bs.drop 8).take 8), leNat (bs.drop 16), ack, tag, dst, r.dom.toNat] }, .fall)
        else
          (s.send { chan := chanOf core to_, ev := ⟨.putqArrival, [s.nextMsg]⟩, src := 4 * core + n,
                    words := [to_, bits dst 16 0, bits w 17 16, len, tag, ack, dst], bytes := bs }, .fall)
    | _ => .ok (s, .fall)) s

end Sys2Proof.Machine
end

