-- ==== Sys2Proof/Machine/Tap.lean ====
section
/-!
DEFINITION. Tap points, probes and steering (R341 to R354).
-/

namespace Sys2Proof.Machine

open Sys2Proof

/-- The address of row r (R342). -/
def rowVa (sa stride r : Nat) : Nat := (sa + r * stride) % 2 ^ 64

/-- The rows of a batch, checked in order with read and write rights: the scratchpad key of each (R343). -/
def State.tapRows (s : State) (ag : Agent) (sa stride len : Nat) : List Nat → Except Trap (List Nat)
  | [] => .ok []
  | r :: rs =>
    let va := rowVa sa stride r
    if bits va 63 48 ≠ 0xFF80 then .error (trapAt cPAGE va)
    else
      (s.check ag va len { r := true, w := true }).bind fun t =>
        match t with
        | .scratch core off => (s.tapRows ag sa stride len rs).map (fun l => scratchKey core off :: l)
        | _ => .error (trapAt cPAGE va)

/-- Whether two rows share a byte. -/
def overlaps (len : Nat) : List Nat → Bool
  | [] => false
  | k :: l => l.any (fun j => j < k + len && k < j + len) || overlaps len l

/-- TAP.PRE and TAP.POST (R342, R343). -/
def tap (i : Instr) (a b pos : Nat) : State → Host.Outcome State Fault Refusal :=
  runWord i { cls := some 15, single := true, reads := [a, b] } (fun s ag =>
    match ag with
    | .ctx core _ =>
      let r := s.regs ag
      let c := (r.S b).toNat
      let x := (r.OX 1).toNat
      let dd := bits x 14 0
      let es := if bit c 16 then 2 else 4
      let B := bits c 13 8 + 1
      let sa := (r.S a).toNat
      let stride := (r.OX 0).toNat
      if bits c 63 48 ≠ 0 ∨ bits c 31 17 ≠ 0 ∨ bits c 15 14 ≠ 0 ∨ bits c 7 6 ≠ 0 ∨ bits x 63 15 ≠ 0 ∨ dd = 0 ∨ 16384 < dd then
        .error (.trap (tile 4 b))
      else if sa % es ≠ 0 ∨ stride % es ≠ 0 then .error (.trap { cause := cALIGN, info := r.S a, addr := true })
      else
        (liftT (s.tapRows ag sa stride (dd * es) (List.range B))).bind fun keys =>
        if overlaps (dd * es) keys then .error (.trap (tile 8 a))
        else if 2 ≤ (s.port core).length then .error (.later (s.holdIssue ag))
        else
          (s.reserve ag).map fun s =>
            let m : MCmd := { ag := ag.code, op := 4, n := pos, fa := a, fb := b, wd := r.OX 0, wa := r.S a, wb := r.S b,
                              x1 := r.OX 1, x2 := r.OX 2, pc := r.pc, no := s.seq }
            let s := s.setPort core (s.port core ++ [m])
            let s := s.modCtx ag (fun k => { k with taps := k.taps + 1, tapBytes := k.tapBytes ++ keys.map (fun j => (m.no, j, dd * es)) })
            (s.start .matrixTake [quadOf core], .fall)
    | _ => .ok (s, .fall))

def execTapPre (a b : Nat) := tap (.tapPre a b) a b 0
def execTapPost (a b : Nat) := tap (.tapPost a b) a b 1

/-- TAPRD (R349): it goes through the port and waits there until the TAPs of its context have completed. -/
def execTaprd (d a : Nat) (s : State) : Host.Outcome State Fault Refusal :=
  runWord (.taprd d a) { cls := some 0, single := true, reads := [a] } (fun s ag =>
    match ag with
    | .ctx core n =>
      (s.viaPort core n 5 (fun s =>
        let v := (s.regs ag).S a
        if (s.ctx ag).taps ≠ 0 then .error (.later (s.stallNow ag))
        else if 2 ≤ bits v.toNat 1 0 then .error (.trap { cause := cBOUNDS, info := v })
        else
          let x := if bits v.toNat 1 0 = 0 then (s.regs ag).tapCount else look 0 (s.ctx ag).tapStat 0
          .ok (s.modR ag (·.setS d x)))).map (fun s => (s, .fall))
    | _ => .ok (s, .fall)) s

/-! ## The probe table (R351, R352, R354) -/

/-- A probe with its weights and steering vector. -/
structure Probe where
  p : Nat
  act : Nat
  dir : Bool
  bias : Nat
  thr : Nat
  alpha : Nat
  w : List FVal
  v : List FVal
deriving DecidableEq, Repr

/-- Why the unit cannot go on reading the table: a fault, with what an error was met in; or bytes of another module that it has still to hear. -/
inductive TableStop where
  | fault (cause : Nat) (met : List (Nat × Nat × Target))
  | peer (flow : Nat) (ord : Bool) (va n : Nat)
deriving DecidableEq, Repr

/-- The bytes of a part of a read: of another module, those that have come, granule by granule (R217). -/
def State.supBytes (s : State) (got : List RStore) (n : Nat) : Target → Except TableStop (List Byte)
  | .peer flow ord pva =>
    (flitParts pva n).foldlM (m := Except TableStop) (init := ([] : List Byte)) fun bs q =>
      match got.find? (fun e => e.core = flow && e.off = q.1) with
      | some ⟨_, _, .raw x⟩ => if x.length = q.2 then .ok (bs ++ x) else .error (.fault cFLOW [])
      | _ => .error (.peer flow ord q.1 q.2)
  | t => .ok (s.devRead t n)

/-- Bytes that the unit reads with the supervisor domain's rights, as an engine reads (R354); `got` is what has come from other modules. -/
def State.supRead (s : State) (core : Nat) (got : List RStore) (va n al : Nat) : Except TableStop Nat :=
  if va % al ≠ 0 then .error (.fault cALIGN []) else
  match s.engTargets core (s.supDomOf core) va n rdR with
  | .error t => .error (.fault t.cause [])
  | .ok ts =>
    (ts.foldlM (m := Except TableStop) (init := ([] : List Byte)) fun bs (a, len, t) =>
      if t.key?.any (fun key => (granules64 key len).any s.bad) then .error (.fault cUE [(a, len, t)])
      else (s.supBytes got len t).map (bs ++ ·)).map leNat

/-- The FP32 elements of an array. -/
def floats (n x : Nat) : List FVal := (digits 32 n x).map fp32.decode

/-- One probe: none when it is skipped or off, with whether the skip counts. -/
def State.readProbe (s : State) (core : Nat) (got : List RStore) (pbase pos d p : Nat) : Except TableStop (Option Probe × Bool) :=
  (s.supRead core got ((pbase + 64 * p) % 2 ^ 64) 64 64).bind fun x =>
  let dim := bits x 270 256
  if bits x 287 271 ≠ 0 ∨ bits x 255 8 ≠ 0 ∨ bits x 3 0 ≠ 0 ∨ dim = 0 ∨ 16384 < dim then .error (.fault 0 [])
  else if bits x 4 4 ≠ pos ∨ dim ≠ d then .ok (none, true)
  else if bits x 7 6 = 0 then .ok (none, false)
  else
    (s.supRead core got (bits x 511 448) (4 * dim) 16).bind fun w =>
    (if bits x 7 6 = 2 then s.supRead core got (bits x 447 384) (4 * dim) 16 else .ok 0).map fun v =>
      (some { p := p, act := bits x 7 6, dir := bit x 5, bias := bits x 383 352, thr := bits x 351 320, alpha := bits x 319 288,
              w := floats dim w, v := if bits x 7 6 = 2 then floats dim v else [] }, false)

/-- The probes of a tap point that are to be evaluated, and how many are skipped. -/
def State.readTable (s : State) (core : Nat) (got : List RStore) (id pos d : Nat) : Except TableStop (List Probe × Nat) :=
  (s.supRead core got (((s.core core).tapTbase.toNat + 16 * id) % 2 ^ 64) 16 16).bind fun e =>
  let n := bits e 6 0
  if bit e 7 = false ∨ n = 0 then .ok ([], 0)
  else if 64 < n then .error (.fault 0 [])
  else
    ((List.range n).mapM (fun p => s.readProbe core got (bits e 127 64) pos d p)).map fun l =>
      (l.filterMap (·.1), (l.filter (·.2)).length)

/-! ## Scores and steering (R345, R346) -/

/-- The exact sum of products, rounded to FP32. -/
def dotGroup (ps : List (FVal × FVal)) : FVal := fp32.decode (fp32.round (sumProducts false (ps.map (fun p => p.1.mul p.2))).1).1

/-- Score. -/
def score (p : Probe) (x : List FVal) : Nat :=
  let pairs := p.w.zip x
  let s := (runs 16 ((pairs.length + 15) / 16) pairs).foldl (fun s g => (fp32.addOp (fp32.decode s) (dotGroup g)).1) 0
  (fp32.addOp (fp32.decode s) (fp32.decode p.bias)).1

/-- Crosses: a NaN score fails closed. -/
def crosses (p : Probe) (s : Nat) : Bool :=
  let v := fp32.decode s
  let t := fp32.decode p.thr
  v.isNan || (if p.dir then v.lt t else t.lt v)

/-- Steering of a row by a probe. -/
def steer (f : FFmt) (p : Probe) (x : List FVal) : List FVal :=
  (x.zip p.v).map fun e =>
    f.decode (f.round (sumProducts false [(e.1, 0), (fp32.decode p.alpha).mul e.2]).1).1

/-- What the unit finds on a row: its crossings with their scores, whether it is trapping, and its elements after steering if it is steered. -/
def evalRow (f : FFmt) (ps : List Probe) (x : List FVal) : List (Probe × Nat) × Bool × Option (List FVal) :=
  let hits := (ps.map (fun p => (p, score p x))).filter (fun e => crosses e.1 e.2)
  let trapping := hits.any (fun e => e.1.act = 3)
  let st := hits.filter (fun e => e.1.act = 2)
  (hits, trapping, if trapping || st.isEmpty then none else some (st.foldl (fun x e => steer f e.1 x) x))

/-- A probe record (R353). -/
def probeRecord (core n id pos row batch pc : Nat) (e : Probe × Nat) : List Byte :=
  leBytes 8 pc ++ leBytes 8 batch ++
  leBytes 8 (e.1.act * 2 ^ 56 + pos * 2 ^ 55 + id * 2 ^ 48 + e.1.p * 2 ^ 40 + row * 2 ^ 32 + e.2) ++
  leBytes 8 (2 ^ 63 + n * 2 ^ 20 + coreId core)

/-! ## TAP_ACCEPT (R344, R347, R348) -/

/-- A TAP of a context ends: its bytes are free again, the latest status and the counts follow, and what waits for it goes on. A context that
has ended meanwhile takes none of it. -/
def State.tapEnd (s : State) (core n no status steered tag payload : Nat) : State :=
  let ag := Agent.ctx core n
  let alive := (s.ctx ag).tapBytes.any (fun t => t.1 = no)
  let s := s.enqueueReserved core n (header 5 status tag 0 n (coreId core)) (n64 payload)
  if !alive then s
  else
    let s := s.modCtx ag (fun c => { c with taps := c.taps - 1, tapBytes := c.tapBytes.filter (fun t => t.1 ≠ no), tapStat := put 0 (n64 status) [] })
    let s := if status ≠ 0 then s else s.devR ag (fun r =>
      { r with tapCount := n64 ((bits r.tapCount.toNat 63 32 + steered) % 2 ^ 32 * 2 ^ 32 + (bits r.tapCount.toNat 31 0 + 1) % 2 ^ 32) })
    let c := s.ctx ag
    if c.st = .stalled && c.asked.isNone && c.saving.isNone then s.wake ag else s

/-- PROBE is raised in the issuing context: the detail of scause and the row bitmap are kept in order (R348). -/
def State.raiseProbe (s : State) (ag : Agent) (alive : Bool) (detail bitmap : Nat) : State :=
  if !alive then s
  else (s.modCtx ag (fun c => if c.live then { c with probes := c.probes ++ [(detail, n64 bitmap)] } else c)).raise ag cPROBE (n64 bitmap)

/-- Whether a row of a batch cannot be read yet: it holds speculative bytes of another context, or the issuing core has sent something to its core that has
not been applied (R125, R216, R347). -/
def State.rowWaits (s : State) (ag : Agent) (core k key len : Nat) : Bool :=
  (granules64 key len).any (fun g => (s.specHolder k ag g).isSome) || (k ≠ core && s.flight.any (fun e => e.2.chan = chanOf core k))

/-- One probe read has still to come from another module: the load leaves on its flow, unless that is broken; what it brings is noted in the message. -/
def State.tapAsk (s : State) (id flow : Nat) (ord : Bool) (va n : Nat) : State :=
  if bit (look 0 s.flows flow).toNat 62 then
    { s with flight := s.flight.map (fun e => if e.1 = id then (id, { e.2 with stores := e.2.stores ++ [⟨flow, va, .raw []⟩] }) else e) }
  else
    let seq := look 0 s.flowSeq flow
    let s := ({ s with flowSeq := put flow ((seq + 1) % 2 ^ 32) s.flowSeq }.out (0x1000 + flow) [seq, 0, if ord then 1 else 0, va, n])
    { s with flight := s.flight.map (fun e => if e.1 = id then (id, { e.2 with words := e.2.words.take 8 ++ [flow, seq, va] }) else e) }

/-- Skipped probes step the entry's skip counter, once for a TAP (R344); nothing where the write has to wait for a priority chunk. -/
def State.countSkips (s : State) (core id skipped : Nat) : Option State :=
  if skipped = 0 then some s else
  let dir := ((s.core core).tapTbase.toNat + 16 * id) % 2 ^ 64
  match s.devCheck (some (core, s.supDomOf core)) dir 16 rdR with
  | .ok t =>
    if s.devWaits t 16 then none
    else some (s.devWrite none (t.up dir 4) (dir + 4) (leBytes 4 ((leNat ((s.devRead t 8).drop 4) + skipped) % 2 ^ 32)))
  | .error _ => some s

/-- TAP_ACCEPT: message. The unit scores, steers and records the batch. It waits for its rows, for probes of other modules, and where a row to be steered, or a
write of its records or of the skip counter, meets a granule that a priority chunk of another context reserves (R213, R347). -/
def execTapAccept (s : State) : Host.Outcome State Fault Refusal :=
  let mid := s.arg 0
  match s.msg? mid with
  | none => happen s
  | some m =>
    match Agent.ofCode m.src with
    | .ctx core n =>
      let ag := Agent.ctx core n
      let w (k : Nat) := m.words.getD k 0
      let (no, pos, sa, c, stride, x1, batch, pc) := (w 0, w 1, w 2, w 3, w 4, w 5, w 6, w 7)
      let d := bits x1 14 0
      let half := bit c 16
      let f := if half then bf16 else fp32
      let len := d * (if half then 2 else 4)
      let B := bits c 13 8 + 1
      let id := bits c 5 0
      let tag := bits c 47 32
      let rows := (List.range B).filterMap fun r =>
        let va := rowVa sa stride r
        (resolve ag va).map (fun k => (k, bits va 16 0, va))
      if 8 < m.words.length || rows.any (fun (k, off, _) => s.rowWaits ag core k (scratchKey k off) len) then happen s else
      let s0 := s
      let s := s.drop mid
      let alive := (s.ctx ag).tapBytes.any (fun t => t.1 = no)
      let pay (steered : Nat) : Nat := steered * 2 ^ 16 + B * 2 ^ 8 + pos * 2 ^ 6 + id
      let rec_ (s : State) (sub cause addr : Nat) : State :=
        s.record { dom := s.supDomOf core, src := 8, sub := sub, cause := cause, ctx := n, loc := coreId core, addr := addr, pc := pc, w4 := id,
                   w5 := batch, core := some core }
      let banks (k off : Nat) : Bool := (List.range ((off % 2 ^ 14 + len - 1) / 2 ^ 14 + 1)).all fun i =>
        let b := s.bankAt k (off / 2 ^ 14 * 2 ^ 14 + i * 2 ^ 14)
        b = 0 || b = (if half then 3 else 1)
      let bad : Option (Nat × Nat) :=
        if rows.any (fun (k, off, _) => !banks k off) then some (cTILE, 0)
        else rows.findSome? fun (k, off, va) =>
          if s.darkCols.contains (colOf k) then some (cDARK, va)
          else ((granules64 (scratchKey k off) len).find? s.bad).map (fun g => (cUE, va + g * 64 - scratchKey k off))
      match bad with
      | some (cause, a) =>
        let s := rows.foldl (fun s (k, off, va) => s.findFlaws none va (scratchKey k off) len) s
        happen ((rec_ s 1 cause a).tapEnd core n no cause 0 tag (pay 0))
      | none =>
        match s.readTable core m.stores id pos d with
        | .error (.peer flow ord va k) => happen (if s0.credit flow 1 then s0.tapAsk mid flow ord va k else s0)
        | .error (.fault cause met) =>
          let s := met.foldl (fun s e => s.meet e.2.2 e.1 e.2.1) s
          let s := (rec_ s 2 cause 0).tapEnd core n no 0 0 tag (pay 0)
          happen (s.raiseProbe ag alive (2 ^ 15 + id * 2 ^ 8 + 63) (2 ^ B - 1))
        | .ok (ps, skipped) =>
          let evals := rows.map fun (k, off, va) =>
            let x := (digits f.width d (leNat (s.committed k off len))).map f.decode
            (k, off, va, evalRow f ps x)
          let num := (List.range evals.length).zip evals
          let steer (s : State) : State := evals.foldl (init := s) fun s (k, off, va, e) =>
            match e.2.2 with
            | none => s
            | some x => s.devWrite none (.scratch k off) va (leBytes len (undigits f.width (x.map (fun v => (f.round v).1))))
          let records (s : State) : Option State := num.foldlM (init := s) fun s (r, _, _, _, e) =>
            (e.1.filter (fun h => h.1.act ≠ 2)).foldlM (fun s h => s.telemetry core n (probeRecord core n id pos r batch pc h)) s
          let held : Bool := evals.any (fun (k, off, _, e) => e.2.2.isSome && s.reserved ag (granules (scratchKey k off) len))
          match (if held then none else (s.countSkips core id skipped).bind (fun s => records (steer s))) with
          | none => happen s0
          | some s =>
            let steered := (evals.filter (fun e => e.2.2.2.2.2.isSome)).length
            let bitmap := num.foldl (fun m (r, _, _, _, e) => if e.2.1 then m + 2 ^ r else m) 0
            let low := (evals.flatMap (fun e => (e.2.2.2.1.filter (fun h => h.1.act = 3)).map (fun h => h.1.p))).foldl min 63
            let s := s.tapEnd core n no 0 steered tag (pay steered)
            happen (if bitmap = 0 then s else s.raiseProbe ag alive (id * 2 ^ 8 + low) bitmap)
    | _ => happen (s.drop mid)

end Sys2Proof.Machine
end

