-- ==== Sys2Proof/Machine/Trail.lean ====
section
/-!
DEFINITION. Flits of the trail links as they are received: their layout, their check, and what each kind brings (R472, R473, R476).
-/

namespace Sys2Proof.Machine

open Sys2Proof

/-- The little-endian number of `n` bytes of a flit, from byte `lo` on. -/
def flitField (b : List Nat) (lo n : Nat) : Nat := leNat (((b.drop lo).take n).map (BitVec.ofNat 8))
/-- Whether the CRC of a flit is good: it is taken over bytes 0 to 247 and stands in bytes 248 to 255. Its polynomial is not given (log 59). -/
def flitGood (b : List Nat) : Bool := Config.crc64 ((b.take 248).map (BitVec.ofNat 8)) % 2 ^ 64 = flitField b 248 8
/-- The payload bytes of a flit: as many as its length says, up to 224. -/
def flitData (b : List Nat) : List Nat := ((b.drop 16).take (min 224 (flitField b 2 2))).map (· % 256)

/-- The access that a request or a data flit brings, in the words of `State.peerArrives`. A data flit is a store of its payload. That bit 5 of byte 1 is the ordered
class, and that the payload of a request holds what it asks (byte 16: 0 load, 2 atomic; byte 17 the operation; bytes 18 and 19 the length; bytes 24 to 31 and 32
to 39 the operands), is the model's choice (DESIGN CHOICE, log 59). -/
def flitAccess (b : List Nat) : List Nat :=
  let flow := flitField b 1 1 % 32
  let ord := flitField b 1 1 / 32 % 2
  let (seq, va) := (flitField b 4 4, flitField b 8 8)
  if flitField b 0 1 = 2 then
    let d := flitData b
    [flow, seq, 1, ord, va, d.length, leNat (d.map (BitVec.ofNat 8))]
  else [flow, seq, flitField b 16 1, ord, va, flitField b 18 2, flitField b 17 1, flitField b 24 8, flitField b 32 8]

/-- Whether the reorder buffer of a flow has an entry for a sequence number: it holds 256, from the next one on (R473). -/
def State.robRoom (s : State) (flow seq : Nat) : Bool := (seq + 2 ^ 32 - (look {} s.robs flow).next) % 2 ^ 32 < 256

/-- TRAIL_FLIT_RECEIVE: message with words link and the 256 bytes of the flit. A flit with a bad CRC is replayed, and the eighth replay in a row that fails takes
the link down; a good one is delivered once: requests and data as accesses, acknowledgements, timing messages; the rest is discarded (R472, R476). An access for
which its flow's reorder buffer has no entry has no credit yet: its sender keeps it, and it comes later (R473). -/
def execTrailFlitReceive (s : State) : Host.Outcome State Fault Refusal :=
  match s.msg? (s.arg 0) with
  | none => happen s
  | some m =>
    let s := s.drop (s.arg 0)
    match m.words with
    | l :: b =>
      if bit s.tlUp.toNat l = false then happen s
      else if !flitGood b then
        let n := look 0 s.tlFails l + 1
        if n ≤ 8 then happen { s with tlReplay := min (s.tlReplay + 1) (2 ^ 32 - 1), tlFails := put l n s.tlFails }
        else happen (s.linkDown l)
      else
        let s := { s with tlFails := del l s.tlFails }
        let flow := flitField b 1 1 % 32
        let access : State :=
          let a := flitAccess b
          if s.robRoom flow (flitField b 4 4) then s.peerArrives (if a.getD 2 0 = 0 then .peerLoadArrival else .peerWriteArrival) a
          else s.send { m with ev := ⟨.trailFlitReceive, [s.nextMsg]⟩ }
        match flitField b 0 1 with
        | 1 => happen access
        | 2 => happen access
        | 3 => happen (s.peerAck flow (flitField b 4 4) 0 (flitData b))
        | 4 => happen (s.peerAck flow (flitField b 4 4) 4 [])
        | 5 => happen (s.tmReceive (l % 16) (flitField b 17 1) (flitField b 16 1) (flitField b 18 2) (flitField b 24 10))
        | _ => happen s
    | _ => happen s

end Sys2Proof.Machine
end

