-- ==== Sys2Proof/Machine/VecMem.lean ====
section
/-!
DEFINITION. Vector loads and stores: whole, strided and converting (R139, R151 to R156).
-/

namespace Sys2Proof.Machine

open Sys2Proof

/-- Checks an access of a vector instruction: alignment, R39, and targets that fit on every page (R152). -/
def State.vecCheck (s : State) (ag : Agent) (va n al : Nat) (need : Rights) : Except Trap Target :=
  if va % al ≠ 0 then .error (trapAt cALIGN va) else s.check ag va n need (fit := Target.words)

def execVld (d a : Nat) (i : Int) : State → Host.Outcome State Fault Refusal :=
  runWord (.vld d a i) { cls := some 12, reads := [a] } (fun s ag =>
    let ea := eaOff (s.regs ag) a i
    (liftT (s.vecCheck ag ea 32 16 rdR)).bind fun t =>
    (s.loadRun ag 0 t ea 32).map fun (s, bs, _) => (s.modR ag (·.setV d (BitVec.ofNat 256 (leNat bs))), .fall))

def execVst (d a : Nat) (i : Int) : State → Host.Outcome State Fault Refusal :=
  runWord (.vst d a i) { cls := some 13, reads := [a] } (fun s ag =>
    let r := s.regs ag
    let ea := eaOff r a i
    (liftT (s.vecCheck ag ea 32 16 wrR)).bind fun t =>
    (s.storeRun ag t ea (leBytes 32 (r.V d).toNat)).map fun s => (s, .fall))

/-! ## Strided accesses (R153) -/

/-- The element width in bits that ox4 gives, and the addresses of the elements. -/
def strideWidth (r : Regs) : Nat := 8 * 2 ^ bits (r.OX 4).toNat 33 32
def strideEas (r : Regs) (ea : Nat) : List Nat :=
  let st := toSigned 32 (bits (r.OX 4).toNat 31 0)
  (List.range (256 / strideWidth r)).map (fun (j : Nat) => ((ea : Int) + (j : Int) * st).emod (2 ^ 64) |>.toNat)

/-- Every element is checked before any moves: the alignment of all of them, and then, element by element, the rest of R39 (DESIGN CHOICE, log 68). -/
def State.strideTargets (s : State) (ag : Agent) (eas : List Nat) (n : Nat) (need : Rights) : Except Trap (List (Nat × Target)) :=
  match eas.find? (fun a => a % n ≠ 0) with
  | some a => .error (trapAt cALIGN a)
  | none => eas.mapM (fun a => (s.vecCheck ag a n n need).map (fun t => (a, t)))

def execVlds (d a : Nat) (i : Int) : State → Host.Outcome State Fault Refusal :=
  runWord (.vlds d a i) { cls := some 12, reads := [a] } (fun s ag =>
    let r := s.regs ag
    if bits (r.OX 4).toNat 33 32 = 3 then .error (.trap (illegal (.vlds d a i))) else
    let n := strideWidth r / 8
    (liftT (s.strideTargets ag (strideEas r (eaOff r a i)) n rdR)).bind fun ts =>
    (ts.foldlM (init := (s, ([] : List Nat), 0)) fun (x : State × List Nat × Nat) (e : Nat × Target) =>
      (x.1.loadAt ag x.2.2 e.2 e.1 n).map fun (s, bs, k) => (s, x.2.1 ++ [leNat bs], k)).map fun x =>
        (x.1.modR ag (·.setV d (vecOf (8 * n) x.2.1)), .fall))

def execVsts (d a : Nat) (i : Int) : State → Host.Outcome State Fault Refusal :=
  runWord (.vsts d a i) { cls := some 13, reads := [a] } (fun s ag =>
    let r := s.regs ag
    if bits (r.OX 4).toNat 33 32 = 3 then .error (.trap (illegal (.vsts d a i))) else
    let n := strideWidth r / 8
    (liftT (s.strideTargets ag (strideEas r (eaOff r a i)) n wrR)).bind fun ts =>
    (s.storeAll ag ((ts.zip (elems (8 * n) (r.V d))).map (fun e => (e.1.2, e.1.1, leBytes n e.2)))).map fun s => (s, .fall))

/-! ## Converting accesses (R154 to R156) -/

/-- A scratchpad. -/
def Target.isScratch : Target → Bool
  | .scratch .. => true
  | _ => false

/-- The format of the bank that a converting load reads: as it stood when the load issued, which is when the read of another core's scratchpad left. That
the access of R155 is made by the format of that moment, and not of the one at which the bank serves the read, is the model's choice (R48; DESIGN CHOICE, log 69). -/
def State.readFmt (s : State) (ag : Agent) (core off : Nat) (reg : EFmt) : EFmt :=
  match (s.ctx ag).bankFmt with
  | some code => (bankFmt code).getD reg
  | none => s.bankOf core off reg
/-- A load that has issued keeps the format. -/
def State.keepFmt (s : State) (ag : Agent) (core off : Nat) : State :=
  if (s.ctx ag).bankFmt.isSome then s
  else s.modCtx ag (fun c => { c with bankFmt := some (look 0 (s.core core).bfmt (off / 2 ^ 14)) })

/-- The core, offset and bank format of a converting access of register format `reg`, with `n` elements, once it has been checked: the mesh window
alone, alignment by the bank format, whole blocks, one bank. No bank holds a malformed address or one off the grid, so that no alignment is asked of it
(R39, R154; DEDUCED, log 66). -/
def State.convCheck (s : State) (ag : Agent) (va : Nat) (reg : EFmt) (n : Nat) (block : Bool) (need : Rights) : Except Trap (Nat × Nat × EFmt) :=
  let at_ (c : Bool) (k : Nat) : Except Trap Target := s.check ag va k need (conv := c) (fit := Target.isScratch)
  match if bits va 63 48 = 0xFF80 && bits va 27 17 = 0 then resolve ag va else none with
  | none => (at_ false 1).bind (fun _ => .error (plbTrap cPAGE va 5 7 va))
  | some core =>
    let off := bits va 16 0
    let f := s.readFmt ag core off reg
    if va % f.align ≠ 0 || (if block then n % f.group ≠ 0 else f.group ≠ 1) then .error (trapAt cALIGN va)
    else (at_ true (f.bytes n)).map (fun _ => (core, off, f))

def execVldc (d a f : Nat) (i : Int) : State → Host.Outcome State Fault Refusal :=
  runWord (.vldc d a f i) { cls := some 12, reads := [a] } (fun s ag =>
    let ea := eaOff (s.regs ag) a (16 * i)
    let reg := regFmt f
    let n := reg.regCount
    (liftT (s.convCheck ag ea reg n true rdR)).bind fun (core, off, bf) =>
    ((s.keepFmt ag core off).loadAt ag 0 (.scratch core off) ea (bf.bytes n)).bind fun (s, bs, _) =>
    let (x, fl) := convert bf reg n (leNat bs)
    (liftT ((s.regs ag).withFlags fl (·.setV d (BitVec.ofNat 256 x)))).map fun r => (s.modR ag (fun _ => r), .fall))

def execVstc (d a f : Nat) (i : Int) : State → Host.Outcome State Fault Refusal :=
  runWord (.vstc d a f i) { cls := some 13, reads := [a] } (fun s ag =>
    let r := s.regs ag
    let ea := eaOff r a (16 * i)
    (liftT (s.convCheck ag ea (regFmt f) (regFmt f).regCount true wrR)).bind fun (core, off, _) =>
    let (bs, fl) := s.elemBytes core off f (r.V d)
    (liftT (r.withFlags fl id)).bind fun r' =>
    if ag.core? = some core then (s.storeAt ag (.scratch core off) ea bs).map fun s => (s.modR ag (fun _ => r'), .fall)
    else if s.tapHeld ag (scratchKey core off) bs.length then .error (.later (s.stallNow ag))
    else
      .ok ((s.keepScratch ag core off).modCtx ag fun c =>
        { c with r := r', chunk := { c.chunk.leaves (scratchKey core off) (absolute 0x80 core off) bs.length with
                                       remote := c.chunk.remote ++ [⟨core, off, .elems f (r.V d)⟩] } }, .fall))

def execVldb (d a f : Nat) (i : Int) : State → Host.Outcome State Fault Refusal :=
  runWord (.vldb d a f i) { cls := some 12, reads := [a] } (fun s ag =>
    let ea := eaOff (s.regs ag) a (16 * i)
    let reg := regFmt f
    (liftT (s.convCheck ag ea reg 1 false rdR)).bind fun (core, off, bf) =>
    ((s.keepFmt ag core off).loadAt ag 0 (.scratch core off) ea (bf.bytes 1)).bind fun (s, bs, _) =>
    let (x, fl) := convert bf reg 1 (leNat bs)
    (liftT ((s.regs ag).withFlags fl (·.setV d (vecOf reg.width (List.replicate reg.regCount x))))).map fun r =>
      (s.modR ag (fun _ => r), .fall))

end Sys2Proof.Machine
end

