-- ==== Sys2Proof/Machine/Dispatch.lean ====
section
/-!
DEFINITION. One arm for each instruction and happening of the opcode table, in the table's order.
-/

namespace Sys2Proof.Machine

open Sys2Proof

def exec (i : Instr) (s : State) : Host.Outcome State Fault Refusal :=
  match i with
  | .add d a b => Sys2Proof.Machine.execAdd d a b s
  | .sub d a b => Sys2Proof.Machine.execSub d a b s
  | .and d a b => Sys2Proof.Machine.execAnd d a b s
  | .or d a b => Sys2Proof.Machine.execOr d a b s
  | .xor d a b => Sys2Proof.Machine.execXor d a b s
  | .andn d a b => Sys2Proof.Machine.execAndn d a b s
  | .sll d a b => Sys2Proof.Machine.execSll d a b s
  | .srl d a b => Sys2Proof.Machine.execSrl d a b s
  | .sra d a b => Sys2Proof.Machine.execSra d a b s
  | .slt d a b => Sys2Proof.Machine.execSlt d a b s
  | .sltn d a b => Sys2Proof.Machine.execSltn d a b s
  | .min d a b => Sys2Proof.Machine.execMin d a b s
  | .max d a b => Sys2Proof.Machine.execMax d a b s
  | .minn d a b => Sys2Proof.Machine.execMinn d a b s
  | .maxn d a b => Sys2Proof.Machine.execMaxn d a b s
  | .addv d a b => Sys2Proof.Machine.execAddv d a b s
  | .subv d a b => Sys2Proof.Machine.execSubv d a b s
  | .clz d a => Sys2Proof.Machine.execClz d a s
  | .ctz d a => Sys2Proof.Machine.execCtz d a s
  | .popc d a => Sys2Proof.Machine.execPopc d a s
  | .sextB d a => Sys2Proof.Machine.execSextB d a s
  | .sextH d a => Sys2Proof.Machine.execSextH d a s
  | .sextW d a => Sys2Proof.Machine.execSextW d a s
  | .zextB d a => Sys2Proof.Machine.execZextB d a s
  | .zextH d a => Sys2Proof.Machine.execZextH d a s
  | .zextW d a => Sys2Proof.Machine.execZextW d a s
  | .mul d a b => Sys2Proof.Machine.execMul d a b s
  | .mulh d a b => Sys2Proof.Machine.execMulh d a b s
  | .mulhn d a b => Sys2Proof.Machine.execMulhn d a b s
  | .mulv d a b => Sys2Proof.Machine.execMulv d a b s
  | .div d a b => Sys2Proof.Machine.execDiv d a b s
  | .divn d a b => Sys2Proof.Machine.execDivn d a b s
  | .rem d a b => Sys2Proof.Machine.execRem d a b s
  | .remn d a b => Sys2Proof.Machine.execRemn d a b s
  | .addi d a imm => Sys2Proof.Machine.execAddi d a imm s
  | .andi d a imm => Sys2Proof.Machine.execAndi d a imm s
  | .ori d a imm => Sys2Proof.Machine.execOri d a imm s
  | .xori d a imm => Sys2Proof.Machine.execXori d a imm s
  | .slli d a h => Sys2Proof.Machine.execSlli d a h s
  | .srli d a h => Sys2Proof.Machine.execSrli d a h s
  | .srai d a h => Sys2Proof.Machine.execSrai d a h s
  | .slti d a imm => Sys2Proof.Machine.execSlti d a imm s
  | .sltni d a imm => Sys2Proof.Machine.execSltni d a imm s
  | .li d imm => Sys2Proof.Machine.execLi d imm s
  | .lis d imm => Sys2Proof.Machine.execLis d imm s
  | .oxw d a => Sys2Proof.Machine.execOxw d a s
  | .oxr d a => Sys2Proof.Machine.execOxr d a s
  | .oxi d imm => Sys2Proof.Machine.execOxi d imm s
  | .beq a b imm => Sys2Proof.Machine.execBeq a b imm s
  | .bne a b imm => Sys2Proof.Machine.execBne a b imm s
  | .blt a b imm => Sys2Proof.Machine.execBlt a b imm s
  | .bge a b imm => Sys2Proof.Machine.execBge a b imm s
  | .bltn a b imm => Sys2Proof.Machine.execBltn a b imm s
  | .bgen a b imm => Sys2Proof.Machine.execBgen a b imm s
  | .jal d imm => Sys2Proof.Machine.execJal d imm s
  | .jalr d a imm => Sys2Proof.Machine.execJalr d a imm s
  | .lsetup n a imm => Sys2Proof.Machine.execLsetup n a imm s
  | .lsetupi n c imm => Sys2Proof.Machine.execLsetupi n c imm s
  | .mfs d r => Sys2Proof.Machine.execMfs d r s
  | .mts a r => Sys2Proof.Machine.execMts a r s
  | .mset a r => Sys2Proof.Machine.execMset a r s
  | .mclr a r => Sys2Proof.Machine.execMclr a r s
  | .start a b c => Sys2Proof.Machine.execStart a b c s
  | .retire => Sys2Proof.Machine.execRetire s
  | .yield => Sys2Proof.Machine.execYield s
  | .join a => Sys2Proof.Machine.execJoin a s
  | .safe imm => Sys2Proof.Machine.execSafe imm s
  | .mpost a b c => Sys2Proof.Machine.execMpost a b c s
  | .trap imm => Sys2Proof.Machine.execTrap imm s
  | .brk imm => Sys2Proof.Machine.execBrk imm s
  | .eret => Sys2Proof.Machine.execEret s
  | .uret => Sys2Proof.Machine.execUret s
  | .wfi => Sys2Proof.Machine.execWfi s
  | .ifence => Sys2Proof.Machine.execIfence s
  | .chunk => Sys2Proof.Machine.execChunk s
  | .fenceS => Sys2Proof.Machine.execFenceS s
  | .fenceF => Sys2Proof.Machine.execFenceF s
  | .nop => Sys2Proof.Machine.execNop s
  | .plbw a b => Sys2Proof.Machine.execPlbw a b s
  | .plbinv a => Sys2Proof.Machine.execPlbinv a s
  | .ld d a z imm => Sys2Proof.Machine.execLd d a z imm s
  | .ldSigned d a z imm => Sys2Proof.Machine.execLdSigned d a z imm s
  | .ldx d a z b => Sys2Proof.Machine.execLdx d a z b s
  | .ldxSigned d a z b => Sys2Proof.Machine.execLdxSigned d a z b s
  | .st d a z imm => Sys2Proof.Machine.execSt d a z imm s
  | .stx d a z b => Sys2Proof.Machine.execStx d a z b s
  | .ldp d a z p imm => Sys2Proof.Machine.execLdp d a z p imm s
  | .stp d a z p imm => Sys2Proof.Machine.execStp d a z p imm s
  | .pset d a => Sys2Proof.Machine.execPset d a s
  | .pget d a => Sys2Proof.Machine.execPget d a s
  | .padd d a => Sys2Proof.Machine.execPadd d a s
  | .pcfg d a => Sys2Proof.Machine.execPcfg d a s
  | .amoAdd d a b w => Sys2Proof.Machine.execAmoAdd d a b w s
  | .amoAnd d a b w => Sys2Proof.Machine.execAmoAnd d a b w s
  | .amoOr d a b w => Sys2Proof.Machine.execAmoOr d a b w s
  | .amoXor d a b w => Sys2Proof.Machine.execAmoXor d a b w s
  | .amoMin d a b w => Sys2Proof.Machine.execAmoMin d a b w s
  | .amoMax d a b w => Sys2Proof.Machine.execAmoMax d a b w s
  | .amoMinn d a b w => Sys2Proof.Machine.execAmoMinn d a b w s
  | .amoMaxn d a b w => Sys2Proof.Machine.execAmoMaxn d a b w s
  | .amoSwap d a b w => Sys2Proof.Machine.execAmoSwap d a b w s
  | .cas d a b w => Sys2Proof.Machine.execCas d a b w s
  | .mredAdd d a b t => Sys2Proof.Machine.execMredAdd d a b t s
  | .mredMin d a b t => Sys2Proof.Machine.execMredMin d a b t s
  | .mredMax d a b t => Sys2Proof.Machine.execMredMax d a b t s
  | .mcas d a b t => Sys2Proof.Machine.execMcas d a b t s
  | .msca d a b => Sys2Proof.Machine.execMsca d a b s
  | .prefL1 a imm => Sys2Proof.Machine.execPrefL1 a imm s
  | .prefL2 a imm => Sys2Proof.Machine.execPrefL2 a imm s
  | .clean a imm => Sys2Proof.Machine.execClean a imm s
  | .dead a imm => Sys2Proof.Machine.execDead a imm s
  | .sendr d a b => Sys2Proof.Machine.execSendr d a b s
  | .sendrArm d => Sys2Proof.Machine.execSendrArm d s
  | .putq d a b => Sys2Proof.Machine.execPutq d a b s
  | .ibpop d => Sys2Proof.Machine.execIbpop d s
  | .iblen d => Sys2Proof.Machine.execIblen d s
  | .wsmsg d a b => Sys2Proof.Machine.execWsmsg d a b s
  | .cpy d a b => Sys2Proof.Machine.execCpy d a b s
  | .cpy2d d a b => Sys2Proof.Machine.execCpy2d d a b s
  | .gath d a b => Sys2Proof.Machine.execGath d a b s
  | .scat d a b => Sys2Proof.Machine.execScat d a b s
  | .engq d a => Sys2Proof.Machine.execEngq d a s
  | .engrst d a => Sys2Proof.Machine.execEngrst d a s
  | .fadd d a b => Sys2Proof.Machine.execFadd d a b s
  | .fsub d a b => Sys2Proof.Machine.execFsub d a b s
  | .fmul d a b => Sys2Proof.Machine.execFmul d a b s
  | .fdiv d a b => Sys2Proof.Machine.execFdiv d a b s
  | .fsqrt d a => Sys2Proof.Machine.execFsqrt d a s
  | .fmin d a b => Sys2Proof.Machine.execFmin d a b s
  | .fmax d a b => Sys2Proof.Machine.execFmax d a b s
  | .fabs d a => Sys2Proof.Machine.execFabs d a s
  | .fneg d a => Sys2Proof.Machine.execFneg d a s
  | .fsgnj d a b => Sys2Proof.Machine.execFsgnj d a b s
  | .feq d a b => Sys2Proof.Machine.execFeq d a b s
  | .flt d a b => Sys2Proof.Machine.execFlt d a b s
  | .fle d a b => Sys2Proof.Machine.execFle d a b s
  | .fclass d a => Sys2Proof.Machine.execFclass d a s
  | .fcvt d a t z => Sys2Proof.Machine.execFcvt d a t z s
  | .fma d a b c => Sys2Proof.Machine.execFma d a b c s
  | .fms d a b c => Sys2Proof.Machine.execFms d a b c s
  | .fnma d a b c => Sys2Proof.Machine.execFnma d a b c s
  | .vadd d a b w z => Sys2Proof.Machine.execVadd d a b w z s
  | .vsub d a b w z => Sys2Proof.Machine.execVsub d a b w z s
  | .vmul d a b w => Sys2Proof.Machine.execVmul d a b w s
  | .vmin d a b w u => Sys2Proof.Machine.execVmin d a b w u s
  | .vmax d a b w u => Sys2Proof.Machine.execVmax d a b w u s
  | .vand d a b w => Sys2Proof.Machine.execVand d a b w s
  | .vor d a b w => Sys2Proof.Machine.execVor d a b w s
  | .vxor d a b w => Sys2Proof.Machine.execVxor d a b w s
  | .vsll d a b w => Sys2Proof.Machine.execVsll d a b w s
  | .vsrl d a b w => Sys2Proof.Machine.execVsrl d a b w s
  | .vsra d a b w => Sys2Proof.Machine.execVsra d a b w s
  | .vcmpeq d a b w => Sys2Proof.Machine.execVcmpeq d a b w s
  | .vcmplt d a b w u => Sys2Proof.Machine.execVcmplt d a b w u s
  | .vsel d a b w => Sys2Proof.Machine.execVsel d a b w s
  | .vabs d a w => Sys2Proof.Machine.execVabs d a w s
  | .vfadd d a b f => Sys2Proof.Machine.execVfadd d a b f s
  | .vfsub d a b f => Sys2Proof.Machine.execVfsub d a b f s
  | .vfmul d a b f => Sys2Proof.Machine.execVfmul d a b f s
  | .vfdiv d a b f => Sys2Proof.Machine.execVfdiv d a b f s
  | .vfmin d a b f => Sys2Proof.Machine.execVfmin d a b f s
  | .vfmax d a b f => Sys2Proof.Machine.execVfmax d a b f s
  | .vfcmp d a b f p => Sys2Proof.Machine.execVfcmp d a b f p s
  | .vfcvt d a t z => Sys2Proof.Machine.execVfcvt d a t z s
  | .vfma d a b c f => Sys2Proof.Machine.execVfma d a b c f s
  | .vfms d a b c f => Sys2Proof.Machine.execVfms d a b c f s
  | .vdot d a b => Sys2Proof.Machine.execVdot d a b s
  | .vld d a imm => Sys2Proof.Machine.execVld d a imm s
  | .vst d a imm => Sys2Proof.Machine.execVst d a imm s
  | .vlds d a imm => Sys2Proof.Machine.execVlds d a imm s
  | .vsts d a imm => Sys2Proof.Machine.execVsts d a imm s
  | .vldc d a f imm => Sys2Proof.Machine.execVldc d a f imm s
  | .vstc d a f imm => Sys2Proof.Machine.execVstc d a f imm s
  | .vldb d a f imm => Sys2Proof.Machine.execVldb d a f imm s
  | .vperm d a b w => Sys2Proof.Machine.execVperm d a b w s
  | .vbcast d a w => Sys2Proof.Machine.execVbcast d a w s
  | .vext d a x w => Sys2Proof.Machine.execVext d a x w s
  | .vins d a x w => Sys2Proof.Machine.execVins d a x w s
  | .vrsum d a t => Sys2Proof.Machine.execVrsum d a t s
  | .vrmax d a t => Sys2Proof.Machine.execVrmax d a t s
  | .vrmin d a t => Sys2Proof.Machine.execVrmin d a t s
  | .tcfg a => Sys2Proof.Machine.execTcfg a s
  | .tcfgr d => Sys2Proof.Machine.execTcfgr d s
  | .oclaim d a => Sys2Proof.Machine.execOclaim d a s
  | .orel a => Sys2Proof.Machine.execOrel a s
  | .oload a b => Sys2Proof.Machine.execOload a b s
  | .ostore a b => Sys2Proof.Machine.execOstore a b s
  | .oclaimS d a => Sys2Proof.Machine.execOclaimS d a s
  | .mma a b n => Sys2Proof.Machine.execMma a b n s
  | .mmar d a b n => Sys2Proof.Machine.execMmar d a b n s
  | .accz n => Sys2Proof.Machine.execAccz n s
  | .accst a n => Sys2Proof.Machine.execAccst a n s
  | .accld a n => Sys2Proof.Machine.execAccld a n s
  | .rsv d a => Sys2Proof.Machine.execRsv d a s
  | .rsvt d a => Sys2Proof.Machine.execRsvt d a s
  | .rrel d => Sys2Proof.Machine.execRrel d s
  | .rwait d a => Sys2Proof.Machine.execRwait d a s
  | .rrd d a => Sys2Proof.Machine.execRrd d a s
  | .rwaitFit d a => Sys2Proof.Machine.execRwaitFit d a s
  | .eqopen d a => Sys2Proof.Machine.execEqopen d a s
  | .eqclose d a => Sys2Proof.Machine.execEqclose d a s
  | .equnite d a b => Sys2Proof.Machine.execEqunite d a b s
  | .eqfind d a => Sys2Proof.Machine.execEqfind d a s
  | .eqsize d a => Sys2Proof.Machine.execEqsize d a s
  | .eqcount d a => Sys2Proof.Machine.execEqcount d a s
  | .eqlabel d a b => Sys2Proof.Machine.execEqlabel d a b s
  | .eqsnap d a => Sys2Proof.Machine.execEqsnap d a s
  | .equndo d a => Sys2Proof.Machine.execEqundo d a s
  | .eqkeep d a => Sys2Proof.Machine.execEqkeep d a s
  | .eqreduceAddF32 d a b => Sys2Proof.Machine.execEqreduceAddF32 d a b s
  | .eqreduceMinF32 d a b => Sys2Proof.Machine.execEqreduceMinF32 d a b s
  | .eqreduceMaxF32 d a b => Sys2Proof.Machine.execEqreduceMaxF32 d a b s
  | .eqreduceAddI32 d a b => Sys2Proof.Machine.execEqreduceAddI32 d a b s
  | .eqreduceMinI32 d a b => Sys2Proof.Machine.execEqreduceMinI32 d a b s
  | .eqreduceMaxI32 d a b => Sys2Proof.Machine.execEqreduceMaxI32 d a b s
  | .tapPre a b => Sys2Proof.Machine.execTapPre a b s
  | .tapPost a b => Sys2Proof.Machine.execTapPost a b s
  | .taprd d a => Sys2Proof.Machine.execTaprd d a s
  | .wsrd d a => Sys2Proof.Machine.execWsrd d a s
  | .wspf a => Sys2Proof.Machine.execWspf a s
  | .wsupdAdd d a b => Sys2Proof.Machine.execWsupdAdd d a b s
  | .wsupdMin d a b => Sys2Proof.Machine.execWsupdMin d a b s
  | .wsupdMax d a b => Sys2Proof.Machine.execWsupdMax d a b s
  | .wsupdOr d a b => Sys2Proof.Machine.execWsupdOr d a b s
  | .wsfwd a b => Sys2Proof.Machine.execWsfwd a b s
  | .wsdone => Sys2Proof.Machine.execWsdone s
  | .wsdoneKeep => Sys2Proof.Machine.execWsdoneKeep s
  | .wsdoneBypass => Sys2Proof.Machine.execWsdoneBypass s
  | .cMv d a => Sys2Proof.Machine.execCMv d a s
  | .cAdd d a => Sys2Proof.Machine.execCAdd d a s
  | .cSub d a => Sys2Proof.Machine.execCSub d a s
  | .cAddi d imm => Sys2Proof.Machine.execCAddi d imm s
  | .cLi d imm => Sys2Proof.Machine.execCLi d imm s
  | .cSlli d imm => Sys2Proof.Machine.execCSlli d imm s
  | .cSrai d imm => Sys2Proof.Machine.execCSrai d imm s
  | .cAnd d a => Sys2Proof.Machine.execCAnd d a s
  | .cOr d a => Sys2Proof.Machine.execCOr d a s
  | .cXor d a => Sys2Proof.Machine.execCXor d a s
  | .cLd d a => Sys2Proof.Machine.execCLd d a s
  | .cSt d a => Sys2Proof.Machine.execCSt d a s
  | .cBeqz d imm => Sys2Proof.Machine.execCBeqz d imm s
  | .cBnez d imm => Sys2Proof.Machine.execCBnez d imm s
  | .cJ imm => Sys2Proof.Machine.execCJ imm s
  | .cJr a => Sys2Proof.Machine.execCJr a s
  | .cNop => Sys2Proof.Machine.execCNop s
  | .cBrk => Sys2Proof.Machine.execCBrk s
  | .courierArrival => Sys2Proof.Machine.execCourierArrival s
  | .courierSlotStart => Sys2Proof.Machine.execCourierSlotStart s
  | .caravanStart => Sys2Proof.Machine.execCaravanStart s
  | .helpersEnded => Sys2Proof.Machine.execHelpersEnded s
  | .safedlDeadline => Sys2Proof.Machine.execSafedlDeadline s
  | .contextSave => Sys2Proof.Machine.execContextSave s
  | .chunkCommit => Sys2Proof.Machine.execChunkCommit s
  | .priorityTokenGrant => Sys2Proof.Machine.execPriorityTokenGrant s
  | .remoteStoreGroup => Sys2Proof.Machine.execRemoteStoreGroup s
  | .remoteAtomic => Sys2Proof.Machine.execRemoteAtomic s
  | .remoteRead => Sys2Proof.Machine.execRemoteRead s
  | .scratchStoreAck => Sys2Proof.Machine.execScratchStoreAck s
  | .peerWriteArrival => Sys2Proof.Machine.execPeerWriteArrival s
  | .peerLoadArrival => Sys2Proof.Machine.execPeerLoadArrival s
  | .peerAck => Sys2Proof.Machine.execPeerAck s
  | .hostWrite => Sys2Proof.Machine.execHostWrite s
  | .hostRead => Sys2Proof.Machine.execHostRead s
  | .hostSnoop => Sys2Proof.Machine.execHostSnoop s
  | .backInvalidate => Sys2Proof.Machine.execBackInvalidate s
  | .l2Fill => Sys2Proof.Machine.execL2Fill s
  | .bankOpAccept => Sys2Proof.Machine.execBankOpAccept s
  | .bankOpPerform => Sys2Proof.Machine.execBankOpPerform s
  | .engineAccept => Sys2Proof.Machine.execEngineAccept s
  | .enginePieceDone => Sys2Proof.Machine.execEnginePieceDone s
  | .arriveLoad => Sys2Proof.Machine.execArriveLoad s
  | .arriveStore => Sys2Proof.Machine.execArriveStore s
  | .barrierCfgWrite => Sys2Proof.Machine.execBarrierCfgWrite s
  | .pendWrite => Sys2Proof.Machine.execPendWrite s
  | .barrierAbort => Sys2Proof.Machine.execBarrierAbort s
  | .chainArrival => Sys2Proof.Machine.execChainArrival s
  | .chainRelease => Sys2Proof.Machine.execChainRelease s
  | .lock => Sys2Proof.Machine.execLock s
  | .lockRelease => Sys2Proof.Machine.execLockRelease s
  | .tryLock => Sys2Proof.Machine.execTryLock s
  | .wait => Sys2Proof.Machine.execWait s
  | .lineWrite => Sys2Proof.Machine.execLineWrite s
  | .take => Sys2Proof.Machine.execTake s
  | .matrixTake => Sys2Proof.Machine.execMatrixTake s
  | .matrixRetire => Sys2Proof.Machine.execMatrixRetire s
  | .tapAccept => Sys2Proof.Machine.execTapAccept s
  | .reservoirTick => Sys2Proof.Machine.execReservoirTick s
  | .sprintCut => Sys2Proof.Machine.execSprintCut s
  | .supplySettle => Sys2Proof.Machine.execSupplySettle s
  | .ratioSwitch => Sys2Proof.Machine.execRatioSwitch s
  | .sensorSample => Sys2Proof.Machine.execSensorSample s
  | .arbiterSample => Sys2Proof.Machine.execArbiterSample s
  | .fthrNAssert => Sys2Proof.Machine.execFthrNAssert s
  | .currentSenseAssert => Sys2Proof.Machine.execCurrentSenseAssert s
  | .fastThrottleRelease => Sys2Proof.Machine.execFastThrottleRelease s
  | .timer => Sys2Proof.Machine.execTimer s
  | .userTrapEntry => Sys2Proof.Machine.execUserTrapEntry s
  | .supervisorEntry => Sys2Proof.Machine.execSupervisorEntry s
  | .preemptRequest => Sys2Proof.Machine.execPreemptRequest s
  | .preemptCancel => Sys2Proof.Machine.execPreemptCancel s
  | .bankFormatWrite => Sys2Proof.Machine.execBankFormatWrite s
  | .ctxDomWrite => Sys2Proof.Machine.execCtxDomWrite s
  | .errRingMove => Sys2Proof.Machine.execErrRingMove s
  | .sendrDelivery => Sys2Proof.Machine.execSendrDelivery s
  | .senderCompletion => Sys2Proof.Machine.execSenderCompletion s
  | .putqArrival => Sys2Proof.Machine.execPutqArrival s
  | .wsmsgArrival => Sys2Proof.Machine.execWsmsgArrival s
  | .wsfwdArrival => Sys2Proof.Machine.execWsfwdArrival s
  | .handlerStart => Sys2Proof.Machine.execHandlerStart s
  | .handlerOverrun => Sys2Proof.Machine.execHandlerOverrun s
  | .handlerTableWrite => Sys2Proof.Machine.execHandlerTableWrite s
  | .handlerMemoryWrite => Sys2Proof.Machine.execHandlerMemoryWrite s
  | .eqAsyncCompletion => Sys2Proof.Machine.execEqAsyncCompletion s
  | .admissionAttempt => Sys2Proof.Machine.execAdmissionAttempt s
  | .coreReservation => Sys2Proof.Machine.execCoreReservation s
  | .post => Sys2Proof.Machine.execPost s
  | .schedPreempt => Sys2Proof.Machine.execSchedPreempt s
  | .caravanPreemptTick => Sys2Proof.Machine.execCaravanPreemptTick s
  | .caravanSave => Sys2Proof.Machine.execCaravanSave s
  | .signal => Sys2Proof.Machine.execSignal s
  | .cancel => Sys2Proof.Machine.execCancel s
  | .endcar => Sys2Proof.Machine.execEndcar s
  | .pcolsWrite => Sys2Proof.Machine.execPcolsWrite s
  | .fclose => Sys2Proof.Machine.execFclose s
  | .bstop => Sys2Proof.Machine.execBstop s
  | .preset => Sys2Proof.Machine.execPreset s
  | .snapGo => Sys2Proof.Machine.execSnapGo s
  | .snapRelease => Sys2Proof.Machine.execSnapRelease s
  | .snapTimer => Sys2Proof.Machine.execSnapTimer s
  | .dbgsnapN => Sys2Proof.Machine.execDbgsnapN s
  | .snapshotLatch => Sys2Proof.Machine.execSnapshotLatch s
  | .vfReqWrite => Sys2Proof.Machine.execVfReqWrite s
  | .throtFwWrite => Sys2Proof.Machine.execThrotFwWrite s
  | .rsvFillfwWrite => Sys2Proof.Machine.execRsvFillfwWrite s
  | .tmStep => Sys2Proof.Machine.execTmStep s
  | .timingMessage => Sys2Proof.Machine.execTimingMessage s
  | .slackWindow => Sys2Proof.Machine.execSlackWindow s
  | .slackFigure => Sys2Proof.Machine.execSlackFigure s
  | .migrationCount => Sys2Proof.Machine.execMigrationCount s
  | .migrationFinish => Sys2Proof.Machine.execMigrationFinish s
  | .counterHalving => Sys2Proof.Machine.execCounterHalving s
  | .tinv => Sys2Proof.Machine.execTinv s
  | .promote => Sys2Proof.Machine.execPromote s
  | .promotionFinish => Sys2Proof.Machine.execPromotionFinish s
  | .darkTierPowerUp => Sys2Proof.Machine.execDarkTierPowerUp s
  | .courierDoorbell => Sys2Proof.Machine.execCourierDoorbell s
  | .powerOn => Sys2Proof.Machine.execPowerOn s
  | .startGo => Sys2Proof.Machine.execStartGo s
  | .perst => Sys2Proof.Machine.execPerst s
  | .startDone => Sys2Proof.Machine.execStartDone s
  | .startStageTimeout => Sys2Proof.Machine.execStartStageTimeout s
  | .attestDoorbell => Sys2Proof.Machine.execAttestDoorbell s
  | .attestReport => Sys2Proof.Machine.execAttestReport s
  | .checkpointGo => Sys2Proof.Machine.execCheckpointGo s
  | .checkpointEnd => Sys2Proof.Machine.execCheckpointEnd s
  | .trailFlitReceive => Sys2Proof.Machine.execTrailFlitReceive s
  | .tlTrain => Sys2Proof.Machine.execTlTrain s
  | .registerWrite => Sys2Proof.Machine.execRegisterWrite s
  | .illegalEncoding => Sys2Proof.Machine.execIllegalEncoding s
  | .tierPowerOff => Sys2Proof.Machine.execTierPowerOff s
  | .hostLinkDown => Sys2Proof.Machine.execHostLinkDown s
  | .hostLinkUp => Sys2Proof.Machine.execHostLinkUp s
  | .trailLinkUp => Sys2Proof.Machine.execTrailLinkUp s
  | .startStepEnd => Sys2Proof.Machine.execStartStepEnd s

end Sys2Proof.Machine
end

