-- ==== Sys2Proof/Machine/Fetch.lean ====
section
/-!
DEFINITION. Instruction fetch (R79, R80, R222, R325) and what a context does when its turn comes: what is due at an instruction boundary
first, then one instruction (R18, R20, R36, R359, R368, R420, R431, R495).

The instruction cache of a core holds 64-byte fetch blocks, and words that straddle two blocks as entries of four bytes. A fetch does not go
through L1 or the L2 slices, and raises no waystation event: R329 names no fetch among its requesters (DEDUCED, log 18).
-/

namespace Sys2Proof.Machine

open Sys2Proof

/-! ## Fetch -/

/-- An address of a window or of the management region: no instruction is fetched there (R80). -/
def window (va : Nat) : Bool :=
  let reg := bits va 55 48
  bits va 63 56 = 0xFF && (reg ≤ 0x82 || reg = 0xFF)

/-- The checks of a fetch of the halfword at an address: a page of type DRAM or HOST, with the execute right; any other region or type raises PAGE (R80). For
a window or the management region plb.ctl and plb.fva then record kind 5, level 7 and the address as it was issued, a relative one too (DESIGN CHOICE,
log 73). The result is the line and the key of its first byte. -/
def State.fetchKey (s : State) (ag : Agent) (va : Nat) : Except Trap (LineTag × Nat) :=
  if window va then .error (plbTrap cPAGE va 5 7 va) else
  (s.check ag va 2 exR (fit := Target.isMem) (peer := false)).bind fun t =>
    match t with
    | .mem _ tag key => if s.bad (key / 64) then .error (trapAt cUE (va / 64 * 64)) else .ok (tag, key)
    | _ => .error (plbTrap cPAGE va 5 7 va)

/-- The execute right alone: what is still checked for a fetch that hits the instruction cache (R392). -/
def State.fetchRight (s : State) (ag : Agent) (va : Nat) : Except Trap Unit :=
  (addrCheck ag va 2 false).bind fun win => rightsCheck (s.plbOf ag) (s.regs ag).dom.toNat va (seenVa va win) 2 exR

/-- A halfword from memory itself, behind the bank-side operations accepted on it; it waits for a page that moves (R133, R398). -/
def State.freshHalf (s : State) (ag : Agent) (va : Nat) : Try (LineTag × Nat × List Byte) :=
  let s := match s.fetchKey ag va with
    | .ok (tag, key) => s.findFlaws (some tag) va key 2
    | .error _ => s
  match s.fetchKey ag va with
  | .error t => .error (.trapIn s t)
  | .ok (tag, key) => if s.pageHeld va then .error (.later (s.stallNow ag)) else .ok (tag, key, s.memBytes key 2)

/-- An entry of the instruction cache takes the place of one for the same address and length. The cache holds 16 KiB, 256 blocks: when it is full, a
victim leaves (R11), with the word that straddles its end. -/
def Core.keepBlock (c : Core) (seq : Nat) (b : FetchBlock) : Core :=
  let rest := c.icache.filter (fun x => !(x.va = b.va && x.bytes.length = b.bytes.length))
  let places := ((rest.map (·.va)).filter (· ≠ b.va)).eraseDups
  let rest := if places.length < 256 then rest else
    match places[Config.victim seq % places.length]? with
    | some v => rest.filter (·.va ≠ v)
    | none => rest
  { c with icache := rest ++ [b] }

/-- A halfword by its fetch block, which a miss brings from the memory tiers (R442): the block that the cache holds may stand for what memory holds now until IFENCE or TINV (R222). -/
def State.blockHalf (s : State) (ag : Agent) (core va : Nat) : Try (State × List Byte) :=
  let fresh := s.freshHalf ag va
  let miss : Try (State × List Byte) := s.needTiers ag <| fresh.map fun (tag, key, bs) =>
    (s.modCore core (fun c => c.keepBlock s.seq
      { va := va / 64, key := key / 64, ty := tag.ty, own := tag.own, bytes := s.memBytes (key / 64 * 64) 64 }), bs)
  match (s.core core).icache.find? (fun b => b.va = va / 64 && b.bytes.length = 64) with
  | none => miss
  | some b =>
    (liftT (s.fetchRight ag va)).bind fun _ =>
      let same : Bool := match fresh with
        | .ok (_, key, _) => key / 64 = b.key && s.memBytes (b.key * 64) 64 = b.bytes
        | .error _ => false
      if same || Config.stale s.seq then .ok (s, (b.bytes.drop (va % 64)).take 2) else miss

/-- Whether a halfword is the first of a 32-bit instruction (R79). -/
def wide (h : List Byte) : Bool := (h.getD 0 0).getLsbD 0

/-- The instruction word at the end of a fetch block, whose second half stands in the next: read whole at one point (R80, R222). -/
def State.straddle (s : State) (ag : Agent) (core va : Nat) : Try (State × List Byte) :=
  let fresh : Try (LineTag × Nat × List Byte) := (s.freshHalf ag va).bind fun (tag, key, h) =>
    if wide h then (s.freshHalf ag ((va + 2) % 2 ^ 64)).map (fun (_, _, h2) => (tag, key, h ++ h2)) else .ok (tag, key, h)
  let now : Try (State × List Byte) := s.needTiers ag <| fresh.bind fun (tag, key, w) =>
    if w.length = 4 then
      .ok (s.modCore core (fun c => c.keepBlock s.seq { va := va / 64, key := key / 64, ty := tag.ty, own := tag.own, bytes := w }), w)
    else (s.blockHalf ag core va).map (fun (s', h) => if wide h then (s, w) else (s', h))
  match (s.core core).icache.find? (fun b => b.va = va / 64 && b.bytes.length = 4) with
  | none => now
  | some b =>
    let same : Bool := match fresh with
      | .ok (_, _, w) => w = b.bytes
      | .error _ => false
    if same || Config.stale s.seq then
      (liftT (s.fetchRight ag va)).bind fun _ => (liftT (s.fetchRight ag ((va + 2) % 2 ^ 64))).map fun _ => (s, b.bytes)
    else now

/-- The bytes of the instruction at an agent's pc (R94 row 1): a core's through its instruction cache, the Iluet's from memory, a handler's from its
window. -/
def State.fetch (s : State) (ag : Agent) : Try (State × List Byte) :=
  let pc := (s.regs ag).pc.toNat
  let pc2 := (pc + 2) % 2 ^ 64
  match ag with
  | .ws k =>
    (liftT (s.windowKey k pc 2 cPAGE)).bind fun key =>
      if wide (s.bytes key 2) then (liftT (s.windowKey k pc2 2 cPAGE)).map (fun key2 => (s, s.bytes key 2 ++ s.bytes key2 2))
      else .ok (s, s.bytes key 2)
  | .iluet =>
    (s.freshHalf ag pc).bind fun (_, _, h) =>
      if wide h then (s.freshHalf ag pc2).map (fun (_, _, h2) => (s, h ++ h2)) else .ok (s, h)
  | .ctx core _ =>
    if pc % 64 = 62 then s.straddle ag core pc
    else (s.blockHalf ag core pc).bind fun (s, h) =>
      if wide h then (s.blockHalf ag core pc2).map (fun (s, h2) => (s, h ++ h2)) else .ok (s, h)

/-! ## Instruction boundaries -/

/-- A context at a point where what is due at boundaries can happen: no part of an instruction is under way but a wait that can be withdrawn
(R202, R206, R293, R495). A load that waits for its data completes first (R298). -/
def Ctx.interruptible (c : Ctx) : Bool :=
  !c.missed && c.saving.isNone && !c.parked && !c.loading && c.reply.isNone && c.got.isEmpty && c.waitOn.isNone &&
  (c.asked.isNone || (c.st = .waiting && c.asked = some evAsk))

/-- A context that executes when its turn comes. -/
def Ctx.runs (c : Ctx) : Bool := c.st = .ready || (c.st = .stalled && !c.held)

/-- What is due at a boundary of a context: its end (R420), its freezing (R431), the save of a deadline (R36), or an asynchronous cause (R359); a WFI
completes before it is interrupted (R368), and a context that has asked for the priority token executes nothing, a handler neither, before it has it (R213). -/
def State.due (s : State) (ag : Agent) : Bool :=
  let c := s.ctx ag
  c.live && c.interruptible && !s.cutHeld ag &&
  ((c.ending && !s.endHeld ag) || !(c.st = .waiting && c.why = 6) && (c.freezing || (c.preDue && c.lvl = .user) || ((s.nextCause ag).isSome && !(c.st = .ready && c.why = 5) && !s.tokenQ.contains ag.code)))

/-- Does what is due at the boundary. -/
def State.boundary (s : State) (ag : Agent) : State :=
  let c := s.ctx ag
  if c.ending && !s.endHeld ag then s.endNow ag
  else if c.freezing then
    match s.endChunk ag with
    | .ok s => ((s.withdrawWait ag).dropToken ag).modCtx ag Ctx.freeze
    | .error (.later s) => s
    | .error _ => s
  else if c.preDue && c.lvl = .user then
    match s.endChunk ag with
    | .ok s => (s.withdrawWait ag).actPreempt ag (2, 0)
    | .error (.later s) => s
    | .error _ => s
  else (s.takeAsync ag).getD s

/-! ## Turns -/

/-- What may happen next. -/
inductive Turn where
  /-- A message or an activity under way, by its number. -/
  | msg (id : Nat) (m : Msg)
  /-- The next thing that the outside world does. -/
  | input (ev : Event)
  /-- A context goes on. -/
  | run (ag : Agent)
deriving DecidableEq, Repr

/-- The first message of each channel (R216). -/
def heads : List Nat → Tab Msg → List Turn
  | _, [] => []
  | seen, (id, m) :: t => if seen.contains m.chan then heads seen t else .msg id m :: heads (m.chan :: seen) t

/-- The first of some contexts after one, in round-robin order (R20). -/
def afterLast (last : Nat) (p : Nat → Bool) : Option Nat := ((List.range 4).map (fun i => (last + 1 + i) % 4)).find? p
/-- A ready context whose next instruction has still to issue: it needs an issue slot (R20). -/
def Ctx.fresh (c : Ctx) : Bool := c.st = .ready && !c.issued
/-- The ready context whose turn an ordinary issue slot is (R20). -/
def Core.nextReady (c : Core) : Option Nat := afterLast c.last (fun n => (look {} c.ctxs n).fresh)
/-- The ready context that a slot reserved for THROTTLE handlers serves: one that is entering or running such a handler (R22, R286). -/
def State.nextThrottled (s : State) (k : Nat) (c : Core) : Option Nat :=
  if (s.col (colOf k)).level = 0 then none else
  afterLast c.lastThr (fun n =>
    let x := look {} c.ctxs n
    x.fresh && (x.inThrottle || (match s.nextCause (.ctx k n) with | some (cause, _, sup) => cause = cTHROTTLE && !sup | none => false)))

/-- The contexts of a core that may go on: of those that are to issue the one whose turn it is, and at a throttle level above 0 the one that a reserved slot
serves; of the others those whose instruction has issued and may complete, those Stalled before issue, which become ready again, and those with something
due. A core of a dark column issues nothing (R435). -/
def State.coreTurns (s : State) (k : Nat) (c : Core) : List Turn :=
  if s.darkCols.contains (colOf k) then [] else
  let st (n : Nat) : Ctx := look {} c.ctxs n
  (c.nextReady.toList ++ (s.nextThrottled k c).toList ++
   (List.range 4).filter (fun n => !(st n).fresh && ((st n).runs || s.due (.ctx k n)))).map (fun n => .run (.ctx k n))

/-- Whether instructions issue at all: not before a start has reached its last step, nor during a checkpoint (R478, R483). -/
def State.issues (s : State) : Bool := s.boot.stage = 7 && !s.boot.fail && !s.boot.ckRun

/-- The module is up: its start has come to its last step and has not failed (R478). -/
def State.up (s : State) : Bool := s.boot.stage = 7 && !s.boot.fail
/-- A store of the host that has a row of its own stands behind the writes that the host has posted before it (R470). -/
def State.inputWaits (s : State) (ev : Event) : Bool :=
  (ev.row = .courierDoorbell || ev.row = .attestDoorbell || ev.row = .checkpointGo) && s.flight.any (fun e => e.2.ev.row = .hostWrite)

/-- Everything that may happen next. In a module that is not up only the host ports act. -/
def State.turns (s : State) : List Turn :=
  heads [] (if s.up then s.flight else s.flight.filter (fun e => e.2.ofHost)) ++ (s.inputs.head?.filter (fun ev => !s.inputWaits ev)).toList.map .input ++
  (if s.issues then
    s.cores.flatMap (fun e => s.coreTurns e.1 e.2) ++
    (if !s.fw.stopped && (s.iluet.runs || s.due .iluet) then [.run .iluet] else []) ++
    (s.slices.filter (fun e => e.2.run.isSome && e.2.ctx.runs)).map (fun e => .run (.ws e.1))
   else [])

/-- The turn that is taken: where several could be, which is not laid down (log 3). -/
def State.pick (s : State) : Option Turn :=
  match s.turns with
  | [] => none
  | [t] => some t
  | ts => ts[Config.choice s.seq % ts.length]?

/-! ## What the outside world does -/

/-- Accesses of the host and of other modules become messages: the host's reads and writes in order by port, arrivals in order by link; the channel. -/
def Event.channel (ev : Event) : Option Nat :=
  let a := ev.args.getD 0 0
  match ev.row with
  | .hostWrite => some (2 ^ 39 + a)
  | .hostRead => some (2 ^ 39 + a)
  | .hostSnoop => some (2 ^ 39 + 2 ^ 20 + a)
  | .backInvalidate => some (2 ^ 39 + 2 ^ 20 + a)
  | .trailFlitReceive => some (2 ^ 39 + 2 ^ 21 + a)
  | .peerWriteArrival => some (2 ^ 39 + 2 ^ 22 + a)
  | .peerLoadArrival => some (2 ^ 39 + 2 ^ 22 + a)
  | .peerAck => some (2 ^ 39 + 2 ^ 23 + a)
  | _ => none

/-- The happenings that come from outside otherwise: pins, links, power, start and mailbox stores, fill data, figures and timing messages of other
modules. -/
def Event.outside (ev : Event) : Bool :=
  match ev.row with
  | .powerOn => true
  | .perst => true
  | .startGo => true
  | .attestDoorbell => true
  | .checkpointGo => true
  | .courierDoorbell => true
  | .hostLinkUp => true
  | .hostLinkDown => true
  | .trailLinkUp => true
  | .fthrNAssert => true
  | .currentSenseAssert => true
  | .dbgsnapN => true
  | .timingMessage => true
  | .slackFigure => true
  | .l2Fill => true
  | .tierPowerOff => true
  | .darkTierPowerUp => true
  | _ => false

/-- The happenings from outside that a module whose start has failed still takes: those of its host ports, and the power (R478). -/
def Event.hostSide (ev : Event) : Bool :=
  match ev.row with
  | .powerOn => true
  | .perst => true
  | .startGo => true
  | .attestDoorbell => true
  | .checkpointGo => true
  | .courierDoorbell => true
  | .hostLinkUp => true
  | .hostLinkDown => true
  | .hostWrite => true
  | .hostRead => true
  | .hostSnoop => true
  | .backInvalidate => true
  | _ => false

/-! ## After an instruction -/

/-- A context of a caravan that is being saved as a whole has come to wait or to be held: the save is looked at again (R419). -/
def State.lookAtSave (s : State) (ag : Agent) : State :=
  let c := s.ctx ag
  match s.parking ag with
  | some (p, k) => if c.parked || c.st = .waiting then s.start .caravanSave [p, k] else s
  | none => s

/-- The contexts of a core that issued last, in its ordinary and in its reserved slots. -/
def State.lastIssued (s : State) (ag : Agent) : Nat × Nat :=
  match ag with
  | .ctx core _ => ((s.core core).last, (s.core core).lastThr)
  | _ => (3, 3)
def State.setLast (s : State) (ag : Agent) (l : Nat × Nat) : State :=
  match ag with
  | .ctx core _ => s.modCore core (fun c => { c with last := l.1, lastThr := l.2 })
  | _ => s

/-- A context whose instruction is to issue takes an issue slot: an ordinary one when that is its turn, else a reserved one. One whose instruction has
issued needs none (R20, R22). -/
def State.takeSlot (s : State) (ag : Agent) : State :=
  match ag with
  | .ctx core n =>
    if !(s.ctx ag).fresh then s
    else if (s.core core).nextReady = some n then s.setLast ag (n, (s.lastIssued ag).2) else s.setLast ag ((s.lastIssued ag).1, n)
  | _ => s

/-- A context that is Stalled before its instruction issues: it is ready again where what it needs may be there, and then issues in its turn (R18, R20). -/
def State.mayReady (s : State) (ag : Agent) : Bool :=
  match ag with
  | .ctx .. => let c := s.ctx ag; c.st = .stalled && !c.held && !c.issued && c.atBoundary
  | _ => false

/-- After a turn: a context that stalls before its instruction has issued has given the slot up (R20). -/
def State.afterTurn (s : State) (ag : Agent) (last : Nat × Nat) : State :=
  match ag with
  | .ctx .. => (if (s.ctx ag).st = .stalled && !(s.ctx ag).issued then s.setLast ag last else s).lookAtSave ag
  | _ => s

/-- After an instruction whose bytes were fetched: one that has issued is counted in its column's stall.issue (R448). An instruction that waits
to issue has not. -/
def State.afterIssue (s : State) (ag : Agent) (last : Nat × Nat) : State :=
  match ag with
  | .ctx core _ =>
    let c := s.ctx ag
    (if c.st = .stalled && !c.issued then s
     else s.modCol (colOf core) (fun k => { k with stallIssue := k.stallIssue + 1 })).afterTurn ag last
  | _ => s

/-- An errand's bytes have come, or its word is stored. -/
def State.errandDone (s : State) (e : Errand) (got : Nat × Nat × List Byte) : State := s.addErrand { e with got := some got }

/-- An errand is made, or waits on: a device's registers, a host device's bytes, which are free, or a request of another module. -/
def State.makeErrand (s : State) (e : Errand) : State :=
  if e.ask.isSome || e.got.isSome then s.addErrand e else
  match s.postCheck e.who e.va e.len (if e.word.isSome then wrR else rdR) with
  | .error t => s.errandDone e (t.cause, t.info.toNat, [])
  | .ok t =>
    match t, e.word with
    | .host pa, none => (s.out 2 [0, pa, e.len]).errandDone e (0, 0, (List.range e.len).map (fun i => Config.freeByte s.seq i))
    | .peer flow ord pva, none =>
      if bit (look 0 s.flows flow).toNat 62 then s.errandDone e (cFLOW, 3 * 2 ^ 8 + flow, [])
      else if !s.credit flow 1 then s.addErrand e
      else
        let seq := look 0 s.flowSeq flow
        ({ s with flowSeq := put flow ((seq + 1) % 2 ^ 32) s.flowSeq }.out (0x1000 + flow) [seq, 0, if ord then 1 else 0, pva, e.len]).addErrand
          { e with ask := some (flow, seq) }
    | t, none =>
      match t.key?, s.deviceLoad e.who.ag t e.va e.len with
      | some _, _ => s.errandDone e (0, 0, s.devRead t e.len)
      | none, .ok (s, v) => s.errandDone e (0, 0, leBytes e.len v)
      | none, .error (.later _) => s.addErrand e
      | none, .error (.trap t) => s.errandDone e (t.cause, t.info.toNat, [])
      | none, .error (.trapIn s t) => s.errandDone e (t.cause, t.info.toNat, [])
    | t, some v =>
      if !t.device then s else
      match (match t with | .block 3 k off => s.postHalts e.who.ag.code k (off % 2 ^ 16) v | _ => none), s.deviceStore e.who.ag t e.va e.len v with
      | some s, _ => s.addErrand e
      | none, .ok s => s.errandDone e (0, 0, [])
      | none, .error (.trap t) => s.errandDone e (t.cause, t.info.toNat, [])
      | none, .error (.trapIn s t) => s.errandDone e (t.cause, t.info.toNat, [])
      | none, .error _ => s.addErrand e

/-- What the scheduler has under way at addresses that are no memory is made, in order, and what waited for it goes on (R165, R410, R418). -/
def State.flushErrands (s : State) : State :=
  if s.errands.isEmpty then s else
  let s := s.errands.foldl State.makeErrand { s with errands := [] }
  ((s.errands.filter (·.got.isSome)).map (·.who.tag)).foldl State.retryFor s

/-- What has to be written before a step ends: the scheduler's accesses of devices, then the error records found in it (R418, R428). -/
def State.flush (s : State) : State := s.flushErrands.flushErrs

/-- A step ends: error records found in it are written (R428), time passes, though not beyond the instant at which something falls due. -/
def State.endStep (s : State) : State :=
  let s := s.flush
  let t := s.time + Config.lapse s.seq
  let t := match s.agenda with
    | (u, _) :: _ => min t u
    | [] => t
  { s.passTo t with seq := s.seq + 1 }

/-- A step at an instant at which something falls due takes no time. -/
def State.endDue (s : State) : State :=
  let s := s.flush
  { s with seq := s.seq + 1 }

end Sys2Proof.Machine
end

