-- ==== Sys2Proof/Machine/Step.lean ====
section
/-!
DEFINITION. One step of the module: what falls due first, else one of the things that may happen, else time passes.
-/

namespace Sys2Proof.Machine

open Sys2Proof

/-- What follows a step that has given a next state. -/
def andThen (o : Host.Outcome State Fault Refusal) (f : State → State) : Host.Outcome State Fault Refusal :=
  match o with
  | .next s => .next (f s)
  | .fault r => .fault r
  | .refused r => .refused r

/-- An instruction whose bytes have been fetched runs (R79, R94 row 2). -/
def runBytes (s : State) (bs : List Byte) : Host.Outcome State Fault Refusal :=
  match decode bs with
  | .ok (i, _) => exec i s
  | .error _ => exec .illegalEncoding { s with args := [leNat bs] }

/-- A context's turn: what is due at its boundary, or an instruction. A handler that has passed its budget is aborted at its boundary (R332). -/
def runAgent (s : State) (ag : Agent) : Host.Outcome State Fault Refusal :=
  let c := s.ctx ag
  let s := { s with cur := ag }
  let late : Bool := match ag with | .ws k => s.overrun k | _ => false
  if late then .next (s.endHandler ag.slice (some 0))
  else if s.due ag then .next ((s.boundary ag).lookAtSave ag)
  else if s.mayReady ag then .next (s.modCtx ag (fun c => { c with st := .ready }))
  else
    let last := s.lastIssued ag
    let s' := s.takeSlot ag
    if c.atBoundary then
      match s'.fetch ag with
      | .error e => andThen (settle s' ag (.error e)) (·.afterTurn ag last)
      | .ok (s', bs) => andThen (runBytes (s'.modCtx ag (fun c => { c with word := bs })) bs) (·.afterIssue ag last)
    else andThen (runBytes s' c.word) (·.afterTurn ag last)

/-- A message or an activity under way is delivered; an activity is done with when it begins. -/
def runMsg (s : State) (id : Nat) (m : Msg) : Host.Outcome State Fault Refusal :=
  let s := if 2 ^ 40 ≤ m.chan then s.drop id else s
  exec m.ev.row { s with args := m.ev.args }

/-- The outside world acts: an access becomes a message under way, anything else happens at once. A module whose start has failed takes what comes through its
host ports alone. -/
def runInput (s : State) (ev : Event) : Host.Outcome State Fault Refusal :=
  let s := { s with inputs := s.inputs.tail }
  if s.boot.fail && !ev.hostSide then .next s else
  match ev.channel with
  | some ch => .next (s.send { chan := ch, ev := ⟨ev.row, [s.nextMsg]⟩, words := ev.args })
  | none => if ev.outside then exec ev.row { s with args := ev.args } else .next s

/-- One turn. -/
def runTurn (s : State) : Turn → Host.Outcome State Fault Refusal
  | .msg id m => runMsg s id m
  | .input ev => runInput s ev
  | .run ag => runAgent s ag

/-- One step of the machine. -/
def step (s : State) : Host.Outcome State Fault Refusal :=
  match s.agenda with
  | (t, ev) :: rest =>
    if t ≤ s.time then andThen (exec ev.row { s with agenda := rest, args := ev.args }) State.endDue
    else
      match s.pick with
      | some turn => andThen (runTurn s turn) State.endStep
      | none => .next (s.passTo t)
  | [] =>
    match s.pick with
    | some turn => andThen (runTurn s turn) State.endStep
    | none => .fault .nothingHappens

/-! ## Placing an instruction -/

/-- The bytes of a walk from `tr.root` = 0x1001 to the one page at VA 0x1_0000, in DRAM of stack 0 at 0x2_0000. -/
def fetchTables : List (Nat × Nat) :=
  [(0x1000, 0x2001), (0x2000, 0x3001), (0x3000, 0x4001), (0x4000, 0x5001), (0x5008, 0x20003)]

/-- The state with one instruction where the next step fetches: on a waystation of slice 0, in the window of a running handler, for the instructions of the
waystations alone (major 0x2F); else at VA 0x1_0000, for context 0 of core 0 at supervisor level, with the translation and the execute right that the fetch
needs. The Iluet waits. -/
def State.withFetchWord (s : State) (nbits w : Nat) : State :=
  let w := w % 2 ^ nbits
  let s : State := { s with iluet := { s.iluet with st := .waiting, why := 5, held := true } }
  if w / 2 ^ 26 = 0x2F ∧ w % 2 = 1 then
    (s.modSlice 0 (fun l => { l with run := some { kind := 0, entry := 0, va := 0, msize := 1 }, ctx := { st := .ready } })).writeBytes (handlerKey 0 0) (leBytes 4 w)
  else
    let s := fetchTables.foldl (fun s e => s.writeBytes (dramKey 0 e.1) (leBytes 8 e.2)) { s with trRoot := 0x1001#64 }
    let s := s.writeBytes (dramKey 0 0x20000) (leBytes 4 w)
    s.modCore 0 (fun c => { c with last := 3, plb := put 0 { base := 0x10000, sz := 16, v := true, x := true } c.plb,
                                   ctxs := put 0 { r := { pc := 0x10000#64 }, st := .ready, lvl := .sup } c.ctxs })

end Sys2Proof.Machine
end

