-- ==== Sys2Proof/Safety.lean ====
section
/-!
DEFINITION. What counts as a safe run (the module goes on, and its memory keeps the canonical form), and the vocabulary of the claims:
the states in which a context issues an instruction and completes it at once, and the state that an instruction leaves.
-/

namespace Sys2Proof.Machine

open Sys2Proof

/-! ## Safe runs -/

/-- A step that goes on. -/
def goesOn (s : State) : Prop := ∃ t, step s = .next t

/-- A state whose memory is in canonical form. -/
def State.sound (s : State) : Prop := Memory.wf s.mem = true

/-- A run of `k` steps that goes on throughout and keeps memory in canonical form. -/
def safeRun (k : Nat) (s : State) : Prop := ∃ t, core.run k s = .next t ∧ State.sound t

/-! ## Where an instruction issues and completes -/

/-- Context `n` of a core is executing: it is ready, no part of an instruction is under way, its chunk has room for one more instruction
(R208), and no reservation of its core charges it (R282). -/
structure Plain (s : State) (core n : Nat) : Prop where
  cur : s.cur = .ctx core n
  ready : (s.ctx (.ctx core n)).st = .ready
  count : (s.ctx (.ctx core n)).chunk.count < 511
  writes : (s.ctx (.ctx core n)).chunk.writes.length < 32
  asked : (s.ctx (.ctx core n)).asked = none
  reply : (s.ctx (.ctx core n)).reply = none
  got : (s.ctx (.ctx core n)).got = []
  waitOn : (s.ctx (.ctx core n)).waitOn = none
  issued : (s.ctx (.ctx core n)).issued = false
  missed : (s.ctx (.ctx core n)).missed = false
  bankFmt : (s.ctx (.ctx core n)).bankFmt = none
  infl : (s.ctx (.ctx core n)).infl = 0
  holder : (s.core core).holder = none

/-- The same between two chunks, where a singleton executes (R208). -/
structure Between (s : State) (core n : Nat) : Prop extends Plain s core n where
  noChunk : (s.ctx (.ctx core n)).chunk.run = false

/-- The scalar registers that an instruction reads are present (R178). -/
def Present (s : State) (core n : Nat) (reads : List Nat) : Prop := ∀ k ∈ reads, (s.regs (.ctx core n)).present k = true

/-- The seven instructions that only a waystation executes (R324, R333). -/
def isWs : Instr → Bool
  | .wsrd .. | .wspf _ | .wsupdAdd .. | .wsupdMin .. | .wsupdMax .. | .wsupdOr .. | .wsfwd .. | .wsdone | .wsdoneKeep | .wsdoneBypass => true
  | _ => false

/-! ## What an instruction leaves -/

/-- The registers once the instruction at pc has completed in order: the next address, as LoopCheck gives it (R113). -/
def Regs.next (r : Regs) (len : Nat) : Regs := let x := r.loopCheck (r.pc + n64 len); { x.1 with pc := x.2 }

/-- The registers after a control transfer. -/
def Regs.jump (r : Regs) (pc : W64) : Regs := { r with pc := pc }

/-- The completion of an instruction in a context whose registers `f` then changes: nothing of it is under way any more, and it is counted in the running
chunk, if one runs (R101), and in the core (R438). -/
def State.completed (s : State) (core n : Nat) (f : Regs → Regs) : State :=
  (s.modCtx (.ctx core n) (fun c =>
    { c.noInstr with r := f c.r, chunk := if c.chunk.run then { c.chunk with count := c.chunk.count + 1 } else c.chunk })).modCore core
    (fun k => { k with retired := k.retired + 1 })

/-- The state after an instruction that changes nothing but registers of its context, by `f`; a chunk starts with it if none runs (R208). -/
def State.finish (s : State) (core n : Nat) (f : Regs → Regs) : State := (s.beginChunk (.ctx core n)).completed core n f

/-- The state in which the meaning of a singleton of a sprint class runs: what an access of memory holds the core up is counted (R448; a free number,
log 4), and the instruction has issued, at no charge where no reservation of its core bears one (R282). -/
def State.entered (s : State) (ag : Agent) (cls : Option Nat) : State :=
  if cls.isSome then (s.stallMem ag cls).modCtx ag (fun c => { c with issued := true, infl := 0 }) else s.stallMem ag cls

/-- The same of an instruction that is no singleton: a chunk runs (R208). -/
def State.opened (s : State) (ag : Agent) (cls : Option Nat) : State := (s.entered ag cls).beginChunk ag

/-- Room in the running chunk for stores of one instruction: neither limit of R125 is near. -/
structure Room (s : State) (core n : Nat) : Prop where
  writes : (s.ctx (.ctx core n)).chunk.writes.length ≤ 16
  undo : (s.ctx (.ctx core n)).chunk.undo.length ≤ 16

/-- No bank-side operation has been accepted that is not performed yet (R133). -/
def NoBankOps (s : State) : Prop := ∀ e ∈ s.flight, e.2.ev.row ≠ .bankOpPerform

/-- `len` bytes of the own core's scratchpad, from offset `off`, as an access finds them in a state in which its meaning runs: the checks of R39 pass, no
other context of the core has written any of the scratchpad in a running chunk (R125), no TAP holds them (R347), nothing is poisoned (R401), no bank-side operation is
under way (R133). -/
structure OwnBytes (s : State) (core n va len off : Nat) (need : Rights) (conv : Bool := false) : Prop where
  window : bits va 63 48 = 0xFF80
  target : s.check (.ctx core n) va len need conv = .ok (.scratch core off)
  free : ∀ g, s.specHolder core (.ctx core n) g = none
  tapped : s.tapHeld (.ctx core n) (scratchKey core off) len = false
  good : s.noBad = true
  bank : NoBankOps s

/-- No other agent has a running chunk, so that a write conflicts with none (R211). -/
def Alone (s : State) (ag : Agent) : Prop := ∀ b, b ≠ ag → (s.ctx b).chunk.run = false
/-- No agent has a running chunk. -/
def NoChunks (s : State) : Prop := ∀ b, (s.ctx b).chunk.run = false

/-- A context between two chunks to which the answer to its instruction's request has come (R131, R133, R174). -/
structure Answered (s : State) (core n : Nat) (answer : List Nat) : Prop where
  cur : s.cur = .ctx core n
  ready : (s.ctx (.ctx core n)).st = .ready
  noChunk : (s.ctx (.ctx core n)).chunk.run = false
  reply : (s.ctx (.ctx core n)).reply = some answer
  got : (s.ctx (.ctx core n)).got = []
  waitOn : (s.ctx (.ctx core n)).waitOn = none
  missed : (s.ctx (.ctx core n)).missed = false
  infl : (s.ctx (.ctx core n)).infl = 0
  holder : (s.core core).holder = none

/-- A load or an atomic that has waited for the data of its line and runs again (R49, R296). -/
structure Resumes (s : State) (core n : Nat) : Prop where
  cur : s.cur = .ctx core n
  stalled : (s.ctx (.ctx core n)).st = .stalled
  count : (s.ctx (.ctx core n)).chunk.count < 511
  writes : (s.ctx (.ctx core n)).chunk.writes.length < 32
  asked : (s.ctx (.ctx core n)).asked = none
  reply : (s.ctx (.ctx core n)).reply = none
  got : (s.ctx (.ctx core n)).got = []
  issued : (s.ctx (.ctx core n)).issued = true
  missed : (s.ctx (.ctx core n)).missed = true
  infl : (s.ctx (.ctx core n)).infl = 0
  holder : (s.core core).holder = none

/-- The byte at a key after the `n` low bytes of `v` have been written, little-endian, from `key` on (R1, R7). -/
def storedByte (s : State) (key n v k : Nat) : Byte := if key ≤ k ∧ k < key + n then BitVec.ofNat 8 (v / 2 ^ (8 * (k - key))) else s.byte k

/-- A context that an instruction leaves ready, uncharged, and with room in its chunk. -/
structure Quiet (c : Ctx) : Prop where
  ready : c.st = .ready
  infl : c.infl = 0
  room : c.chunk.run = true → c.chunk.count < 511 ∧ c.chunk.writes.length < 32

end Sys2Proof.Machine
end

