-- ==== Sys2Proof/WellFormed.lean ====
section
/-!
DEFINITION. Which instructions an encoding can name: every field inside the range of its bits, and inside the values its
row of the opcode map allows (R83, R89 to R93, R159, R178; the index bounds of operand-extension and pointer registers,
the loop displacement of at least 3, the allowed sizes, types and format pairs). The happenings have no encoding.
-/

namespace Sys2Proof

/-- The instruction's fields are values that its encoding admits. -/
def Instr.WF : Instr → Prop
  | .add d a b => d < 32 ∧ a < 32 ∧ b < 32
  | .sub d a b => d < 32 ∧ a < 32 ∧ b < 32
  | .and d a b => d < 32 ∧ a < 32 ∧ b < 32
  | .or d a b => d < 32 ∧ a < 32 ∧ b < 32
  | .xor d a b => d < 32 ∧ a < 32 ∧ b < 32
  | .andn d a b => d < 32 ∧ a < 32 ∧ b < 32
  | .sll d a b => d < 32 ∧ a < 32 ∧ b < 32
  | .srl d a b => d < 32 ∧ a < 32 ∧ b < 32
  | .sra d a b => d < 32 ∧ a < 32 ∧ b < 32
  | .slt d a b => d < 32 ∧ a < 32 ∧ b < 32
  | .sltn d a b => d < 32 ∧ a < 32 ∧ b < 32
  | .min d a b => d < 32 ∧ a < 32 ∧ b < 32
  | .max d a b => d < 32 ∧ a < 32 ∧ b < 32
  | .minn d a b => d < 32 ∧ a < 32 ∧ b < 32
  | .maxn d a b => d < 32 ∧ a < 32 ∧ b < 32
  | .addv d a b => d < 32 ∧ a < 32 ∧ b < 32
  | .subv d a b => d < 32 ∧ a < 32 ∧ b < 32
  | .clz d a => d < 32 ∧ a < 32
  | .ctz d a => d < 32 ∧ a < 32
  | .popc d a => d < 32 ∧ a < 32
  | .sextB d a => d < 32 ∧ a < 32
  | .sextH d a => d < 32 ∧ a < 32
  | .sextW d a => d < 32 ∧ a < 32
  | .zextB d a => d < 32 ∧ a < 32
  | .zextH d a => d < 32 ∧ a < 32
  | .zextW d a => d < 32 ∧ a < 32
  | .mul d a b => d < 32 ∧ a < 32 ∧ b < 32
  | .mulh d a b => d < 32 ∧ a < 32 ∧ b < 32
  | .mulhn d a b => d < 32 ∧ a < 32 ∧ b < 32
  | .mulv d a b => d < 32 ∧ a < 32 ∧ b < 32
  | .div d a b => d < 32 ∧ a < 32 ∧ b < 32
  | .divn d a b => d < 32 ∧ a < 32 ∧ b < 32
  | .rem d a b => d < 32 ∧ a < 32 ∧ b < 32
  | .remn d a b => d < 32 ∧ a < 32 ∧ b < 32
  | .addi d a i => d < 32 ∧ a < 32 ∧ -16384 ≤ i ∧ i < 16384
  | .andi d a i => d < 32 ∧ a < 32 ∧ -16384 ≤ i ∧ i < 16384
  | .ori d a i => d < 32 ∧ a < 32 ∧ -16384 ≤ i ∧ i < 16384
  | .xori d a i => d < 32 ∧ a < 32 ∧ -16384 ≤ i ∧ i < 16384
  | .slli d a h => d < 32 ∧ a < 32 ∧ h < 64
  | .srli d a h => d < 32 ∧ a < 32 ∧ h < 64
  | .srai d a h => d < 32 ∧ a < 32 ∧ h < 64
  | .slti d a i => d < 32 ∧ a < 32 ∧ -8192 ≤ i ∧ i < 8192
  | .sltni d a i => d < 32 ∧ a < 32 ∧ -8192 ≤ i ∧ i < 8192
  | .li d i => d < 32 ∧ -524288 ≤ i ∧ i < 524288
  | .lis d i => d < 32 ∧ i < 65536
  | .oxw d a => d < 32 ∧ a < 32 ∧ d < 8
  | .oxr d a => d < 32 ∧ a < 32 ∧ a < 8
  | .oxi d i => d < 32 ∧ -4096 ≤ i ∧ i < 4096 ∧ d < 8
  | .beq a b i => a < 32 ∧ b < 32 ∧ -16384 ≤ i ∧ i < 16384
  | .bne a b i => a < 32 ∧ b < 32 ∧ -16384 ≤ i ∧ i < 16384
  | .blt a b i => a < 32 ∧ b < 32 ∧ -16384 ≤ i ∧ i < 16384
  | .bge a b i => a < 32 ∧ b < 32 ∧ -16384 ≤ i ∧ i < 16384
  | .bltn a b i => a < 32 ∧ b < 32 ∧ -16384 ≤ i ∧ i < 16384
  | .bgen a b i => a < 32 ∧ b < 32 ∧ -16384 ≤ i ∧ i < 16384
  | .jal d i => d < 32 ∧ -524288 ≤ i ∧ i < 524288
  | .jalr d a i => d < 32 ∧ a < 32 ∧ -16384 ≤ i ∧ i < 16384
  | .lsetup n a i => n < 2 ∧ a < 32 ∧ i < 32768 ∧ 3 ≤ i
  | .lsetupi n c i => n < 2 ∧ c < 1024 ∧ i < 1024 ∧ 3 ≤ i
  | .mfs d r => d < 32 ∧ r < 4096
  | .mts a r => a < 32 ∧ r < 4096
  | .mset a r => a < 32 ∧ r < 4096
  | .mclr a r => a < 32 ∧ r < 4096
  | .start a b c => a < 32 ∧ b < 32 ∧ c < 32
  | .retire => True
  | .yield => True
  | .join a => a < 32
  | .safe i => i < 65536
  | .mpost a b c => a < 32 ∧ b < 32 ∧ c < 32
  | .trap i => i < 65536
  | .brk i => i < 65536
  | .eret => True
  | .uret => True
  | .wfi => True
  | .ifence => True
  | .chunk => True
  | .fenceS => True
  | .fenceF => True
  | .nop => True
  | .plbw a b => a < 32 ∧ b < 32
  | .plbinv a => a < 32
  | .ld d a s i => d < 32 ∧ a < 32 ∧ s < 4 ∧ -1024 ≤ i ∧ i < 1024
  | .ldSigned d a s i => d < 32 ∧ a < 32 ∧ s < 4 ∧ -1024 ≤ i ∧ i < 1024 ∧ s < 3
  | .ldx d a s b => d < 32 ∧ a < 32 ∧ s < 4 ∧ b < 32
  | .ldxSigned d a s b => d < 32 ∧ a < 32 ∧ s < 4 ∧ b < 32 ∧ s < 3
  | .st d a s i => d < 32 ∧ a < 32 ∧ s < 4 ∧ -1024 ≤ i ∧ i < 1024
  | .stx d a s b => d < 32 ∧ a < 32 ∧ s < 4 ∧ b < 32
  | .ldp d a s p i => d < 32 ∧ a < 32 ∧ s < 4 ∧ p < 2 ∧ -1024 ≤ i ∧ i < 1024 ∧ a < 8
  | .stp d a s p i => d < 32 ∧ a < 32 ∧ s < 4 ∧ p < 2 ∧ -1024 ≤ i ∧ i < 1024 ∧ a < 8
  | .pset d a => d < 32 ∧ a < 32 ∧ d < 8
  | .pget d a => d < 32 ∧ a < 32 ∧ a < 8
  | .padd d a => d < 32 ∧ a < 32 ∧ d < 8
  | .pcfg d a => d < 32 ∧ a < 32 ∧ d < 8
  | .amoAdd d a b w => d < 32 ∧ a < 32 ∧ b < 32 ∧ w < 2
  | .amoAnd d a b w => d < 32 ∧ a < 32 ∧ b < 32 ∧ w < 2
  | .amoOr d a b w => d < 32 ∧ a < 32 ∧ b < 32 ∧ w < 2
  | .amoXor d a b w => d < 32 ∧ a < 32 ∧ b < 32 ∧ w < 2
  | .amoMin d a b w => d < 32 ∧ a < 32 ∧ b < 32 ∧ w < 2
  | .amoMax d a b w => d < 32 ∧ a < 32 ∧ b < 32 ∧ w < 2
  | .amoMinn d a b w => d < 32 ∧ a < 32 ∧ b < 32 ∧ w < 2
  | .amoMaxn d a b w => d < 32 ∧ a < 32 ∧ b < 32 ∧ w < 2
  | .amoSwap d a b w => d < 32 ∧ a < 32 ∧ b < 32 ∧ w < 2
  | .cas d a b w => d < 32 ∧ a < 32 ∧ b < 32 ∧ w < 2
  | .mredAdd d a b t => d < 32 ∧ a < 32 ∧ b < 32 ∧ t < 4 ∧ t < 3
  | .mredMin d a b t => d < 32 ∧ a < 32 ∧ b < 32 ∧ t < 4 ∧ t < 3
  | .mredMax d a b t => d < 32 ∧ a < 32 ∧ b < 32 ∧ t < 4 ∧ t < 3
  | .mcas d a b t => d < 32 ∧ a < 32 ∧ b < 32 ∧ t < 4 ∧ t < 2
  | .msca d a b => d < 32 ∧ a < 32 ∧ b < 32
  | .prefL1 a i => a < 32 ∧ -1024 ≤ i ∧ i < 1024
  | .prefL2 a i => a < 32 ∧ -1024 ≤ i ∧ i < 1024
  | .clean a i => a < 32 ∧ -1024 ≤ i ∧ i < 1024
  | .dead a i => a < 32 ∧ -1024 ≤ i ∧ i < 1024
  | .sendr d a b => d < 32 ∧ a < 32 ∧ b < 32 ∧ 1 ≤ d ∧ 1 ≤ a
  | .sendrArm d => d < 32 ∧ 1 ≤ d
  | .putq d a b => d < 32 ∧ a < 32 ∧ b < 32
  | .ibpop d => d < 32 ∧ 1 ≤ d ∧ d % 2 = 0
  | .iblen d => d < 32
  | .wsmsg d a b => d < 32 ∧ a < 32 ∧ b < 32
  | .cpy d a b => d < 32 ∧ a < 32 ∧ b < 32
  | .cpy2d d a b => d < 32 ∧ a < 32 ∧ b < 32
  | .gath d a b => d < 32 ∧ a < 32 ∧ b < 32
  | .scat d a b => d < 32 ∧ a < 32 ∧ b < 32
  | .engq d a => d < 32 ∧ a < 32
  | .engrst d a => d < 32 ∧ a < 32
  | .fadd d a b => d < 32 ∧ a < 32 ∧ b < 32
  | .fsub d a b => d < 32 ∧ a < 32 ∧ b < 32
  | .fmul d a b => d < 32 ∧ a < 32 ∧ b < 32
  | .fdiv d a b => d < 32 ∧ a < 32 ∧ b < 32
  | .fsqrt d a => d < 32 ∧ a < 32
  | .fmin d a b => d < 32 ∧ a < 32 ∧ b < 32
  | .fmax d a b => d < 32 ∧ a < 32 ∧ b < 32
  | .fabs d a => d < 32 ∧ a < 32
  | .fneg d a => d < 32 ∧ a < 32
  | .fsgnj d a b => d < 32 ∧ a < 32 ∧ b < 32
  | .feq d a b => d < 32 ∧ a < 32 ∧ b < 32
  | .flt d a b => d < 32 ∧ a < 32 ∧ b < 32
  | .fle d a b => d < 32 ∧ a < 32 ∧ b < 32
  | .fclass d a => d < 32 ∧ a < 32
  | .fcvt d a t s => d < 32 ∧ a < 32 ∧ t < 16 ∧ s < 16 ∧ t < 7 ∧ s < 7 ∧ t ≠ s ∧ (4 ≤ t ∨ 4 ≤ s)
  | .fma d a b c => d < 32 ∧ a < 32 ∧ b < 32 ∧ c < 32
  | .fms d a b c => d < 32 ∧ a < 32 ∧ b < 32 ∧ c < 32
  | .fnma d a b c => d < 32 ∧ a < 32 ∧ b < 32 ∧ c < 32
  | .vadd d a b w s => d < 32 ∧ a < 32 ∧ b < 32 ∧ w < 4 ∧ s < 2 ∧ w < 3
  | .vsub d a b w s => d < 32 ∧ a < 32 ∧ b < 32 ∧ w < 4 ∧ s < 2 ∧ w < 3
  | .vmul d a b w => d < 32 ∧ a < 32 ∧ b < 32 ∧ w < 4 ∧ w < 3
  | .vmin d a b w u => d < 32 ∧ a < 32 ∧ b < 32 ∧ w < 4 ∧ u < 2 ∧ w < 3
  | .vmax d a b w u => d < 32 ∧ a < 32 ∧ b < 32 ∧ w < 4 ∧ u < 2 ∧ w < 3
  | .vand d a b w => d < 32 ∧ a < 32 ∧ b < 32 ∧ w < 4 ∧ w < 3
  | .vor d a b w => d < 32 ∧ a < 32 ∧ b < 32 ∧ w < 4 ∧ w < 3
  | .vxor d a b w => d < 32 ∧ a < 32 ∧ b < 32 ∧ w < 4 ∧ w < 3
  | .vsll d a b w => d < 32 ∧ a < 32 ∧ b < 32 ∧ w < 4 ∧ w < 3
  | .vsrl d a b w => d < 32 ∧ a < 32 ∧ b < 32 ∧ w < 4 ∧ w < 3
  | .vsra d a b w => d < 32 ∧ a < 32 ∧ b < 32 ∧ w < 4 ∧ w < 3
  | .vcmpeq d a b w => d < 32 ∧ a < 32 ∧ b < 32 ∧ w < 4 ∧ w < 3
  | .vcmplt d a b w u => d < 32 ∧ a < 32 ∧ b < 32 ∧ w < 4 ∧ u < 2 ∧ w < 3
  | .vsel d a b w => d < 32 ∧ a < 32 ∧ b < 32 ∧ w < 4 ∧ w < 3
  | .vabs d a w => d < 32 ∧ a < 32 ∧ w < 4 ∧ w < 3
  | .vfadd d a b f => d < 32 ∧ a < 32 ∧ b < 32 ∧ f < 4 ∧ f < 3
  | .vfsub d a b f => d < 32 ∧ a < 32 ∧ b < 32 ∧ f < 4 ∧ f < 3
  | .vfmul d a b f => d < 32 ∧ a < 32 ∧ b < 32 ∧ f < 4 ∧ f < 3
  | .vfdiv d a b f => d < 32 ∧ a < 32 ∧ b < 32 ∧ f < 4 ∧ f < 3
  | .vfmin d a b f => d < 32 ∧ a < 32 ∧ b < 32 ∧ f < 4 ∧ f < 3
  | .vfmax d a b f => d < 32 ∧ a < 32 ∧ b < 32 ∧ f < 4 ∧ f < 3
  | .vfcmp d a b f p => d < 32 ∧ a < 32 ∧ b < 32 ∧ f < 4 ∧ p < 8 ∧ p < 3 ∧ f < 3
  | .vfcvt d a t s => d < 32 ∧ a < 32 ∧ t < 8 ∧ s < 8 ∧ t < 7 ∧ s < 7 ∧ t ≠ s ∧ (t < 4 ∨ s < 4)
  | .vfma d a b c f => d < 32 ∧ a < 32 ∧ b < 32 ∧ c < 32 ∧ f < 4 ∧ f < 3
  | .vfms d a b c f => d < 32 ∧ a < 32 ∧ b < 32 ∧ c < 32 ∧ f < 4 ∧ f < 3
  | .vdot d a b => d < 32 ∧ a < 32 ∧ b < 32
  | .vld d a i => d < 32 ∧ a < 32 ∧ -1024 ≤ i ∧ i < 1024
  | .vst d a i => d < 32 ∧ a < 32 ∧ -1024 ≤ i ∧ i < 1024
  | .vlds d a i => d < 32 ∧ a < 32 ∧ -1024 ≤ i ∧ i < 1024
  | .vsts d a i => d < 32 ∧ a < 32 ∧ -1024 ≤ i ∧ i < 1024
  | .vldc d a f i => d < 32 ∧ a < 32 ∧ f < 8 ∧ -128 ≤ i ∧ i < 128 ∧ f < 7
  | .vstc d a f i => d < 32 ∧ a < 32 ∧ f < 8 ∧ -128 ≤ i ∧ i < 128 ∧ f < 7
  | .vldb d a f i => d < 32 ∧ a < 32 ∧ f < 8 ∧ -128 ≤ i ∧ i < 128 ∧ f < 7 ∧ f ≠ 3
  | .vperm d a b w => d < 32 ∧ a < 32 ∧ b < 32 ∧ w < 4 ∧ w < 3
  | .vbcast d a w => d < 32 ∧ a < 32 ∧ w < 4 ∧ w < 3
  | .vext d a x w => d < 32 ∧ a < 32 ∧ x < 32 ∧ w < 4 ∧ w < 3 ∧ x * 2 ^ w < 32
  | .vins d a x w => d < 32 ∧ a < 32 ∧ x < 32 ∧ w < 4 ∧ w < 3 ∧ x * 2 ^ w < 32
  | .vrsum d a t => d < 32 ∧ a < 32 ∧ t < 8 ∧ t < 6
  | .vrmax d a t => d < 32 ∧ a < 32 ∧ t < 8 ∧ t < 6
  | .vrmin d a t => d < 32 ∧ a < 32 ∧ t < 8 ∧ t < 6
  | .tcfg a => a < 32
  | .tcfgr d => d < 32
  | .oclaim d a => d < 32 ∧ a < 32
  | .orel a => a < 32
  | .oload a b => a < 32 ∧ b < 32
  | .ostore a b => a < 32 ∧ b < 32
  | .oclaimS d a => d < 32 ∧ a < 32
  | .mma a b n => a < 32 ∧ b < 32 ∧ n < 2
  | .mmar d a b n => d < 32 ∧ a < 32 ∧ b < 32 ∧ n < 2
  | .accz n => n < 2
  | .accst a n => a < 32 ∧ n < 2
  | .accld a n => a < 32 ∧ n < 2
  | .rsv d a => d < 32 ∧ a < 32
  | .rsvt d a => d < 32 ∧ a < 32
  | .rrel d => d < 32
  | .rwait d a => d < 32 ∧ a < 32
  | .rrd d a => d < 32 ∧ a < 32
  | .rwaitFit d a => d < 32 ∧ a < 32
  | .eqopen d a => d < 32 ∧ a < 32
  | .eqclose d a => d < 32 ∧ a < 32
  | .equnite d a b => d < 32 ∧ a < 32 ∧ b < 32
  | .eqfind d a => d < 32 ∧ a < 32
  | .eqsize d a => d < 32 ∧ a < 32
  | .eqcount d a => d < 32 ∧ a < 32
  | .eqlabel d a b => d < 32 ∧ a < 32 ∧ b < 32
  | .eqsnap d a => d < 32 ∧ a < 32
  | .equndo d a => d < 32 ∧ a < 32
  | .eqkeep d a => d < 32 ∧ a < 32
  | .eqreduceAddF32 d a b => d < 32 ∧ a < 32 ∧ b < 32
  | .eqreduceMinF32 d a b => d < 32 ∧ a < 32 ∧ b < 32
  | .eqreduceMaxF32 d a b => d < 32 ∧ a < 32 ∧ b < 32
  | .eqreduceAddI32 d a b => d < 32 ∧ a < 32 ∧ b < 32
  | .eqreduceMinI32 d a b => d < 32 ∧ a < 32 ∧ b < 32
  | .eqreduceMaxI32 d a b => d < 32 ∧ a < 32 ∧ b < 32
  | .tapPre a b => a < 32 ∧ b < 32
  | .tapPost a b => a < 32 ∧ b < 32
  | .taprd d a => d < 32 ∧ a < 32
  | .wsrd d a => d < 32 ∧ a < 32
  | .wspf a => a < 32
  | .wsupdAdd d a b => d < 32 ∧ a < 32 ∧ b < 32
  | .wsupdMin d a b => d < 32 ∧ a < 32 ∧ b < 32
  | .wsupdMax d a b => d < 32 ∧ a < 32 ∧ b < 32
  | .wsupdOr d a b => d < 32 ∧ a < 32 ∧ b < 32
  | .wsfwd a b => a < 32 ∧ b < 32
  | .wsdone => True
  | .wsdoneKeep => True
  | .wsdoneBypass => True
  | .cMv d a => d < 32 ∧ a < 32
  | .cAdd d a => d < 32 ∧ a < 32
  | .cSub d a => d < 32 ∧ a < 32
  | .cAddi d i => d < 32 ∧ -16 ≤ i ∧ i < 16
  | .cLi d i => d < 32 ∧ -16 ≤ i ∧ i < 16
  | .cSlli d i => d < 32 ∧ i < 32
  | .cSrai d i => d < 32 ∧ i < 32
  | .cAnd d a => d < 32 ∧ a < 32
  | .cOr d a => d < 32 ∧ a < 32
  | .cXor d a => d < 32 ∧ a < 32
  | .cLd d a => d < 32 ∧ a < 32
  | .cSt d a => d < 32 ∧ a < 32
  | .cBeqz d i => d < 32 ∧ -16 ≤ i ∧ i < 16
  | .cBnez d i => d < 32 ∧ -16 ≤ i ∧ i < 16
  | .cJ i => -512 ≤ i ∧ i < 512
  | .cJr a => a < 32
  | .cNop => True
  | .cBrk => True
  | .courierArrival => False
  | .courierSlotStart => False
  | .caravanStart => False
  | .helpersEnded => False
  | .safedlDeadline => False
  | .contextSave => False
  | .chunkCommit => False
  | .priorityTokenGrant => False
  | .remoteStoreGroup => False
  | .remoteAtomic => False
  | .remoteRead => False
  | .scratchStoreAck => False
  | .peerWriteArrival => False
  | .peerLoadArrival => False
  | .peerAck => False
  | .hostWrite => False
  | .hostRead => False
  | .hostSnoop => False
  | .backInvalidate => False
  | .l2Fill => False
  | .bankOpAccept => False
  | .bankOpPerform => False
  | .engineAccept => False
  | .enginePieceDone => False
  | .arriveLoad => False
  | .arriveStore => False
  | .barrierCfgWrite => False
  | .pendWrite => False
  | .barrierAbort => False
  | .chainArrival => False
  | .chainRelease => False
  | .lock => False
  | .lockRelease => False
  | .tryLock => False
  | .wait => False
  | .lineWrite => False
  | .take => False
  | .matrixTake => False
  | .matrixRetire => False
  | .tapAccept => False
  | .reservoirTick => False
  | .sprintCut => False
  | .supplySettle => False
  | .ratioSwitch => False
  | .sensorSample => False
  | .arbiterSample => False
  | .fthrNAssert => False
  | .currentSenseAssert => False
  | .fastThrottleRelease => False
  | .timer => False
  | .userTrapEntry => False
  | .supervisorEntry => False
  | .preemptRequest => False
  | .preemptCancel => False
  | .bankFormatWrite => False
  | .ctxDomWrite => False
  | .errRingMove => False
  | .sendrDelivery => False
  | .senderCompletion => False
  | .putqArrival => False
  | .wsmsgArrival => False
  | .wsfwdArrival => False
  | .handlerStart => False
  | .handlerOverrun => False
  | .handlerTableWrite => False
  | .handlerMemoryWrite => False
  | .eqAsyncCompletion => False
  | .admissionAttempt => False
  | .coreReservation => False
  | .post => False
  | .schedPreempt => False
  | .caravanPreemptTick => False
  | .caravanSave => False
  | .signal => False
  | .cancel => False
  | .endcar => False
  | .pcolsWrite => False
  | .fclose => False
  | .bstop => False
  | .preset => False
  | .snapGo => False
  | .snapRelease => False
  | .snapTimer => False
  | .dbgsnapN => False
  | .snapshotLatch => False
  | .vfReqWrite => False
  | .throtFwWrite => False
  | .rsvFillfwWrite => False
  | .tmStep => False
  | .timingMessage => False
  | .slackWindow => False
  | .slackFigure => False
  | .migrationCount => False
  | .migrationFinish => False
  | .counterHalving => False
  | .tinv => False
  | .promote => False
  | .promotionFinish => False
  | .darkTierPowerUp => False
  | .courierDoorbell => False
  | .powerOn => False
  | .startGo => False
  | .perst => False
  | .startDone => False
  | .startStageTimeout => False
  | .attestDoorbell => False
  | .attestReport => False
  | .checkpointGo => False
  | .checkpointEnd => False
  | .trailFlitReceive => False
  | .tlTrain => False
  | .registerWrite => False
  | .illegalEncoding => False
  | .tierPowerOff => False
  | .hostLinkDown => False
  | .hostLinkUp => False
  | .trailLinkUp => False
  | .startStepEnd => False

/-- Well-formedness as a Boolean, for tests. -/
def Instr.wf : Instr → Bool
  | .add d a b => decide (d < 32 ∧ a < 32 ∧ b < 32)
  | .sub d a b => decide (d < 32 ∧ a < 32 ∧ b < 32)
  | .and d a b => decide (d < 32 ∧ a < 32 ∧ b < 32)
  | .or d a b => decide (d < 32 ∧ a < 32 ∧ b < 32)
  | .xor d a b => decide (d < 32 ∧ a < 32 ∧ b < 32)
  | .andn d a b => decide (d < 32 ∧ a < 32 ∧ b < 32)
  | .sll d a b => decide (d < 32 ∧ a < 32 ∧ b < 32)
  | .srl d a b => decide (d < 32 ∧ a < 32 ∧ b < 32)
  | .sra d a b => decide (d < 32 ∧ a < 32 ∧ b < 32)
  | .slt d a b => decide (d < 32 ∧ a < 32 ∧ b < 32)
  | .sltn d a b => decide (d < 32 ∧ a < 32 ∧ b < 32)
  | .min d a b => decide (d < 32 ∧ a < 32 ∧ b < 32)
  | .max d a b => decide (d < 32 ∧ a < 32 ∧ b < 32)
  | .minn d a b => decide (d < 32 ∧ a < 32 ∧ b < 32)
  | .maxn d a b => decide (d < 32 ∧ a < 32 ∧ b < 32)
  | .addv d a b => decide (d < 32 ∧ a < 32 ∧ b < 32)
  | .subv d a b => decide (d < 32 ∧ a < 32 ∧ b < 32)
  | .clz d a => decide (d < 32 ∧ a < 32)
  | .ctz d a => decide (d < 32 ∧ a < 32)
  | .popc d a => decide (d < 32 ∧ a < 32)
  | .sextB d a => decide (d < 32 ∧ a < 32)
  | .sextH d a => decide (d < 32 ∧ a < 32)
  | .sextW d a => decide (d < 32 ∧ a < 32)
  | .zextB d a => decide (d < 32 ∧ a < 32)
  | .zextH d a => decide (d < 32 ∧ a < 32)
  | .zextW d a => decide (d < 32 ∧ a < 32)
  | .mul d a b => decide (d < 32 ∧ a < 32 ∧ b < 32)
  | .mulh d a b => decide (d < 32 ∧ a < 32 ∧ b < 32)
  | .mulhn d a b => decide (d < 32 ∧ a < 32 ∧ b < 32)
  | .mulv d a b => decide (d < 32 ∧ a < 32 ∧ b < 32)
  | .div d a b => decide (d < 32 ∧ a < 32 ∧ b < 32)
  | .divn d a b => decide (d < 32 ∧ a < 32 ∧ b < 32)
  | .rem d a b => decide (d < 32 ∧ a < 32 ∧ b < 32)
  | .remn d a b => decide (d < 32 ∧ a < 32 ∧ b < 32)
  | .addi d a i => decide (d < 32 ∧ a < 32 ∧ -16384 ≤ i ∧ i < 16384)
  | .andi d a i => decide (d < 32 ∧ a < 32 ∧ -16384 ≤ i ∧ i < 16384)
  | .ori d a i => decide (d < 32 ∧ a < 32 ∧ -16384 ≤ i ∧ i < 16384)
  | .xori d a i => decide (d < 32 ∧ a < 32 ∧ -16384 ≤ i ∧ i < 16384)
  | .slli d a h => decide (d < 32 ∧ a < 32 ∧ h < 64)
  | .srli d a h => decide (d < 32 ∧ a < 32 ∧ h < 64)
  | .srai d a h => decide (d < 32 ∧ a < 32 ∧ h < 64)
  | .slti d a i => decide (d < 32 ∧ a < 32 ∧ -8192 ≤ i ∧ i < 8192)
  | .sltni d a i => decide (d < 32 ∧ a < 32 ∧ -8192 ≤ i ∧ i < 8192)
  | .li d i => decide (d < 32 ∧ -524288 ≤ i ∧ i < 524288)
  | .lis d i => decide (d < 32 ∧ i < 65536)
  | .oxw d a => decide (d < 32 ∧ a < 32 ∧ d < 8)
  | .oxr d a => decide (d < 32 ∧ a < 32 ∧ a < 8)
  | .oxi d i => decide (d < 32 ∧ -4096 ≤ i ∧ i < 4096 ∧ d < 8)
  | .beq a b i => decide (a < 32 ∧ b < 32 ∧ -16384 ≤ i ∧ i < 16384)
  | .bne a b i => decide (a < 32 ∧ b < 32 ∧ -16384 ≤ i ∧ i < 16384)
  | .blt a b i => decide (a < 32 ∧ b < 32 ∧ -16384 ≤ i ∧ i < 16384)
  | .bge a b i => decide (a < 32 ∧ b < 32 ∧ -16384 ≤ i ∧ i < 16384)
  | .bltn a b i => decide (a < 32 ∧ b < 32 ∧ -16384 ≤ i ∧ i < 16384)
  | .bgen a b i => decide (a < 32 ∧ b < 32 ∧ -16384 ≤ i ∧ i < 16384)
  | .jal d i => decide (d < 32 ∧ -524288 ≤ i ∧ i < 524288)
  | .jalr d a i => decide (d < 32 ∧ a < 32 ∧ -16384 ≤ i ∧ i < 16384)
  | .lsetup n a i => decide (n < 2 ∧ a < 32 ∧ i < 32768 ∧ 3 ≤ i)
  | .lsetupi n c i => decide (n < 2 ∧ c < 1024 ∧ i < 1024 ∧ 3 ≤ i)
  | .mfs d r => decide (d < 32 ∧ r < 4096)
  | .mts a r => decide (a < 32 ∧ r < 4096)
  | .mset a r => decide (a < 32 ∧ r < 4096)
  | .mclr a r => decide (a < 32 ∧ r < 4096)
  | .start a b c => decide (a < 32 ∧ b < 32 ∧ c < 32)
  | .retire => true
  | .yield => true
  | .join a => decide (a < 32)
  | .safe i => decide (i < 65536)
  | .mpost a b c => decide (a < 32 ∧ b < 32 ∧ c < 32)
  | .trap i => decide (i < 65536)
  | .brk i => decide (i < 65536)
  | .eret => true
  | .uret => true
  | .wfi => true
  | .ifence => true
  | .chunk => true
  | .fenceS => true
  | .fenceF => true
  | .nop => true
  | .plbw a b => decide (a < 32 ∧ b < 32)
  | .plbinv a => decide (a < 32)
  | .ld d a s i => decide (d < 32 ∧ a < 32 ∧ s < 4 ∧ -1024 ≤ i ∧ i < 1024)
  | .ldSigned d a s i => decide (d < 32 ∧ a < 32 ∧ s < 4 ∧ -1024 ≤ i ∧ i < 1024 ∧ s < 3)
  | .ldx d a s b => decide (d < 32 ∧ a < 32 ∧ s < 4 ∧ b < 32)
  | .ldxSigned d a s b => decide (d < 32 ∧ a < 32 ∧ s < 4 ∧ b < 32 ∧ s < 3)
  | .st d a s i => decide (d < 32 ∧ a < 32 ∧ s < 4 ∧ -1024 ≤ i ∧ i < 1024)
  | .stx d a s b => decide (d < 32 ∧ a < 32 ∧ s < 4 ∧ b < 32)
  | .ldp d a s p i => decide (d < 32 ∧ a < 32 ∧ s < 4 ∧ p < 2 ∧ -1024 ≤ i ∧ i < 1024 ∧ a < 8)
  | .stp d a s p i => decide (d < 32 ∧ a < 32 ∧ s < 4 ∧ p < 2 ∧ -1024 ≤ i ∧ i < 1024 ∧ a < 8)
  | .pset d a => decide (d < 32 ∧ a < 32 ∧ d < 8)
  | .pget d a => decide (d < 32 ∧ a < 32 ∧ a < 8)
  | .padd d a => decide (d < 32 ∧ a < 32 ∧ d < 8)
  | .pcfg d a => decide (d < 32 ∧ a < 32 ∧ d < 8)
  | .amoAdd d a b w => decide (d < 32 ∧ a < 32 ∧ b < 32 ∧ w < 2)
  | .amoAnd d a b w => decide (d < 32 ∧ a < 32 ∧ b < 32 ∧ w < 2)
  | .amoOr d a b w => decide (d < 32 ∧ a < 32 ∧ b < 32 ∧ w < 2)
  | .amoXor d a b w => decide (d < 32 ∧ a < 32 ∧ b < 32 ∧ w < 2)
  | .amoMin d a b w => decide (d < 32 ∧ a < 32 ∧ b < 32 ∧ w < 2)
  | .amoMax d a b w => decide (d < 32 ∧ a < 32 ∧ b < 32 ∧ w < 2)
  | .amoMinn d a b w => decide (d < 32 ∧ a < 32 ∧ b < 32 ∧ w < 2)
  | .amoMaxn d a b w => decide (d < 32 ∧ a < 32 ∧ b < 32 ∧ w < 2)
  | .amoSwap d a b w => decide (d < 32 ∧ a < 32 ∧ b < 32 ∧ w < 2)
  | .cas d a b w => decide (d < 32 ∧ a < 32 ∧ b < 32 ∧ w < 2)
  | .mredAdd d a b t => decide (d < 32 ∧ a < 32 ∧ b < 32 ∧ t < 4 ∧ t < 3)
  | .mredMin d a b t => decide (d < 32 ∧ a < 32 ∧ b < 32 ∧ t < 4 ∧ t < 3)
  | .mredMax d a b t => decide (d < 32 ∧ a < 32 ∧ b < 32 ∧ t < 4 ∧ t < 3)
  | .mcas d a b t => decide (d < 32 ∧ a < 32 ∧ b < 32 ∧ t < 4 ∧ t < 2)
  | .msca d a b => decide (d < 32 ∧ a < 32 ∧ b < 32)
  | .prefL1 a i => decide (a < 32 ∧ -1024 ≤ i ∧ i < 1024)
  | .prefL2 a i => decide (a < 32 ∧ -1024 ≤ i ∧ i < 1024)
  | .clean a i => decide (a < 32 ∧ -1024 ≤ i ∧ i < 1024)
  | .dead a i => decide (a < 32 ∧ -1024 ≤ i ∧ i < 1024)
  | .sendr d a b => decide (d < 32 ∧ a < 32 ∧ b < 32 ∧ 1 ≤ d ∧ 1 ≤ a)
  | .sendrArm d => decide (d < 32 ∧ 1 ≤ d)
  | .putq d a b => decide (d < 32 ∧ a < 32 ∧ b < 32)
  | .ibpop d => decide (d < 32 ∧ 1 ≤ d ∧ d % 2 = 0)
  | .iblen d => decide (d < 32)
  | .wsmsg d a b => decide (d < 32 ∧ a < 32 ∧ b < 32)
  | .cpy d a b => decide (d < 32 ∧ a < 32 ∧ b < 32)
  | .cpy2d d a b => decide (d < 32 ∧ a < 32 ∧ b < 32)
  | .gath d a b => decide (d < 32 ∧ a < 32 ∧ b < 32)
  | .scat d a b => decide (d < 32 ∧ a < 32 ∧ b < 32)
  | .engq d a => decide (d < 32 ∧ a < 32)
  | .engrst d a => decide (d < 32 ∧ a < 32)
  | .fadd d a b => decide (d < 32 ∧ a < 32 ∧ b < 32)
  | .fsub d a b => decide (d < 32 ∧ a < 32 ∧ b < 32)
  | .fmul d a b => decide (d < 32 ∧ a < 32 ∧ b < 32)
  | .fdiv d a b => decide (d < 32 ∧ a < 32 ∧ b < 32)
  | .fsqrt d a => decide (d < 32 ∧ a < 32)
  | .fmin d a b => decide (d < 32 ∧ a < 32 ∧ b < 32)
  | .fmax d a b => decide (d < 32 ∧ a < 32 ∧ b < 32)
  | .fabs d a => decide (d < 32 ∧ a < 32)
  | .fneg d a => decide (d < 32 ∧ a < 32)
  | .fsgnj d a b => decide (d < 32 ∧ a < 32 ∧ b < 32)
  | .feq d a b => decide (d < 32 ∧ a < 32 ∧ b < 32)
  | .flt d a b => decide (d < 32 ∧ a < 32 ∧ b < 32)
  | .fle d a b => decide (d < 32 ∧ a < 32 ∧ b < 32)
  | .fclass d a => decide (d < 32 ∧ a < 32)
  | .fcvt d a t s => decide (d < 32 ∧ a < 32 ∧ t < 16 ∧ s < 16 ∧ t < 7 ∧ s < 7 ∧ t ≠ s ∧ (4 ≤ t ∨ 4 ≤ s))
  | .fma d a b c => decide (d < 32 ∧ a < 32 ∧ b < 32 ∧ c < 32)
  | .fms d a b c => decide (d < 32 ∧ a < 32 ∧ b < 32 ∧ c < 32)
  | .fnma d a b c => decide (d < 32 ∧ a < 32 ∧ b < 32 ∧ c < 32)
  | .vadd d a b w s => decide (d < 32 ∧ a < 32 ∧ b < 32 ∧ w < 4 ∧ s < 2 ∧ w < 3)
  | .vsub d a b w s => decide (d < 32 ∧ a < 32 ∧ b < 32 ∧ w < 4 ∧ s < 2 ∧ w < 3)
  | .vmul d a b w => decide (d < 32 ∧ a < 32 ∧ b < 32 ∧ w < 4 ∧ w < 3)
  | .vmin d a b w u => decide (d < 32 ∧ a < 32 ∧ b < 32 ∧ w < 4 ∧ u < 2 ∧ w < 3)
  | .vmax d a b w u => decide (d < 32 ∧ a < 32 ∧ b < 32 ∧ w < 4 ∧ u < 2 ∧ w < 3)
  | .vand d a b w => decide (d < 32 ∧ a < 32 ∧ b < 32 ∧ w < 4 ∧ w < 3)
  | .vor d a b w => decide (d < 32 ∧ a < 32 ∧ b < 32 ∧ w < 4 ∧ w < 3)
  | .vxor d a b w => decide (d < 32 ∧ a < 32 ∧ b < 32 ∧ w < 4 ∧ w < 3)
  | .vsll d a b w => decide (d < 32 ∧ a < 32 ∧ b < 32 ∧ w < 4 ∧ w < 3)
  | .vsrl d a b w => decide (d < 32 ∧ a < 32 ∧ b < 32 ∧ w < 4 ∧ w < 3)
  | .vsra d a b w => decide (d < 32 ∧ a < 32 ∧ b < 32 ∧ w < 4 ∧ w < 3)
  | .vcmpeq d a b w => decide (d < 32 ∧ a < 32 ∧ b < 32 ∧ w < 4 ∧ w < 3)
  | .vcmplt d a b w u => decide (d < 32 ∧ a < 32 ∧ b < 32 ∧ w < 4 ∧ u < 2 ∧ w < 3)
  | .vsel d a b w => decide (d < 32 ∧ a < 32 ∧ b < 32 ∧ w < 4 ∧ w < 3)
  | .vabs d a w => decide (d < 32 ∧ a < 32 ∧ w < 4 ∧ w < 3)
  | .vfadd d a b f => decide (d < 32 ∧ a < 32 ∧ b < 32 ∧ f < 4 ∧ f < 3)
  | .vfsub d a b f => decide (d < 32 ∧ a < 32 ∧ b < 32 ∧ f < 4 ∧ f < 3)
  | .vfmul d a b f => decide (d < 32 ∧ a < 32 ∧ b < 32 ∧ f < 4 ∧ f < 3)
  | .vfdiv d a b f => decide (d < 32 ∧ a < 32 ∧ b < 32 ∧ f < 4 ∧ f < 3)
  | .vfmin d a b f => decide (d < 32 ∧ a < 32 ∧ b < 32 ∧ f < 4 ∧ f < 3)
  | .vfmax d a b f => decide (d < 32 ∧ a < 32 ∧ b < 32 ∧ f < 4 ∧ f < 3)
  | .vfcmp d a b f p => decide (d < 32 ∧ a < 32 ∧ b < 32 ∧ f < 4 ∧ p < 8 ∧ p < 3 ∧ f < 3)
  | .vfcvt d a t s => decide (d < 32 ∧ a < 32 ∧ t < 8 ∧ s < 8 ∧ t < 7 ∧ s < 7 ∧ t ≠ s ∧ (t < 4 ∨ s < 4))
  | .vfma d a b c f => decide (d < 32 ∧ a < 32 ∧ b < 32 ∧ c < 32 ∧ f < 4 ∧ f < 3)
  | .vfms d a b c f => decide (d < 32 ∧ a < 32 ∧ b < 32 ∧ c < 32 ∧ f < 4 ∧ f < 3)
  | .vdot d a b => decide (d < 32 ∧ a < 32 ∧ b < 32)
  | .vld d a i => decide (d < 32 ∧ a < 32 ∧ -1024 ≤ i ∧ i < 1024)
  | .vst d a i => decide (d < 32 ∧ a < 32 ∧ -1024 ≤ i ∧ i < 1024)
  | .vlds d a i => decide (d < 32 ∧ a < 32 ∧ -1024 ≤ i ∧ i < 1024)
  | .vsts d a i => decide (d < 32 ∧ a < 32 ∧ -1024 ≤ i ∧ i < 1024)
  | .vldc d a f i => decide (d < 32 ∧ a < 32 ∧ f < 8 ∧ -128 ≤ i ∧ i < 128 ∧ f < 7)
  | .vstc d a f i => decide (d < 32 ∧ a < 32 ∧ f < 8 ∧ -128 ≤ i ∧ i < 128 ∧ f < 7)
  | .vldb d a f i => decide (d < 32 ∧ a < 32 ∧ f < 8 ∧ -128 ≤ i ∧ i < 128 ∧ f < 7 ∧ f ≠ 3)
  | .vperm d a b w => decide (d < 32 ∧ a < 32 ∧ b < 32 ∧ w < 4 ∧ w < 3)
  | .vbcast d a w => decide (d < 32 ∧ a < 32 ∧ w < 4 ∧ w < 3)
  | .vext d a x w => decide (d < 32 ∧ a < 32 ∧ x < 32 ∧ w < 4 ∧ w < 3 ∧ x * 2 ^ w < 32)
  | .vins d a x w => decide (d < 32 ∧ a < 32 ∧ x < 32 ∧ w < 4 ∧ w < 3 ∧ x * 2 ^ w < 32)
  | .vrsum d a t => decide (d < 32 ∧ a < 32 ∧ t < 8 ∧ t < 6)
  | .vrmax d a t => decide (d < 32 ∧ a < 32 ∧ t < 8 ∧ t < 6)
  | .vrmin d a t => decide (d < 32 ∧ a < 32 ∧ t < 8 ∧ t < 6)
  | .tcfg a => decide (a < 32)
  | .tcfgr d => decide (d < 32)
  | .oclaim d a => decide (d < 32 ∧ a < 32)
  | .orel a => decide (a < 32)
  | .oload a b => decide (a < 32 ∧ b < 32)
  | .ostore a b => decide (a < 32 ∧ b < 32)
  | .oclaimS d a => decide (d < 32 ∧ a < 32)
  | .mma a b n => decide (a < 32 ∧ b < 32 ∧ n < 2)
  | .mmar d a b n => decide (d < 32 ∧ a < 32 ∧ b < 32 ∧ n < 2)
  | .accz n => decide (n < 2)
  | .accst a n => decide (a < 32 ∧ n < 2)
  | .accld a n => decide (a < 32 ∧ n < 2)
  | .rsv d a => decide (d < 32 ∧ a < 32)
  | .rsvt d a => decide (d < 32 ∧ a < 32)
  | .rrel d => decide (d < 32)
  | .rwait d a => decide (d < 32 ∧ a < 32)
  | .rrd d a => decide (d < 32 ∧ a < 32)
  | .rwaitFit d a => decide (d < 32 ∧ a < 32)
  | .eqopen d a => decide (d < 32 ∧ a < 32)
  | .eqclose d a => decide (d < 32 ∧ a < 32)
  | .equnite d a b => decide (d < 32 ∧ a < 32 ∧ b < 32)
  | .eqfind d a => decide (d < 32 ∧ a < 32)
  | .eqsize d a => decide (d < 32 ∧ a < 32)
  | .eqcount d a => decide (d < 32 ∧ a < 32)
  | .eqlabel d a b => decide (d < 32 ∧ a < 32 ∧ b < 32)
  | .eqsnap d a => decide (d < 32 ∧ a < 32)
  | .equndo d a => decide (d < 32 ∧ a < 32)
  | .eqkeep d a => decide (d < 32 ∧ a < 32)
  | .eqreduceAddF32 d a b => decide (d < 32 ∧ a < 32 ∧ b < 32)
  | .eqreduceMinF32 d a b => decide (d < 32 ∧ a < 32 ∧ b < 32)
  | .eqreduceMaxF32 d a b => decide (d < 32 ∧ a < 32 ∧ b < 32)
  | .eqreduceAddI32 d a b => decide (d < 32 ∧ a < 32 ∧ b < 32)
  | .eqreduceMinI32 d a b => decide (d < 32 ∧ a < 32 ∧ b < 32)
  | .eqreduceMaxI32 d a b => decide (d < 32 ∧ a < 32 ∧ b < 32)
  | .tapPre a b => decide (a < 32 ∧ b < 32)
  | .tapPost a b => decide (a < 32 ∧ b < 32)
  | .taprd d a => decide (d < 32 ∧ a < 32)
  | .wsrd d a => decide (d < 32 ∧ a < 32)
  | .wspf a => decide (a < 32)
  | .wsupdAdd d a b => decide (d < 32 ∧ a < 32 ∧ b < 32)
  | .wsupdMin d a b => decide (d < 32 ∧ a < 32 ∧ b < 32)
  | .wsupdMax d a b => decide (d < 32 ∧ a < 32 ∧ b < 32)
  | .wsupdOr d a b => decide (d < 32 ∧ a < 32 ∧ b < 32)
  | .wsfwd a b => decide (a < 32 ∧ b < 32)
  | .wsdone => true
  | .wsdoneKeep => true
  | .wsdoneBypass => true
  | .cMv d a => decide (d < 32 ∧ a < 32)
  | .cAdd d a => decide (d < 32 ∧ a < 32)
  | .cSub d a => decide (d < 32 ∧ a < 32)
  | .cAddi d i => decide (d < 32 ∧ -16 ≤ i ∧ i < 16)
  | .cLi d i => decide (d < 32 ∧ -16 ≤ i ∧ i < 16)
  | .cSlli d i => decide (d < 32 ∧ i < 32)
  | .cSrai d i => decide (d < 32 ∧ i < 32)
  | .cAnd d a => decide (d < 32 ∧ a < 32)
  | .cOr d a => decide (d < 32 ∧ a < 32)
  | .cXor d a => decide (d < 32 ∧ a < 32)
  | .cLd d a => decide (d < 32 ∧ a < 32)
  | .cSt d a => decide (d < 32 ∧ a < 32)
  | .cBeqz d i => decide (d < 32 ∧ -16 ≤ i ∧ i < 16)
  | .cBnez d i => decide (d < 32 ∧ -16 ≤ i ∧ i < 16)
  | .cJ i => decide (-512 ≤ i ∧ i < 512)
  | .cJr a => decide (a < 32)
  | .cNop => true
  | .cBrk => true
  | .courierArrival => false
  | .courierSlotStart => false
  | .caravanStart => false
  | .helpersEnded => false
  | .safedlDeadline => false
  | .contextSave => false
  | .chunkCommit => false
  | .priorityTokenGrant => false
  | .remoteStoreGroup => false
  | .remoteAtomic => false
  | .remoteRead => false
  | .scratchStoreAck => false
  | .peerWriteArrival => false
  | .peerLoadArrival => false
  | .peerAck => false
  | .hostWrite => false
  | .hostRead => false
  | .hostSnoop => false
  | .backInvalidate => false
  | .l2Fill => false
  | .bankOpAccept => false
  | .bankOpPerform => false
  | .engineAccept => false
  | .enginePieceDone => false
  | .arriveLoad => false
  | .arriveStore => false
  | .barrierCfgWrite => false
  | .pendWrite => false
  | .barrierAbort => false
  | .chainArrival => false
  | .chainRelease => false
  | .lock => false
  | .lockRelease => false
  | .tryLock => false
  | .wait => false
  | .lineWrite => false
  | .take => false
  | .matrixTake => false
  | .matrixRetire => false
  | .tapAccept => false
  | .reservoirTick => false
  | .sprintCut => false
  | .supplySettle => false
  | .ratioSwitch => false
  | .sensorSample => false
  | .arbiterSample => false
  | .fthrNAssert => false
  | .currentSenseAssert => false
  | .fastThrottleRelease => false
  | .timer => false
  | .userTrapEntry => false
  | .supervisorEntry => false
  | .preemptRequest => false
  | .preemptCancel => false
  | .bankFormatWrite => false
  | .ctxDomWrite => false
  | .errRingMove => false
  | .sendrDelivery => false
  | .senderCompletion => false
  | .putqArrival => false
  | .wsmsgArrival => false
  | .wsfwdArrival => false
  | .handlerStart => false
  | .handlerOverrun => false
  | .handlerTableWrite => false
  | .handlerMemoryWrite => false
  | .eqAsyncCompletion => false
  | .admissionAttempt => false
  | .coreReservation => false
  | .post => false
  | .schedPreempt => false
  | .caravanPreemptTick => false
  | .caravanSave => false
  | .signal => false
  | .cancel => false
  | .endcar => false
  | .pcolsWrite => false
  | .fclose => false
  | .bstop => false
  | .preset => false
  | .snapGo => false
  | .snapRelease => false
  | .snapTimer => false
  | .dbgsnapN => false
  | .snapshotLatch => false
  | .vfReqWrite => false
  | .throtFwWrite => false
  | .rsvFillfwWrite => false
  | .tmStep => false
  | .timingMessage => false
  | .slackWindow => false
  | .slackFigure => false
  | .migrationCount => false
  | .migrationFinish => false
  | .counterHalving => false
  | .tinv => false
  | .promote => false
  | .promotionFinish => false
  | .darkTierPowerUp => false
  | .courierDoorbell => false
  | .powerOn => false
  | .startGo => false
  | .perst => false
  | .startDone => false
  | .startStageTimeout => false
  | .attestDoorbell => false
  | .attestReport => false
  | .checkpointGo => false
  | .checkpointEnd => false
  | .trailFlitReceive => false
  | .tlTrain => false
  | .registerWrite => false
  | .illegalEncoding => false
  | .tierPowerOff => false
  | .hostLinkDown => false
  | .hostLinkUp => false
  | .trailLinkUp => false
  | .startStepEnd => false

end Sys2Proof
end

