-- ==== Sys2Proof/Certificates/Slice0/Obligations.lean ====
section
/-!
DEFINITION. The statements for the provers, each with the rules of the specification that it formalises.
-/

/-! ## Reset, memory, decoding, the step -/

namespace Sys2Proof.Claims

open Sys2Proof Sys2Proof.Machine

/-- The state of a context as ctx.status shows it (R18, R357). -/
def stateNo : CtxSt → Nat
  | .idle => 0
  | .ready => 1
  | .stalled => 2
  | .waiting => 3
  | .saved => 4

/-- ctx.status (R357). -/
def statusWord (c : Ctx) : Nat :=
  stateNo c.st + (if c.st = .waiting then 16 * c.why else 0) + (if c.lvl = .sup then 256 else 0) + (if c.r.preReq then 512 else 0)

/-- What a special register holds for context `n` of a compute core (R98; R45, R47, R111, R167, R273, R357, R435, R438): the numbers whose value is a
register of the context, of its core or of its column. -/
def specialReg : Nat → Option (State → Nat → Nat → W64)
  | 0x000 => some fun s k n => (s.regs (.ctx k n)).fx
  | 0x001 => some fun s k n => (s.regs (.ctx k n)).uvec
  | 0x002 => some fun s k n => (s.regs (.ctx k n)).upc
  | 0x003 => some fun s k n => ((s.regs (.ctx k n)).ucause &&& 0xFF#64) ||| (if (s.regs (.ctx k n)).act then 1#64 <<< 63 else 0)
  | 0x004 => some fun s k n => (s.regs (.ctx k n)).uinfo
  | 0x005 => some fun s k n => (s.regs (.ctx k n)).uie
  | 0x006 => some fun s k n => (s.regs (.ctx k n)).lmbase
  | 0x007 => some fun s k n => (s.regs (.ctx k n)).tmrCmp
  | 0x008 => some fun s k n => (s.regs (.ctx k n)).rank
  | 0x009 => some fun s k n => (s.regs (.ctx k n)).tchk
  | 0x010 => some fun s k n => (s.regs (.ctx k n)).loop0.start
  | 0x011 => some fun s k n => (s.regs (.ctx k n)).loop0.stop
  | 0x012 => some fun s k n => (s.regs (.ctx k n)).loop0.count
  | 0x013 => some fun s k n => (s.regs (.ctx k n)).loop1.start
  | 0x014 => some fun s k n => (s.regs (.ctx k n)).loop1.stop
  | 0x015 => some fun s k n => (s.regs (.ctx k n)).loop1.count
  | 0x100 => some fun s _ _ => BitVec.ofNat 64 s.time
  | 0x101 => some fun _ k _ => BitVec.ofNat 64 (coreId k)
  | 0x102 => some fun s k _ => (s.core k).bandId
  | 0x103 => some fun s k _ => (s.core k).caravanId
  | 0x104 => some fun _ _ n => BitVec.ofNat 64 n
  | 0x108 => some fun s k n => (s.regs (.ctx k n)).tcfg
  | 0x110 => some fun s k _ => if s.darkCols.contains (colOf k) then 0 else BitVec.ofNat 64 (s.col (colOf k)).fill
  | 0x111 => some fun s k _ => if s.darkCols.contains (colOf k) then 0 else BitVec.ofNat 64 (s.col (colOf k)).cap
  | 0x113 => some fun s k n => BitVec.ofNat 64 (s.ctx (.ctx k n)).rsvHeld
  | 0x114 => some fun s k n => BitVec.ofNat 64 (s.ctx (.ctx k n)).rsvSpent
  | 0x116 => some fun s k _ => BitVec.ofNat 64 (s.col (colOf k)).level
  | 0x118 => some fun s k n => (s.regs (.ctx k n)).tapCount
  | 0x200 => some fun s k n => (s.regs (.ctx k n)).svec
  | 0x201 => some fun s k n => (s.regs (.ctx k n)).spc
  | 0x202 => some fun s k n => (s.regs (.ctx k n)).scause
  | 0x203 => some fun s k n => (s.regs (.ctx k n)).sinfo
  | 0x204 => some fun s k n => (s.regs (.ctx k n)).sstat
  | 0x205 => some fun s k n => (s.regs (.ctx k n)).sscratch
  | 0x208 => some fun s k n => BitVec.ofNat 64 (statusWord (s.ctx (.ctx k n)))
  | 0x209 => some fun s k n => (s.regs (.ctx k n)).safedl
  | 0x20A => some fun s k n => (s.regs (.ctx k n)).save
  | 0x20B => some fun s k n => BitVec.ofNat 64 ((if (s.regs (.ctx k n)).preReq then 1 else 0) + (if (s.regs (.ctx k n)).preDlv then 2 else 0))
  | 0x20C => some fun s k n => (s.regs (.ctx k n)).dom
  | 0x210 => some fun s k n => (s.regs (.ctx k n)).tringBase
  | 0x211 => some fun s k n => (s.regs (.ctx k n)).tringSize
  | 0x212 => some fun s k n => (s.regs (.ctx k n)).tringOvf
  | 0x220 => some fun s k _ => (s.core k).migThresh
  | 0x228 => some fun s k _ => (s.core k).tapTbase
  | 0x230 => some fun s k n => (s.regs (.ctx k n)).plbCtl
  | 0x231 => some fun s k n => (s.regs (.ctx k n)).plbFva
  | num =>
    if 0x018 ≤ num ∧ num ≤ 0x01F then some fun s k n => (s.regs (.ctx k n)).PW (num - 0x018)
    else if 0x020 ≤ num ∧ num ≤ 0x027 then some fun s k _ => BitVec.ofNat 64 (look 0 (s.core k).bfmt (num - 0x020))
    else if 0x120 ≤ num ∧ num ≤ 0x12F then some fun s k _ => BitVec.ofNat 64 (look 0 (s.col (colOf k)).cost (num - 0x120))
    else none

/-- The numbers whose row of R98 gives the reset value 0. -/
def resetZero (num : Nat) : Bool :=
  num ≤ 0x007 || num = 0x009 || (0x010 ≤ num && num ≤ 0x015) || (0x018 ≤ num && num ≤ 0x027) || num = 0x108 || num = 0x118 || (0x200 ≤ num && num ≤ 0x231)

/-- An agent whose turn it is, having taken an issue slot: the state in which its instruction is fetched (R20). -/
def turnState (s : State) (ag : Agent) : State := State.takeSlot { s with cur := ag } ag

/-- Nothing falls due at the present instant. -/
def NothingDue (s : State) : Prop := ∀ t ev rest, s.agenda = (t, ev) :: rest → s.time < t

/-- What the step fetches for an agent that goes on at a boundary. -/
structure Fetches (s : State) (ag : Agent) (s1 : State) (bs : List Byte) : Prop where
  noAgenda : NothingDue s
  turn : s.pick = some (.run ag)
  calm : State.due { s with cur := ag } ag = false
  inTime : ∀ k, ag = .ws k → State.overrun { s with cur := ag } k = false
  bound : (s.ctx ag).atBoundary = true
  ready : State.mayReady { s with cur := ag } ag = false
  fetch : (turnState s ag).fetch ag = .ok (s1, bs)

end Sys2Proof.Claims

open Sys2Proof Sys2Proof.Machine Sys2Proof.Claims

/-- R5, R98, R478: after reset every special register of a compute context whose reset value R98 gives as 0 reads 0, every context is idle at user level,
no PLB entry is valid, every byte of memory is zero and nothing is poisoned, and the Iluet is ready. That memory outside DRAM starts at zero too is the model's
choice (log 2). -/
def Sys2Proof.Claims.ResetZeros : Prop :=
  (∀ num rd core n, specialReg num = some rd → resetZero num = true → rd State.reset core n = 0) ∧
  (∀ core n, (State.reset.ctx (.ctx core n)).st = .idle ∧ (State.reset.ctx (.ctx core n)).lvl = .user) ∧
  (∀ core e, (look {} (State.reset.core core).plb e).v = false) ∧
  (∀ k, State.reset.byte k = 0) ∧ State.reset.poison = [] ∧ State.reset.iluet.st = .ready

/-- R424, R445, R449, R452: the registers that do not start at 0 have the reset values of their rules. -/
def Sys2Proof.Claims.ResetPower : Prop :=
  State.reset.power.budget = 4800 ∧ State.reset.power.high = 4600 ∧ State.reset.power.low = 4200 ∧ State.reset.power.step = 32 ∧
  State.reset.power.scale = 256 ∧ State.reset.power.hold = 10 ∧
  (∀ k, (State.reset.col k).alert = 0x80007FFF#64 ∧ (State.reset.col k).vfReq = 0x01CC015E#64) ∧ (∀ p, (State.reset.part p).prsv = 0xFA000)

/-- The memory of the state after reset is in canonical form: no entry is listed out of order, twice, or with the byte that an unlisted address has. -/
def Obligations.ResetMemorySound : Prop := State.sound State.reset

/-- Every step that gives a next state keeps memory in canonical form, from whatever state it starts. -/
def Obligations.EveryStepKeepsMemoryForm : Prop := ∀ s t : State, State.sound s → step s = .next t → State.sound t

/-- R82 to R94: the bytes of every instruction whose fields an encoding admits decode to it, with every field at its value, and leave what follows. -/
def Obligations.DecodeOfEncode : Prop :=
  ∀ (i : Instr) (rest : List Byte), i.WF → (encode i).isSome = true → decode (encodeBytes i ++ rest) = .ok (i, rest)

/-- R82 to R94: a word that decodes is the word of the instruction it decodes to, and the fields of that instruction are such as an encoding admits: no two
words stand for one instruction, and no bit of a word is without meaning. -/
def Obligations.EncodeOfDecode : Prop :=
  ∀ (w : Nat) (i : Instr) (rest : List Byte), w < 2 ^ 32 → decode (leBytes 4 w) = .ok (i, rest) → i.WF ∧ ∃ n, encode i = some (n, w % 2 ^ n)

/-- R82, R85, R88 to R93: words written out from the encoding tables decode to what they stand for. -/
def Obligations.DecodeWords : Prop :=
  decodeTableWord 32 0x04A63801 = some (.add 5 6 7) ∧ decodeTableWord 32 0x61228FF1 = some (.ld 9 2 2 (-8)) ∧
  decodeTableWord 32 0x3080FFF5 = some (.beq 4 0 (-6)) ∧ decodeTableWord 32 0x55400221 = some (.mfs 10 0x110) ∧
  decodeTableWord 32 0x58800007 = some (.safe 3) ∧ decodeTableWord 32 0x5D200001 = some .nop ∧
  decodeTableWord 16 0x20FE = some (.cAddi 3 (-1)) ∧ decodeTableWord 16 0x8800 = some .cNop

/-- R20, R79: when an agent's turn comes and the bytes at its pc decode, the step is the meaning of the decoded instruction in the state after the fetch;
then the issue is counted and the step ends. A context that stands Stalled before its instruction has issued is made ready first, by a step of its own, and takes
no slot with it. -/
def Obligations.StepRunsDecoded : Prop :=
  (∀ (s : State) (ag : Agent) (s1 : State) (bs : List Byte) (i : Instr) (rest : List Byte),
    Fetches s ag s1 bs → decode bs = .ok (i, rest) →
    step s = andThen (exec i (s1.modCtx ag (fun c => { c with word := bs }))) (fun t => (t.afterIssue ag (s.lastIssued ag)).endStep)) ∧
  (∀ (s : State) (core n : Nat), NothingDue s → s.pick = some (.run (.ctx core n)) → State.due { s with cur := .ctx core n } (.ctx core n) = false →
    (s.ctx (.ctx core n)).st = .stalled → (s.ctx (.ctx core n)).held = false → (s.ctx (.ctx core n)).issued = false → (s.ctx (.ctx core n)).atBoundary = true →
    step s = .next (State.endStep (({ s with cur := .ctx core n } : State).modCtx (.ctx core n) (fun c => { c with st := .ready }))))

/-- R94: when the bytes at the pc are not an instruction, the step takes ILLEGAL with the instruction word as info. -/
def Sys2Proof.Claims.StepTakesIllegal : Prop :=
  ∀ (s : State) (ag : Agent) (s1 : State) (bs : List Byte) (e : DecodeError),
    Fetches s ag s1 bs → decode bs = .error e → s1.cur = ag →
    step s = .next (((({ s1.modCtx ag (fun c => { c with word := bs }) with args := [leNat bs] } : State).takeTrap ag
      { cause := 0x01, info := BitVec.ofNat 64 (leNat bs) }).afterIssue ag (s.lastIssued ag)).endStep)

/-- R94: the meaning of an encoding that is no instruction is to take ILLEGAL with the word as info. -/
def Sys2Proof.Claims.IllegalEncoding : Prop :=
  ∀ (s : State), exec .illegalEncoding s = .next (s.takeTrap s.cur { cause := 0x01, info := BitVec.ofNat 64 (s.arg 0) })

/-- No instruction and no happening stops the module: every meaning answers a next state, in every state; a step stops only where nothing is under way,
nothing falls due and nothing can issue. -/
def Obligations.NothingStops : Prop :=
  (∀ (i : Instr) (s : State), ∃ t, exec i s = .next t) ∧
  (∀ s : State, (∃ t, step s = .next t) ∨ (s.agenda = [] ∧ s.pick = none ∧ step s = .fault .nothingHappens))

/-- R5, R98, R478; R424, R445, R449, R452: what reset leaves in the registers whose reset value the specification gives. -/
def Obligations.ResetValues : Prop := Claims.ResetZeros ∧ Claims.ResetPower

/-- R94: bytes that are no instruction raise ILLEGAL with the instruction word as info. -/
def Obligations.IllegalInstructions : Prop := Claims.StepTakesIllegal ∧ Claims.IllegalEncoding

/-! ## Scalar integer, immediates, control -/

namespace Sys2Proof.Claims

open Sys2Proof Sys2Proof.Machine

/-- The effect column of R103 and R105 (all but the checked forms and the counts), and of the 16-bit forms of R85 that only compute: the registers
read, the destination, its new value. -/
def intResult : Instr → Option (List Nat × Nat × (Regs → W64))
  | .add d a b => some ([a, b], d, fun r => r.S a + r.S b)
  | .sub d a b => some ([a, b], d, fun r => r.S a - r.S b)
  | .and d a b => some ([a, b], d, fun r => r.S a &&& r.S b)
  | .or d a b => some ([a, b], d, fun r => r.S a ||| r.S b)
  | .xor d a b => some ([a, b], d, fun r => r.S a ^^^ r.S b)
  | .andn d a b => some ([a, b], d, fun r => r.S a &&& ~~~(r.S b))
  | .sll d a b => some ([a, b], d, fun r => r.S a <<< (r.S b &&& 63#64))
  | .srl d a b => some ([a, b], d, fun r => r.S a >>> (r.S b &&& 63#64))
  | .sra d a b => some ([a, b], d, fun r => (r.S a).sshiftRight ((r.S b &&& 63#64).toNat))
  | .slt d a b => some ([a, b], d, fun r => if (r.S a).slt (r.S b) then 1 else 0)
  | .sltn d a b => some ([a, b], d, fun r => if (r.S a).ult (r.S b) then 1 else 0)
  | .min d a b => some ([a, b], d, fun r => if (r.S b).slt (r.S a) then r.S b else r.S a)
  | .max d a b => some ([a, b], d, fun r => if (r.S a).slt (r.S b) then r.S b else r.S a)
  | .minn d a b => some ([a, b], d, fun r => if (r.S b).ult (r.S a) then r.S b else r.S a)
  | .maxn d a b => some ([a, b], d, fun r => if (r.S a).ult (r.S b) then r.S b else r.S a)
  | .sextB d a => some ([a], d, fun r => ((r.S a).truncate 8).signExtend 64)
  | .sextH d a => some ([a], d, fun r => ((r.S a).truncate 16).signExtend 64)
  | .sextW d a => some ([a], d, fun r => ((r.S a).truncate 32).signExtend 64)
  | .zextB d a => some ([a], d, fun r => r.S a &&& 0xFF#64)
  | .zextH d a => some ([a], d, fun r => r.S a &&& 0xFFFF#64)
  | .zextW d a => some ([a], d, fun r => r.S a &&& 0xFFFFFFFF#64)
  | .mul d a b => some ([a, b], d, fun r => r.S a * r.S b)
  | .mulh d a b => some ([a, b], d, fun r => BitVec.ofInt 64 ((r.S a).toInt * (r.S b).toInt / 2 ^ 64))
  | .mulhn d a b => some ([a, b], d, fun r => BitVec.ofNat 64 ((r.S a).toNat * (r.S b).toNat / 2 ^ 64))
  | .div d a b => some ([a, b], d, fun r => if r.S b = 0 then BitVec.allOnes 64 else (r.S a).sdiv (r.S b))
  | .divn d a b => some ([a, b], d, fun r => if r.S b = 0 then BitVec.allOnes 64 else r.S a / r.S b)
  | .rem d a b => some ([a, b], d, fun r => if r.S b = 0 then r.S a else (r.S a).srem (r.S b))
  | .remn d a b => some ([a, b], d, fun r => if r.S b = 0 then r.S a else r.S a % r.S b)
  | .cMv d a => some ([a], d, fun r => r.S a)
  | .cAdd d a => some ([d, a], d, fun r => r.S d + r.S a)
  | .cSub d a => some ([d, a], d, fun r => r.S d - r.S a)
  | .cAnd d a => some ([d, a], d, fun r => r.S d &&& r.S a)
  | .cOr d a => some ([d, a], d, fun r => r.S d ||| r.S a)
  | .cXor d a => some ([d, a], d, fun r => r.S d ^^^ r.S a)
  | _ => none

/-- The effect columns of R106 and R107, OXR (R108) and PGET (R129), and the 16-bit immediates of R85. -/
def immResult : Instr → Option (List Nat × Nat × (Regs → W64))
  | .addi d a i => some ([a], d, fun r => r.S a + BitVec.ofInt 64 i)
  | .andi d a i => some ([a], d, fun r => r.S a &&& BitVec.ofInt 64 i)
  | .ori d a i => some ([a], d, fun r => r.S a ||| BitVec.ofInt 64 i)
  | .xori d a i => some ([a], d, fun r => r.S a ^^^ BitVec.ofInt 64 i)
  | .slli d a h => some ([a], d, fun r => r.S a <<< h)
  | .srli d a h => some ([a], d, fun r => r.S a >>> h)
  | .srai d a h => some ([a], d, fun r => (r.S a).sshiftRight h)
  | .slti d a i => some ([a], d, fun r => if (r.S a).slt (BitVec.ofInt 64 i) then 1 else 0)
  | .sltni d a i => some ([a], d, fun r => if (r.S a).ult (BitVec.ofInt 64 i) then 1 else 0)
  | .li d i => some ([], d, fun _ => BitVec.ofInt 64 i)
  | .lis d i => some ([d], d, fun r => (r.S d <<< 16) ||| BitVec.ofNat 64 i)
  | .oxr d a => some ([], d, fun r => r.OX a)
  | .pget d a => some ([], d, fun r => r.P a)
  | .cAddi d i => some ([d], d, fun r => r.S d + BitVec.ofInt 64 i)
  | .cLi d i => some ([], d, fun _ => BitVec.ofInt 64 i)
  | .cSlli d i => some ([d], d, fun r => r.S d <<< i)
  | .cSrai d i => some ([d], d, fun r => (r.S d).sshiftRight i)
  | _ => none

/-- The exact result of a checked form (R104), on the signed 32-bit values of its sources. -/
def checkedResult : Instr → Option (Nat × Nat × Nat × (Regs → Int))
  | .addv d a b => some (d, a, b, fun r => ((r.S a).truncate 32 : BitVec 32).toInt + ((r.S b).truncate 32 : BitVec 32).toInt)
  | .subv d a b => some (d, a, b, fun r => ((r.S a).truncate 32 : BitVec 32).toInt - ((r.S b).truncate 32 : BitVec 32).toInt)
  | .mulv d a b => some (d, a, b, fun r => ((r.S a).truncate 32 : BitVec 32).toInt * ((r.S b).truncate 32 : BitVec 32).toInt)
  | _ => none

/-- The conditional branches of R109 and R85: the registers compared, the displacement in halfwords, the condition. -/
def branchTaken : Instr → Option (List Nat × Int × (Regs → Prop))
  | .beq a b i => some ([a, b], i, fun r => r.S a = r.S b)
  | .bne a b i => some ([a, b], i, fun r => r.S a ≠ r.S b)
  | .blt a b i => some ([a, b], i, fun r => (r.S a).toInt < (r.S b).toInt)
  | .bge a b i => some ([a, b], i, fun r => (r.S b).toInt ≤ (r.S a).toInt)
  | .bltn a b i => some ([a, b], i, fun r => (r.S a).toNat < (r.S b).toNat)
  | .bgen a b i => some ([a, b], i, fun r => (r.S b).toNat ≤ (r.S a).toNat)
  | .cBeqz d i => some ([d], i, fun r => r.S d = 0)
  | .cBnez d i => some ([d], i, fun r => r.S d ≠ 0)
  | _ => none

/-- The jumps of R110 and R85: the registers read, the link register, the target. -/
def jumpTarget : Instr → Option (List Nat × Nat × (Regs → W64))
  | .jal d i => some ([], d, fun r => r.pc + BitVec.ofInt 64 (2 * i))
  | .jalr d a i => some ([a], d, fun r => r.S a + BitVec.ofInt 64 i)
  | .cJ i => some ([], 0, fun r => r.pc + BitVec.ofInt 64 (2 * i))
  | .cJr a => some ([a], 0, fun r => r.S a)
  | _ => none

/-- The loop instructions of R112: the set, the registers read, the count, the displacement in halfwords. -/
def loopOf : Instr → Option (Nat × List Nat × (Regs → W64) × Nat)
  | .lsetup n a i => some (n, [a], fun r => r.S a, i)
  | .lsetupi n c i => some (n, [], fun _ => BitVec.ofNat 64 c, i)
  | _ => none

/-- The loop set that R112 writes. -/
def loopSet (r : Regs) (count : W64) (i : Nat) : LoopSet := { start := r.pc + 4, stop := r.pc + BitVec.ofNat 64 (2 * i), count := count }

/-- The registers with a loop set overwritten. -/
def withLoop (r : Regs) (n : Nat) (l : LoopSet) : Regs := if n = 0 then { r with loop0 := l } else { r with loop1 := l }

end Sys2Proof.Claims

open Sys2Proof Sys2Proof.Machine Sys2Proof.Claims

/-- R103, R105, R85: every integer instruction that cannot trap completes and writes its effect to S(d); nothing else of the module changes but the next
address and the counts (a write of s0 is discarded). -/
def Sys2Proof.Claims.IntegerForms : Prop :=
  ∀ (i : Instr) (rd : List Nat) (d : Nat) (f : Regs → W64), intResult i = some (rd, d, f) → i.WF →
    ∀ (s : State) (core n : Nat), Plain s core n → Present s core n rd →
      exec i s = .next (s.finish core n (fun r => (r.setS d (f r)).next i.size))

/-- R106, R107, R108, R129, R85: every immediate, constant and move form completes and writes its effect to S(d), and nothing else. -/
def Sys2Proof.Claims.ImmediateForms : Prop :=
  ∀ (i : Instr) (rd : List Nat) (d : Nat) (f : Regs → W64), immResult i = some (rd, d, f) → i.WF →
    ∀ (s : State) (core n : Nat), Plain s core n → Present s core n rd →
      exec i s = .next (s.finish core n (fun r => (r.setS d (f r)).next i.size))

/-- R103: CLZ, CTZ and POPC complete; their results count the zero bits above the highest set bit, those below the lowest, and the set bits. -/
def Obligations.BitCounts : Prop :=
  ∀ (s : State) (core n d a : Nat), Plain s core n → Present s core n [a] → d < 32 → a < 32 →
    (∃ k, k ≤ 64 ∧ (∀ j, 64 - k ≤ j → ((s.regs (.ctx core n)).S a).getLsbD j = false) ∧
      (k < 64 → ((s.regs (.ctx core n)).S a).getLsbD (63 - k) = true) ∧
      exec (.clz d a) s = .next (s.finish core n (fun r => (r.setS d (BitVec.ofNat 64 k)).next 4))) ∧
    (∃ k, k ≤ 64 ∧ (∀ j, j < k → ((s.regs (.ctx core n)).S a).getLsbD j = false) ∧
      (k < 64 → ((s.regs (.ctx core n)).S a).getLsbD k = true) ∧
      exec (.ctz d a) s = .next (s.finish core n (fun r => (r.setS d (BitVec.ofNat 64 k)).next 4))) ∧
    exec (.popc d a) s = .next (s.finish core n (fun r => (r.setS d (BitVec.ofNat 64
      ((List.range 64).filter (fun j => (r.S a).getLsbD j)).length)).next 4))

/-- R104: a checked form whose exact result fits 32 signed bits completes and writes it, sign-extended. -/
def Sys2Proof.Claims.CheckedInRange : Prop :=
  ∀ (i : Instr) (d a b : Nat) (f : Regs → Int), checkedResult i = some (d, a, b, f) → i.WF →
    ∀ (s : State) (core n : Nat), Plain s core n → Present s core n [a, b] →
      -(2 ^ 31) ≤ f (s.regs (.ctx core n)) → f (s.regs (.ctx core n)) ≤ 2 ^ 31 - 1 →
      exec i s = .next (s.finish core n (fun r => (r.setS d (BitVec.ofInt 64 (f r))).next 4))

/-- R104: a checked form whose exact result does not fit raises OVF with the destination and the direction as info; it writes nothing. -/
def Sys2Proof.Claims.CheckedOverflow : Prop :=
  ∀ (i : Instr) (d a b : Nat) (f : Regs → Int), checkedResult i = some (d, a, b, f) → i.WF →
    ∀ (s : State) (core n : Nat), Plain s core n → Present s core n [a, b] →
      (f (s.regs (.ctx core n)) < -(2 ^ 31) ∨ 2 ^ 31 - 1 < f (s.regs (.ctx core n))) →
      exec i s = .next (s.takeTrap (.ctx core n)
        { cause := 0x08, info := BitVec.ofNat 64 ((if f (s.regs (.ctx core n)) < 0 then 256 else 0) + d) })

/-- R109, R113, R114: a conditional branch completes: where its condition holds, pc + 2 × the displacement comes next, without LoopCheck; else the next
instruction in order, with it. No other register changes. -/
def Obligations.Branches : Prop :=
  ∀ (i : Instr) (rd : List Nat) (disp : Int) (c : Regs → Prop), branchTaken i = some (rd, disp, c) → i.WF →
    ∀ (s : State) (core n : Nat), Plain s core n → Present s core n rd →
      (c (s.regs (.ctx core n)) → exec i s = .next (s.finish core n (fun r => r.jump (r.pc + BitVec.ofInt 64 (2 * disp))))) ∧
      (¬ c (s.regs (.ctx core n)) → exec i s = .next (s.finish core n (fun r => r.next i.size)))

/-- R110, R79: a jump to an even target completes: S(d) takes the address of the next instruction and the target comes next; an odd target raises ALIGN
with the target as info. -/
def Obligations.Jumps : Prop :=
  ∀ (i : Instr) (rd : List Nat) (d : Nat) (t : Regs → W64), jumpTarget i = some (rd, d, t) → i.WF →
    ∀ (s : State) (core n : Nat), Plain s core n → Present s core n rd → (s.regs (.ctx core n)).pc.getLsbD 0 = false →
      ((t (s.regs (.ctx core n))).getLsbD 0 = false →
        exec i s = .next (s.finish core n (fun r => (r.setS d (r.pc + BitVec.ofNat 64 i.size)).jump (t r)))) ∧
      ((t (s.regs (.ctx core n))).getLsbD 0 = true →
        exec i s = .next (s.takeTrap (.ctx core n) { cause := 0x03, info := t (s.regs (.ctx core n)), addr := true }))

/-- R112, R113: a loop instruction completes: its set takes pc + 4, pc + 2 × the displacement and the count; a count of zero goes on at the end of the
body, any other at the next instruction, and LoopCheck applies to both. NOP and C.NOP complete and change nothing. -/
def Sys2Proof.Claims.LoopSetups : Prop :=
  (∀ (i : Instr) (k : Nat) (rd : List Nat) (c : Regs → W64) (disp : Nat), loopOf i = some (k, rd, c, disp) → i.WF →
    ∀ (s : State) (core n : Nat), Plain s core n → Present s core n rd →
      exec i s = .next (s.finish core n (fun r =>
        let r' := withLoop r k (loopSet r (c r) disp)
        let x := r'.loopCheck (if c r = 0 then r.pc + BitVec.ofNat 64 (2 * disp) else r.pc + 4)
        { x.1 with pc := x.2 }))) ∧
  ∀ (s : State) (core n : Nat), Plain s core n →
    exec .nop s = .next (s.finish core n (fun r => r.next 4)) ∧ exec .cNop s = .next (s.finish core n (fun r => r.next 2))

/-- R113: LoopCheck sees set 1 first: at its end address a count above 1 steps down and the body runs again; at a count of 1 the loop is left and set 0 is
looked at in the same way; elsewhere, or with a count of 0, nothing happens. -/
def Sys2Proof.Claims.LoopCheckRule : Prop :=
  ∀ (r : Regs) (x : W64),
    (r.loop1.count ≠ 0 → r.loop1.count ≠ 1 → x = r.loop1.stop →
      r.loopCheck x = ({ r with loop1 := { r.loop1 with count := r.loop1.count - 1 } }, r.loop1.start)) ∧
    (r.loop1.count = 0 ∨ x ≠ r.loop1.stop → r.loop0.count ≠ 0 → r.loop0.count ≠ 1 → x = r.loop0.stop →
      r.loopCheck x = ({ r with loop0 := { r.loop0 with count := r.loop0.count - 1 } }, r.loop0.start)) ∧
    (r.loop1.count = 1 → x = r.loop1.stop → r.loop0.count ≠ 0 → r.loop0.count ≠ 1 → x = r.loop0.stop →
      r.loopCheck x = ({ r with loop1 := { r.loop1 with count := 0 }, loop0 := { r.loop0 with count := r.loop0.count - 1 } }, r.loop0.start)) ∧
    (r.loop1.count = 0 ∨ x ≠ r.loop1.stop → r.loop0.count = 1 → x = r.loop0.stop →
      r.loopCheck x = ({ r with loop0 := { r.loop0 with count := 0 } }, x)) ∧
    (r.loop1.count = 1 → x = r.loop1.stop → r.loop0.count = 1 → x = r.loop0.stop →
      r.loopCheck x = ({ r with loop1 := { r.loop1 with count := 0 }, loop0 := { r.loop0 with count := 0 } }, x)) ∧
    (r.loop1.count = 1 → x = r.loop1.stop → r.loop0.count = 0 ∨ x ≠ r.loop0.stop →
      r.loopCheck x = ({ r with loop1 := { r.loop1 with count := 0 } }, x)) ∧
    (r.loop1.count = 0 ∨ x ≠ r.loop1.stop → r.loop0.count = 0 ∨ x ≠ r.loop0.stop → r.loopCheck x = (r, x))

/-- R104: the checked forms, in range and out of it. -/
def Obligations.CheckedForms : Prop := Claims.CheckedInRange ∧ Claims.CheckedOverflow

/-- R112, R113: the loop instructions, and LoopCheck. -/
def Obligations.Loops : Prop := Claims.LoopSetups ∧ Claims.LoopCheckRule

/-! ## Registers: what an instruction leaves alone; special registers -/

namespace Sys2Proof.Claims

open Sys2Proof Sys2Proof.Machine

/-- The register that an instruction writes. -/
inductive Dest where
  | none
  | s (n : Nat)
  | v (n : Nat)
  | ox (n : Nat)
  | p (n : Nat)
deriving DecidableEq, Repr

/-- The registers of a context that have no number of their own in an instruction, but for the pc and the loop sets (which LoopCheck may step): the trap
registers, the floating status, the accumulators, the supervisor registers and the rest of R98. -/
def otherRegs (r : Regs) : Regs :=
  { r with pc := 0, s := [], absent := 0, tpend := [], v := [], ox := [], p := [], pw := [], loop0 := {}, loop1 := {} }

/-- What an instruction that works on registers leaves unchanged: every numbered register but its destination (a pointer stands with its walk
register), every other register of its context, every other context, every byte of memory, and the time. -/
structure RegisterFrame (s t : State) (core n : Nat) (d : Dest) : Prop where
  scalar : ∀ k, d ≠ .s k → (t.regs (.ctx core n)).S k = (s.regs (.ctx core n)).S k
  vector : ∀ k, d ≠ .v k → (t.regs (.ctx core n)).V k = (s.regs (.ctx core n)).V k
  extension : ∀ k, d ≠ .ox k → (t.regs (.ctx core n)).OX k = (s.regs (.ctx core n)).OX k
  pointer : ∀ k, d ≠ .p k → (t.regs (.ctx core n)).P k = (s.regs (.ctx core n)).P k ∧ (t.regs (.ctx core n)).PW k = (s.regs (.ctx core n)).PW k
  other : otherRegs (t.regs (.ctx core n)) = otherRegs (s.regs (.ctx core n))
  loops : (t.regs (.ctx core n)).loop0.start = (s.regs (.ctx core n)).loop0.start ∧ (t.regs (.ctx core n)).loop0.stop = (s.regs (.ctx core n)).loop0.stop ∧
    (t.regs (.ctx core n)).loop1.start = (s.regs (.ctx core n)).loop1.start ∧ (t.regs (.ctx core n)).loop1.stop = (s.regs (.ctx core n)).loop1.stop
  others : ∀ ag, ag ≠ .ctx core n → t.ctx ag = s.ctx ag
  memory : ∀ k, t.byte k = s.byte k
  time : t.time = s.time

/-- The instructions that work on registers alone and cannot trap, with the registers they read and the register they write. -/
def registerForm (i : Instr) : Option (List Nat × Dest) :=
  match intResult i, immResult i, branchTaken i, i with
  | some (rd, d, _), _, _, _ => some (rd, .s d)
  | _, some (rd, d, _), _, _ => some (rd, .s d)
  | _, _, some (rd, _, _), _ => some (rd, .none)
  | _, _, _, .clz d a => some ([a], .s d)
  | _, _, _, .ctz d a => some ([a], .s d)
  | _, _, _, .popc d a => some ([a], .s d)
  | _, _, _, .nop => some ([], .none)
  | _, _, _, .cNop => some ([], .none)
  | _, _, _, .oxw d a => some ([a], .ox d)
  | _, _, _, .oxi d _ => some ([], .ox d)
  | _, _, _, .pset d a => some ([a], .p d)
  | _, _, _, _ => none

/-- The moves that write a special register (R95): source, number, new value from the old one and S(a). -/
def specialMove : Instr → Option (Nat × Nat × (W64 → W64 → W64))
  | .mts a num => some (a, num, fun _ x => x)
  | .mset a num => some (a, num, fun o x => o ||| x)
  | .mclr a num => some (a, num, fun o x => o &&& ~~~x)
  | _ => none

/-- What a write of a special register of the context leaves, by its access codes and the bits of its layout (R3, R4, R45, R61, R98, R111, R166,
R357, R386): reserved bits stay 0, HW and RO bits stay, W1C bits go where 1 is written. -/
def specialWrite : Nat → Option (Regs → W64 → Regs)
  | 0x000 => some fun r v => { r with fx := v &&& 0x3F3F#64 }
  | 0x001 => some fun r v => { r with uvec := v &&& ~~~(1#64) }
  | 0x002 => some fun r v => { r with upc := v }
  | 0x003 => some fun r v => { r with ucause := v &&& 0xFF#64 }
  | 0x004 => some fun r v => { r with uinfo := v }
  | 0x005 => some fun r v => { r with uie := v &&& 0xF00023300#64 }
  | 0x006 => some fun r v => { r with lmbase := v }
  | 0x008 => some fun r v => { r with rank := v &&& 7#64 }
  | 0x009 => some fun r v => { r with tchk := v &&& 31#64 }
  | 0x010 => some fun r v => { r with loop0 := { r.loop0 with start := v &&& ~~~(1#64) } }
  | 0x011 => some fun r v => { r with loop0 := { r.loop0 with stop := v &&& ~~~(1#64) } }
  | 0x012 => some fun r v => { r with loop0 := { r.loop0 with count := v } }
  | 0x013 => some fun r v => { r with loop1 := { r.loop1 with start := v &&& ~~~(1#64) } }
  | 0x014 => some fun r v => { r with loop1 := { r.loop1 with stop := v &&& ~~~(1#64) } }
  | 0x015 => some fun r v => { r with loop1 := { r.loop1 with count := v } }
  | 0x200 => some fun r v => { r with svec := v &&& ~~~(1#64) }
  | 0x201 => some fun r v => { r with spc := v }
  | 0x202 => some fun r v => { r with scause := v &&& 0x8000000000FFFFFF#64 }
  | 0x203 => some fun r v => { r with sinfo := v }
  | 0x204 => some fun r v => { r with sstat := v &&& 0x3F#64 }
  | 0x205 => some fun r v => { r with sscratch := v }
  | 0x208 => some fun r _ => r
  | 0x209 => some fun r v => { r with safedl := v &&& 0xFFFFFFFF#64 }
  | 0x20A => some fun r v => { r with save := v &&& ~~~(0xFFF#64) }
  | 0x210 => some fun r v => { r with tringBase := v &&& ~~~(0x1F#64) }
  | 0x211 => some fun r v => { r with tringSize := (v &&& 0xFFFF00000000FFFF#64) ||| (r.tringSize &&& 0x0000FFFF00000000#64) }
  | 0x212 => some fun r v => { r with tringOvf := r.tringOvf &&& ~~~v }
  | 0x230 => some fun r v => { r with plbCtl := v &&& 0x707#64 }
  | 0x231 => some fun r _ => r
  | num => if 0x018 ≤ num ∧ num ≤ 0x01F then some fun r v => r.setPW (num - 0x018) (v &&& 0x8FFFFFFFFFFFFFFF#64) else none

/-- The number that a special-register move names, and whether it writes it. -/
def specialNumber : Instr → Option (Nat × Bool)
  | .mfs _ num => some (num, false)
  | .mts _ num => some (num, true)
  | .mset _ num => some (num, true)
  | .mclr _ num => some (num, true)
  | _ => none

/-- The numbers of R98. -/
def assigned (num : Nat) : Bool :=
  num ≤ 0x009 || (0x010 ≤ num && num ≤ 0x015) || (0x018 ≤ num && num ≤ 0x027) || (0x100 ≤ num && num ≤ 0x104) || num = 0x108 ||
  (0x110 ≤ num && num ≤ 0x116) || num = 0x118 || (0x120 ≤ num && num ≤ 0x13F) || (0x200 ≤ num && num ≤ 0x205) || (0x208 ≤ num && num ≤ 0x20C) ||
  (0x210 ≤ num && num ≤ 0x212) || num = 0x218 || num = 0x219 || num = 0x220 || num = 0x228 || num = 0x230 || num = 0x231 || (0x400 ≤ num && num ≤ 0x404)

end Sys2Proof.Claims

open Sys2Proof Sys2Proof.Machine Sys2Proof.Claims

/-- R7, R103 to R110, R129: an instruction that works on registers changes no numbered register but its destination, no other register of its context,
no other context, and no byte of memory. -/
def Sys2Proof.Claims.RegisterInstructionsFrame : Prop :=
  ∀ (i : Instr) (rd : List Nat) (d : Dest), registerForm i = some (rd, d) → i.WF →
    ∀ (s : State) (core n : Nat), Plain s core n → Present s core n rd →
      ∃ t, exec i s = .next t ∧ RegisterFrame s t core n d

/-- R7: S(0) reads 0, and a write of it is discarded; a write of another register is read back, and changes no other one. -/
def Sys2Proof.Claims.ScalarRegisters : Prop :=
  ∀ (r : Regs) (k : Nat) (v : W64), r.S 0 = 0 ∧ r.setS 0 v = r ∧ (k ≠ 0 → (r.setS k v).S k = v) ∧ (∀ j, j ≠ k → (r.setS k v).S j = r.S j)

/-- R108, R129: OXW, OXI and PSET write an operand-extension or a pointer register, and nothing else. -/
def Sys2Proof.Claims.ExtensionAndPointerMoves : Prop :=
  ∀ (s : State) (core n d a : Nat) (imm : Int), Plain s core n → d < 8 → a < 32 → -4096 ≤ imm → imm < 4096 →
    (Present s core n [a] → exec (.oxw d a) s = .next (s.finish core n (fun r => (r.setOX d (r.S a)).next 4))) ∧
    exec (.oxi d imm) s = .next (s.finish core n (fun r => (r.setOX d (BitVec.ofInt 64 imm)).next 4)) ∧
    (Present s core n [a] → exec (.pset d a) s = .next (s.finish core n (fun r => (r.setP d (r.S a)).next 4)))

/-- R95, R98: MFS of a register of the context's level copies it to S(d), and changes nothing else. (fx.status is read when no matrix command of the
context is outstanding.) -/
def Obligations.SpecialRegisterReads : Prop :=
  ∀ (num : Nat) (rd : State → Nat → Nat → W64), specialReg num = some rd →
    ∀ (s : State) (core n d : Nat), Plain s core n → d < 32 → (0x200 ≤ num → (s.ctx (.ctx core n)).lvl = .sup) →
      (num = 0 → (s.ctx (.ctx core n)).mcmds = 0) →
      exec (.mfs d num) s = .next (s.finish core n (fun r => (r.setS d (rd s core n)).next 4))

/-- R95, R97, R98: MTS, MSET and MCLR of a register of the context write S(a), the old value with the bits of S(a) set, or with them cleared, each field
by its access code, and change nothing else. A number at or above 0x200 ends the chunk first: it is stated between two chunks. -/
def Obligations.SpecialRegisterWrites : Prop :=
  ∀ (i : Instr) (a num : Nat) (f : W64 → W64 → W64) (rd : State → Nat → Nat → W64) (w : Regs → W64 → Regs),
    specialMove i = some (a, num, f) → specialReg num = some rd → specialWrite num = some w → i.WF →
    ∀ (s : State) (core n : Nat), Plain s core n → Present s core n [a] →
      (0x200 ≤ num → Between s core n ∧ (s.ctx (.ctx core n)).lvl = .sup) → (num = 0 → (s.ctx (.ctx core n)).mcmds = 0) →
      exec i s = .next (s.finish core n (fun r => (w r (f (rd s core n) (r.S a))).next 4))

/-- R96: a number above the executing level's range raises PRIV; otherwise a number that is not assigned, and a write of 0x100 to 0x1FF, raise ILLEGAL;
the info is the instruction word. On the Iluet, above which no level lies, only ILLEGAL arises. -/
def Sys2Proof.Claims.SpecialRegisterDenied : Prop :=
  ∀ (i : Instr) (num : Nat) (write : Bool), specialNumber i = some (num, write) → i.WF →
    (∀ (s : State) (core n : Nat), s.cur = .ctx core n →
      let top := if (s.ctx (.ctx core n)).lvl = .sup then 0x400 else 0x200
      (top ≤ num → exec i s = .next (s.takeTrap (.ctx core n) { cause := 0x02, info := BitVec.ofNat 64 (insWord i) })) ∧
      (num < top → assigned num = false ∨ write = true ∧ 0x100 ≤ num ∧ num < 0x200 →
        exec i s = .next (s.takeTrap (.ctx core n) { cause := 0x01, info := BitVec.ofNat 64 (insWord i) }))) ∧
    (∀ s : State, s.cur = .iluet → assigned num = false ∨ write = true ∧ 0x100 ≤ num ∧ num < 0x200 →
      exec i s = .next (s.takeTrap .iluet { cause := 0x01, info := BitVec.ofNat 64 (insWord i) }))

/-- R47, R48, R97, R98, R101: a write of a bank format (0 to 8), of mig.thresh or of tap.tbase goes to the core, and the chunk that it opens notes the value
before; a bank format above 8 raises ILLEGAL and changes nothing. -/
def Sys2Proof.Claims.CoreRegisterWrites : Prop :=
  ∀ (s : State) (core n a b : Nat), Between s core n → Present s core n [a] → a < 32 → b < 8 →
    let ag := Agent.ctx core n
    let x := (s.regs ag).S a
    let written := fun (num : Nat) (f : Core → Core) =>
      (((s.beginChunk ag).modCore core f).noteSpecial ag num (s.special ag num)).completed core n (fun r => r.next 4)
    (x.toNat % 16 ≤ 8 → exec (.mts a (0x20 + b)) s = .next (written (0x20 + b) (fun k => { k with bfmt := put b (x.toNat % 16) k.bfmt }))) ∧
    (8 < x.toNat % 16 → exec (.mts a (0x20 + b)) s = .next (s.takeTrap ag { cause := 0x01, info := BitVec.ofNat 64 (insWord (.mts a (0x20 + b))) })) ∧
    ((s.ctx ag).lvl = .sup →
      exec (.mts a 0x220) s = .next (written 0x220 (fun k => { k with migThresh := x })) ∧
      exec (.mts a 0x228) s = .next (written 0x228 (fun k => { k with tapTbase := x &&& ~~~(0x3FF#64) })))

/-- R166, R423, R370: a non-zero tmr.cmp falls due at its time; ctx.dom takes a domain of the core's partition and no other, which makes a record; a
pre-emption request outside a caravan is set by req and withdrawn by cancel. -/
def Sys2Proof.Claims.SpecialRegisterEffects : Prop :=
  ∀ (s : State) (core n a : Nat), Between s core n → Present s core n [a] → a < 32 →
    let ag := Agent.ctx core n
    let x := (s.regs ag).S a
    (∃ t, exec (.mts a 0x007) s = .next t ∧ (t.regs ag).tmrCmp = x ∧ (x ≠ 0 → (max x.toNat s.time, ⟨.timer, [ag.code]⟩) ∈ t.agenda) ∧ ∀ k, t.byte k = s.byte k) ∧
    ((s.ctx ag).lvl = .sup →
      (∀ p, s.partOfCol (colOf core) = some p → bits x.toNat 15 10 = p →
        ∃ t, exec (.mts a 0x20C) s = .next t ∧ (t.regs ag).dom = BitVec.ofNat 64 (x.toNat % 2 ^ 16) ∧ t.errs = s.errs) ∧
      (∀ p, s.partOfCol (colOf core) = some p → bits x.toNat 15 10 ≠ p →
        ∃ t e, exec (.mts a 0x20C) s = .next t ∧ (t.regs ag).dom = (s.regs ag).dom ∧ t.errs = s.errs ++ [e] ∧ e.src = 1 ∧ e.sub = 2 ∧ e.w4 = x.toNat) ∧
      ((s.core core).resident = false →
        (bit x.toNat 0 = true → ∃ t, exec (.mts a 0x20B) s = .next t ∧ (t.regs ag).preReq = true ∧ (t.regs ag).preDlv = bit x.toNat 1) ∧
        (bit x.toNat 0 = false → bit x.toNat 8 = true → ∃ t, exec (.mts a 0x20B) s = .next t ∧ (t.regs ag).preReq = false)))

/-- R103, R105 to R108, R129, R85: every instruction that computes a register from registers and immediates, and cannot trap. -/
def Obligations.ScalarResults : Prop := Claims.IntegerForms ∧ Claims.ImmediateForms ∧ Claims.ExtensionAndPointerMoves

/-- R7, R103 to R110, R129: what an instruction on registers leaves unchanged, and how S(0) reads. -/
def Obligations.RegisterFrames : Prop := Claims.RegisterInstructionsFrame ∧ Claims.ScalarRegisters

/-- R47, R48, R97, R98, R166, R370, R423: the special registers whose write reaches beyond the context. -/
def Obligations.CoreAndContextRegisters : Prop := Claims.CoreRegisterWrites ∧ Claims.SpecialRegisterEffects

/-! ## Loads, stores, pointers, chunks, atomics -/

namespace Sys2Proof.Claims

open Sys2Proof Sys2Proof.Machine

/-- The scalar loads (R121, R122, R127): the registers read, the destination, log2 of the size, whether it extends the sign, the effective address. -/
def loadForm : Instr → Option (List Nat × Nat × Nat × Bool × (Regs → W64))
  | .ld d a z i => some ([a], d, z, false, fun r => r.S a + BitVec.ofInt 64 i)
  | .ldSigned d a z i => some ([a], d, z, true, fun r => r.S a + BitVec.ofInt 64 i)
  | .ldx d a z b => some ([a, b], d, z, false, fun r => r.S a + (r.S b <<< z))
  | .ldxSigned d a z b => some ([a, b], d, z, true, fun r => r.S a + (r.S b <<< z))
  | .cLd d a => some ([a], d, 3, false, fun r => r.S a)
  | _ => none

/-- The scalar stores: the registers read, the data register, log2 of the size, the effective address. -/
def storeForm : Instr → Option (List Nat × Nat × Nat × (Regs → W64))
  | .st d a z i => some ([d, a], d, z, fun r => r.S a + BitVec.ofInt 64 i)
  | .stx d a z b => some ([d, a, b], d, z, fun r => r.S a + (r.S b <<< z))
  | .cSt d a => some ([d, a], d, 3, fun r => r.S a)
  | _ => none

/-- A loaded value as S(d) receives it (R127). -/
def extended (signed : Bool) (z v : Nat) : W64 := if signed then BitVec.ofInt 64 (toSigned (8 * 2 ^ z) v) else BitVec.ofNat 64 v

/-- The offset and the address of a pointer access (R122, R128). -/
def pointerOffset (r : Regs) (a : Nat) (i : Int) : Int := ((r.P a).toNat % 2 ^ 17 : Nat) + i
def pointerAddress (r : Regs) (a : Nat) (i : Int) : Nat :=
  0xFF80 * 2 ^ 48 + (r.P a).toNat % 2 ^ 48 / 2 ^ 17 * 2 ^ 17 + (pointerOffset r a i % 2 ^ 17).toNat

/-- The fields of a pointer and of its walk configuration that a walk uses (R44, R45). -/
structure WalkFields where
  offset : Nat
  x : Nat
  y : Nat
  rest : Nat × Nat × Nat
  wrap : Bool
  config : Nat
deriving DecidableEq, Repr

def walkFields (p pc : W64) : WalkFields :=
  { offset := bits p.toNat 16 0, x := bits p.toNat 35 28, y := bits p.toNat 43 36, rest := (bits p.toNat 27 17, bits p.toNat 47 44, bits p.toNat 63 48),
    wrap := bit pc.toNat 63, config := bits pc.toNat 62 0 }

/-- The atomics (R130): d, a, b, whether the form is .w, the registers read, the new value from the old one, S(b) and S(d), and whether the old value is
extended with zeros. -/
def amoForm : Instr → Option (Nat × Nat × Nat × Nat × List Nat × (∀ w, BitVec w → BitVec w → BitVec w → BitVec w) × Bool)
  | .amoAdd d a b w => some (d, a, b, w, [a, b], fun _ o y _ => o + y, false)
  | .amoAnd d a b w => some (d, a, b, w, [a, b], fun _ o y _ => o &&& y, false)
  | .amoOr d a b w => some (d, a, b, w, [a, b], fun _ o y _ => o ||| y, false)
  | .amoXor d a b w => some (d, a, b, w, [a, b], fun _ o y _ => o ^^^ y, false)
  | .amoMin d a b w => some (d, a, b, w, [a, b], fun _ o y _ => if y.slt o then y else o, false)
  | .amoMax d a b w => some (d, a, b, w, [a, b], fun _ o y _ => if o.slt y then y else o, false)
  | .amoMinn d a b w => some (d, a, b, w, [a, b], fun _ o y _ => if y.ult o then y else o, true)
  | .amoMaxn d a b w => some (d, a, b, w, [a, b], fun _ o y _ => if o.ult y then y else o, true)
  | .amoSwap d a b w => some (d, a, b, w, [a, b], fun _ _ y _ => y, false)
  | .cas d a b w => some (d, a, b, w, [d, a, b], fun _ o y e => if o = e then y else o, false)
  | _ => none

/-- The bank-side operations (R132): d, a, b, type (0 i32, 1 i64, 2 FP32), operation number, registers read. -/
def bankForm : Instr → Option (Nat × Nat × Nat × Nat × Nat × List Nat)
  | .mredAdd d a b t => some (d, a, b, t, 0, [a, b])
  | .mredMin d a b t => some (d, a, b, t, 1, [a, b])
  | .mredMax d a b t => some (d, a, b, t, 2, [a, b])
  | .mcas d a b t => some (d, a, b, t, 3, [d, a, b])
  | .msca d a b => some (d, a, b, 2, 4, [a, b])
  | _ => none

/-- The hints of R135. -/
def hintForm : Instr → Option (Nat × Int)
  | .prefL1 a i => some (a, i)
  | .prefL2 a i => some (a, i)
  | .dead a i => some (a, i)
  | _ => none

/-- No other context changed, and every byte of memory as before. -/
def OnlyContext (s t : State) (ag : Agent) : Prop := (∀ b, b ≠ ag → t.ctx b = s.ctx b) ∧ ∀ k, t.byte k = s.byte k

end Sys2Proof.Claims

open Sys2Proof Sys2Proof.Machine Sys2Proof.Claims

/-- R122, R125, R127: a load of its own scratchpad, aligned and passing the checks, completes: S(d) takes the little-endian bytes, extended; nothing else
of the context, no other context and no byte of memory changes. -/
def Sys2Proof.Claims.ScratchpadLoads : Prop :=
  ∀ (i : Instr) (rd : List Nat) (d z : Nat) (signed : Bool) (ea : Regs → W64), loadForm i = some (rd, d, z, signed, ea) → i.WF →
    ∀ (s : State) (core n off : Nat), Plain s core n → Present s core n rd →
      let ag := Agent.ctx core n
      let va := (ea (s.regs ag)).toNat
      va % 2 ^ z = 0 → OwnBytes (s.opened ag (some 4)) core n va (2 ^ z) off rdR →
      ∃ t, exec i s = .next t ∧ t.regs ag = ((s.regs ag).setS d (extended signed z (s.value (scratchKey core off) (2 ^ z)))).next i.size ∧
        OnlyContext s t ag

/-- R122, R125, R127: a store to its own scratchpad, aligned and passing the checks, completes: the low bytes of S(d) stand little-endian at the address
checked, every other byte is as before, and no register but the pc (and a loop count) changes. -/
def Sys2Proof.Claims.ScratchpadStores : Prop :=
  ∀ (i : Instr) (rd : List Nat) (d z : Nat) (ea : Regs → W64), storeForm i = some (rd, d, z, ea) → i.WF →
    ∀ (s : State) (core n off : Nat), Plain s core n → Room s core n → Present s core n rd →
      let ag := Agent.ctx core n
      let va := (ea (s.regs ag)).toNat
      va % 2 ^ z = 0 → OwnBytes (s.opened ag (some 5)) core n va (2 ^ z) off wrR →
      ∃ t, exec i s = .next t ∧ t.regs ag = (s.regs ag).next i.size ∧ (∀ b, b ≠ ag → t.ctx b = s.ctx b) ∧
        ∀ k, t.byte k = storedByte s (scratchKey core off) (2 ^ z) ((s.regs ag).S d).toNat k

/-- R49, R125, R209, R223, R296, R442: a load of cached Global memory whose line is in L1, or has been waited for, completes with the bytes that the chunk's own stores
have buffered over those of memory, and changes no byte of memory; where the line is missing, the instruction waits for it once, or, while its core's crossing FIFO admits nothing, is Stalled. That nothing of the line is
in flight while it waits, so that it completes when it runs again, is the model's choice (log 8). -/
def Sys2Proof.Claims.GlobalLoads : Prop :=
  ∀ (i : Instr) (rd : List Nat) (d z : Nat) (signed : Bool) (ea : Regs → W64), loadForm i = some (rd, d, z, signed, ea) → i.WF →
    ∀ (s : State) (core n slice key : Nat) (tag : LineTag), Present s core n rd →
      let ag := Agent.ctx core n
      let va := (ea (s.regs ag)).toNat
      let s1 := s.opened ag (some 4)
      va % 2 ^ z = 0 → s1.check ag va (2 ^ z) rdR = .ok (.mem slice tag key) → s.noBad = true → NoBankOps s → s.pageHeld va = false →
      (Plain s core n ∧ s1.misses ag tag va (2 ^ z) = false ∨ Resumes s core n →
        ∃ t, exec i s = .next t ∧ (t.ctx ag).st = .ready ∧
          t.regs ag = ((s.regs ag).setS d (extended signed z (leNat ((List.range (2 ^ z)).map (fun j => look (s.byte (key + j)) (s1.ctx ag).chunk.wbuf (key + j)))))).next i.size ∧
          ∀ k, t.byte k = s.byte k) ∧
      (Plain s core n → s1.misses ag tag va (2 ^ z) = true →
        ∃ t, exec i s = .next t ∧ (t.ctx ag).st = .stalled ∧ (t.ctx ag).missed = !s.closed ag ∧ t.regs ag = s.regs ag ∧ OnlyContext s t ag)

/-- R125, R209: a store to cached Global memory, or to another core's scratchpad, is held back until the chunk commits: no byte of memory changes, and the
chunk holds the bytes. -/
def Sys2Proof.Claims.StoresWaitForCommit : Prop :=
  ∀ (i : Instr) (rd : List Nat) (d z : Nat) (ea : Regs → W64), storeForm i = some (rd, d, z, ea) → i.WF →
    ∀ (s : State) (core n : Nat), Plain s core n → Room s core n → Present s core n rd →
      let ag := Agent.ctx core n
      let va := (ea (s.regs ag)).toNat
      let s1 := s.opened ag (some 5)
      va % 2 ^ z = 0 →
      (∀ slice tag key, s1.check ag va (2 ^ z) wrR = .ok (.mem slice tag key) → s.pageHeld va = false →
        ∃ t, exec i s = .next t ∧ t.regs ag = (s.regs ag).next i.size ∧ OnlyContext s t ag ∧
          ∀ k, look (s.byte k) (t.ctx ag).chunk.wbuf k =
            if key ≤ k ∧ k < key + 2 ^ z then BitVec.ofNat 8 (((s.regs ag).S d).toNat / 2 ^ (8 * (k - key))) else look (s.byte k) (s1.ctx ag).chunk.wbuf k) ∧
      (∀ other off, other ≠ core → bits va 63 48 = 0xFF80 → s1.check ag va (2 ^ z) wrR = .ok (.scratch other off) →
        s1.tapHeld ag (scratchKey other off) (2 ^ z) = false →
        ∃ t, exec i s = .next t ∧ t.regs ag = (s.regs ag).next i.size ∧ OnlyContext s t ag ∧
          (t.ctx ag).chunk.remote = (s1.ctx ag).chunk.remote ++ [⟨other, off, .raw (leBytes (2 ^ z) ((s.regs ag).S d).toNat)⟩])

/-- R39, R122, R124: an effective address that is no multiple of the size raises ALIGN with the address as info, and so does an access of another size than 8 in
the event or the courier window; any other that fails a check of R39 raises the check's cause. Nothing else changes before the trap is taken. -/
def Obligations.AccessTraps : Prop :=
  ∀ (i : Instr) (rd : List Nat) (z cls : Nat) (need : Rights) (ea : Regs → W64),
    ((∃ d signed, loadForm i = some (rd, d, z, signed, ea) ∧ cls = 4 ∧ need = rdR) ∨ (∃ d, storeForm i = some (rd, d, z, ea) ∧ cls = 5 ∧ need = wrR)) → i.WF →
    ∀ (s : State) (core n : Nat), Plain s core n → Present s core n rd →
      let ag := Agent.ctx core n
      let va := (ea (s.regs ag)).toNat
      let words := z ≠ 3 ∧ (bits va 63 48 = 0xFF81 ∨ bits va 63 48 = 0xFF82)
      (va % 2 ^ z ≠ 0 ∨ words → exec i s = .next (s.takeTrap ag { cause := 0x03, info := ea (s.regs ag), addr := true })) ∧
      (∀ t, va % 2 ^ z = 0 → ¬ words → (s.opened ag (some cls)).check ag va (2 ^ z) need = .error t → exec i s = .next (s.takeTrap ag t))

/-- R45: a walk that traps changes nothing; one inside the offset window only steps the offset; one that leaves the window goes back by its length and
steps x, and y when x returns to its start, each where its count is not 0; wrap is set when both have returned. Nothing else of the two registers changes. -/
def Sys2Proof.Claims.PointerWalk : Prop :=
  ∀ (r : Regs) (a : Nat),
    let p := (r.P a).toNat
    let c := (r.PW a).toNat
    let span := if bits c 16 0 = 0 then 0x20000 else bits c 16 0
    let limit := bits c 29 17 * 16 + span
    let (xcount, x0, ycount, y0) := (bits c 36 30, bits c 44 37, bits c 51 45, bits c 59 52)
    let sum := bits p 16 0 + bits p 63 48
    let f := walkFields (r.P a) (r.PW a)
    let xEnd := (f.x + 1) % 256 = (x0 + xcount) % 256
    let yEnd := (f.y + 1) % 256 = (y0 + ycount) % 256
    let fine := bits p 63 48 ≤ span ∧ limit ≤ 0x20000 ∧ xcount ≤ 112 ∧ ycount ≤ 112
    (¬ fine → r.walk a = none) ∧
    (fine → sum < limit → ∃ r', r.walk a = some r' ∧ walkFields (r'.P a) (r'.PW a) = { f with offset := sum }) ∧
    (fine → limit ≤ sum → sum - span ≤ 0x1FFFF → ∃ r', r.walk a = some r' ∧
      walkFields (r'.P a) (r'.PW a) =
        if xcount ≠ 0 ∧ ¬ xEnd then { f with offset := sum - span, x := (f.x + 1) % 256 }
        else if ycount ≠ 0 ∧ ¬ yEnd then { f with offset := sum - span, x := (if xcount = 0 then f.x else x0), y := (f.y + 1) % 256 }
        else { f with offset := sum - span, x := (if xcount = 0 then f.x else x0), y := (if ycount = 0 then f.y else y0), wrap := true })

/-- R122, R128: LDP and STP, where the address is aligned, the offset lies in the scratchpad, and the walk asked for does not trap, read and write the own
scratchpad as LD and ST do, and then walk the pointer. -/
def Obligations.PointerAccesses : Prop :=
  ∀ (s : State) (core n off d a z p : Nat) (i : Int) (r' : Regs), Plain s core n → Room s core n → d < 32 → a < 8 → z < 4 → p < 2 →
    -1024 ≤ i → i < 1024 →
    let ag := Agent.ctx core n
    let r := s.regs ag
    let va := pointerAddress r a i
    va % 2 ^ z = 0 → 0 ≤ pointerOffset r a i → pointerOffset r a i + 2 ^ z ≤ 0x20000 → (if p = 1 then r.walk a = some r' else r' = r) →
    (OwnBytes (s.opened ag (some 4)) core n va (2 ^ z) off rdR →
      ∃ t, exec (.ldp d a z p i) s = .next t ∧ OnlyContext s t ag ∧
        t.regs ag = (((r.setS d (BitVec.ofNat 64 (s.value (scratchKey core off) (2 ^ z)))).setP a (r'.P a)).setPW a (r'.PW a)).next 4) ∧
    (Present s core n [d] → OwnBytes (s.opened ag (some 5)) core n va (2 ^ z) off wrR →
      ∃ t, exec (.stp d a z p i) s = .next t ∧ t.regs ag = ((r.setP a (r'.P a)).setPW a (r'.PW a)).next 4 ∧ (∀ b, b ≠ ag → t.ctx b = s.ctx b) ∧
        ∀ k, t.byte k = storedByte s (scratchKey core off) (2 ^ z) (r.S d).toNat k)

/-- R128, R129: an offset that leaves the scratchpad raises BOUNDS with the address, a walk that would trap BOUNDS with the pointer's number; PADD steps a
pointer by S(a), PCFG writes a walk configuration, and each raises BOUNDS with the pointer's number where its checks fail. -/
def Sys2Proof.Claims.PointerChecks : Prop :=
  ∀ (s : State) (core n d a z : Nat) (i : Int), Plain s core n → d < 32 → z < 4 → -1024 ≤ i → i < 1024 →
    let ag := Agent.ctx core n
    let r := s.regs ag
    (∀ p, p < 2 → a < 8 → pointerAddress r a i % 2 ^ z = 0 → pointerOffset r a i < 0 ∨ 0x20000 < pointerOffset r a i + 2 ^ z →
      exec (.ldp d a z p i) s = .next (s.takeTrap ag { cause := 0x07, info := BitVec.ofNat 64 (pointerAddress r a i), addr := true })) ∧
    (a < 8 → pointerAddress r a i % 2 ^ z = 0 → 0 ≤ pointerOffset r a i → pointerOffset r a i + 2 ^ z ≤ 0x20000 → r.walk a = none →
      exec (.ldp d a z 1 i) s = .next (s.takeTrap ag { cause := 0x07, info := BitVec.ofNat 64 a })) ∧
    (d < 8 → a < 32 → Present s core n [a] →
      (∀ r', (r.S a).toNat ≤ 0xFFFF → (r.S a) ≠ 0 →
        (r.setP d (BitVec.ofNat 64 (bits (r.P d).toNat 47 0 + (r.S a).toNat * 2 ^ 48))).walk d = some r' →
        ∃ t, exec (.padd d a) s = .next t ∧ OnlyContext s t ag ∧ walkFields ((t.regs ag).P d) ((t.regs ag).PW d) =
          { walkFields (r'.P d) (r'.PW d) with rest := (walkFields (r.P d) (r.PW d)).rest }) ∧
      ((r.S a).toNat ≤ 0xFFFF → (r.setP d (BitVec.ofNat 64 (bits (r.P d).toNat 47 0 + (r.S a).toNat * 2 ^ 48))).walk d = none →
        exec (.padd d a) s = .next (s.takeTrap ag { cause := 0x07, info := BitVec.ofNat 64 d })) ∧
      (r.S a = 0 → r.walk d ≠ none → exec (.padd d a) s = .next (s.finish core n (fun r => r.next 4))) ∧
      (0xFFFF < (r.S a).toNat → exec (.padd d a) s = .next (s.takeTrap ag { cause := 0x07, info := BitVec.ofNat 64 d })) ∧
      (let c := (r.S a).toNat
       let good := bits c 62 60 = 0 ∧ bits c 36 30 ≤ 112 ∧ bits c 51 45 ≤ 112 ∧
         bits c 29 17 * 16 + (if bits c 16 0 = 0 then 0x20000 else bits c 16 0) ≤ 0x20000
       (good → exec (.pcfg d a) s = .next (s.finish core n (fun r => (r.setPW d (r.S a)).next 4))) ∧
       (¬ good → exec (.pcfg d a) s = .next (s.takeTrap ag { cause := 0x07, info := BitVec.ofNat 64 d }))))

/-- R130, R131: an atomic on its own scratchpad, between two chunks and with no chunk that it could conflict with, completes as one step: S(d) takes the
old word (extended with its sign, or with zeros for MINN and MAXN), memory the new one, and no other byte changes. -/
def Obligations.Atomics : Prop :=
  ∀ (i : Instr) (d a b w : Nat) (rd : List Nat) (f : ∀ w, BitVec w → BitVec w → BitVec w → BitVec w) (zero : Bool), amoForm i = some (d, a, b, w, rd, f, zero) → i.WF →
    ∀ (s : State) (core n off : Nat), Between s core n → Present s core n rd →
      let ag := Agent.ctx core n
      let r := s.regs ag
      let len := if w = 1 then 4 else 8
      let key := scratchKey core off
      let s1 := s.entered ag (some 6)
      (r.S a).toNat % len = 0 → OwnBytes s1 core n (r.S a).toNat len off amoR → Alone s ag → s.tokenHolder = none →
      (w = 0 →
        let old := BitVec.ofNat 64 (s.value key 8)
        ∃ t, exec i s = .next t ∧ t.regs ag = (r.setS d old).next 4 ∧ (∀ b, b ≠ ag → t.ctx b = s.ctx b) ∧
          ∀ k, t.byte k = storedByte s key 8 (f 64 old (r.S b) (r.S d)).toNat k) ∧
      (w = 1 →
        let old := BitVec.ofNat 32 (s.value key 4)
        ∃ t, exec i s = .next t ∧ t.regs ag = (r.setS d (if zero then old.zeroExtend 64 else old.signExtend 64)).next 4 ∧ (∀ b, b ≠ ag → t.ctx b = s.ctx b) ∧
          ∀ k, t.byte k = storedByte s key 4 (f 32 old ((r.S b).truncate 32) ((r.S d).truncate 32)).toNat k)

/-- R132, R133, R442: a bank-side operation on cached DRAM sends its request to the home slice and waits, or is Stalled while its core's crossing FIFO admits
nothing; once the answer has come it completes: S(d) takes the
old word (an i32 extended with its sign, another with zeros) and the flags are added, or, posted, nothing is written. -/
def Sys2Proof.Claims.BankOperationsIssue : Prop :=
  ∀ (i : Instr) (d a b t op : Nat) (rd : List Nat), bankForm i = some (d, a, b, t, op, rd) → i.WF →
    ∀ (s : State) (core n : Nat), Present s core n rd →
      let ag := Agent.ctx core n
      let r := s.regs ag
      let len := if t = 1 then 8 else 4
      (r.S a).toNat % len = 0 →
      (∀ slice tag key, Between s core n → (s.entered ag (some 7)).check ag (r.S a).toNat len amoR = .ok (.mem slice tag key) → tag.ty = 0 →
        (s.closed ag = true → ∃ s', exec i s = .next s' ∧ s'.regs ag = r ∧ (s'.ctx ag).st = .stalled ∧ (s'.ctx ag).asked = none ∧ s'.flight = s.flight ∧ OnlyContext s s' ag) ∧
        (s.closed ag = false → ∃ s' m, exec i s = .next s' ∧ s'.regs ag = r ∧ (s'.ctx ag).st = .stalled ∧ (s'.ctx ag).asked = some s.nextMsg ∧ (∀ k, s'.byte k = s.byte k) ∧
          s'.flight = s.flight ++ [(s.nextMsg, m)] ∧ m.ev = ⟨.bankOpAccept, [s.nextMsg]⟩ ∧ m.src = ag.code ∧
          m.words.take 7 = [(r.S a).toNat, op, t, (r.S b).toNat % 2 ^ (8 * len), (r.S d).toNat % 2 ^ (8 * len), (r.OX 5).toNat % 2 ^ 32,
            if d = 0 ∧ op ≠ 3 then 1 else 0])) ∧
      (∀ old fl, Answered s core n [0, old, fl] →
        ∃ s', exec i s = .next s' ∧ OnlyContext s s' ag ∧
          s'.regs ag = ((r.setS d (if t = 0 then BitVec.ofInt 64 (toSigned 32 old) else BitVec.ofNat 64 old)).addFlags (BitVec.ofNat 6 fl)).next 4) ∧
      (Answered s core n [0] → d = 0 → op ≠ 3 → ∃ s', exec i s = .next s' ∧ OnlyContext s s' ag ∧ s'.regs ag = r.next 4)

/-- R132, R133: at the home slice a bank-side operation on DRAM is accepted and goes on to the bank; there it is one step: the word takes the new value,
every other byte stays, and the issuer of one that is not posted is answered with the old word. Integers here. -/
def Sys2Proof.Claims.BankOperationAtTheBank : Prop :=
  (∀ (s : State) (id slice key : Nat) (tag : LineTag) (m : Msg), s.args = [id] → s.msg? id = some m → m.words.length = 9 →
    let ag := Agent.ofCode m.src
    s.pageTarget ag Target.isDram false (m.words.getD 0 0) = .ok (.mem slice tag key) → s.darkAt key = false → s.tokenHolder = none →
    s.pageHeld (m.words.getD 0 0) = false → Alone s ag →
    ∃ t no p, exec .bankOpAccept s = .next t ∧ (∀ k, t.byte k = s.byte k) ∧ (no, p) ∈ t.flight ∧ p.ev = ⟨.bankOpPerform, [no]⟩ ∧ p.src = m.src ∧
      p.words.take 7 = key :: (m.words.drop 1).take 6) ∧
  (∀ (s : State) (id key op ty y e : Nat) (m : Msg), s.args = [id] → s.msg? id = some m → op < 4 → ty < 2 →
    m.words.take 5 = [key, op, ty, y, e] → s.noBad = true → (∀ k, key ≤ k → k < key + 8 → has s.under k = false) →
    let len := if ty = 1 then 8 else 4
    let old := s.value key len
    let new := if op = 0 then (old + y) % 2 ^ (8 * len) else if op = 1 then (if toSigned (8 * len) y < toSigned (8 * len) old then y else old)
      else if op = 2 then (if toSigned (8 * len) old < toSigned (8 * len) y then y else old) else (if old = e then y else old)
    ∃ t, exec .bankOpPerform s = .next t ∧ (∀ k, t.byte k = storedByte s key len new k) ∧
      ((s.ctx (.ofCode m.src)).asked = some id → (t.ctx (.ofCode m.src)).reply = some [0, old, 0]))

/-- R135, R136: a hint completes whatever its address, and no hint, and no CLEAN of cached memory that is not dark, changes a register or a byte of memory. An
address whose page is held for a move is waited for like any (R398), and so is a core's crossing FIFO that admits nothing (R442). -/
def Obligations.CacheHints : Prop :=
  (∀ (i : Instr) (a : Nat) (off : Int), hintForm i = some (a, off) → i.WF →
    ∀ (s : State) (core n : Nat), Plain s core n → Present s core n [a] → NoBankOps s → s.closed (.ctx core n) = false →
      s.pageHeld ((s.regs (.ctx core n)).S a + BitVec.ofInt 64 off).toNat = false →
      ∃ t, exec i s = .next t ∧ t.regs (.ctx core n) = (s.regs (.ctx core n)).next 4 ∧ ∀ k, t.byte k = s.byte k) ∧
  (∀ (s : State) (core n a slice key : Nat) (off : Int) (tag : LineTag), Between s core n → Present s core n [a] → (Instr.clean a off).WF → s.closed (.ctx core n) = false →
    let ag := Agent.ctx core n
    let va := ((s.regs ag).S a + BitVec.ofInt 64 off).toNat
    (s.entered ag (some 4)).check ag va 1 rdR = .ok (.mem slice tag key) → s.pageHeld va = false → (∀ e ∈ (s.slice slice).sectors, s.darkLine e.tag = false) →
    ∃ t, exec (.clean a off) s = .next t ∧ t.regs ag = (s.regs ag).next 4 ∧ (∀ k, t.byte k = s.byte k) ∧
      ∀ e ∈ (t.slice slice).sectors, e.tag.va / 4 = va / 1024 → e.kept = false → e.dirty = false)

/-- R122, R125, R127: loads and stores of the own scratchpad. -/
def Obligations.ScratchpadAccesses : Prop := Claims.ScratchpadLoads ∧ Claims.ScratchpadStores

/-- R125, R209, R223: loads of cached memory, and stores that wait for the commit. -/
def Obligations.GlobalAccesses : Prop := Claims.GlobalLoads ∧ Claims.StoresWaitForCommit

/-- R44, R45, R128, R129: the walk of a pointer, and the checks of pointer instructions. -/
def Obligations.Pointers : Prop := Claims.PointerWalk ∧ Claims.PointerChecks

/-- R132, R133: the bank-side operations, from their issue to the bank and back. -/
def Obligations.BankOperations : Prop := Claims.BankOperationsIssue ∧ Claims.BankOperationAtTheBank

/-! ## Chunks, traps and returns, fences, contexts -/

namespace Sys2Proof.Claims

open Sys2Proof Sys2Proof.Machine

/-- Two loop sets and s24 to s31 exchanged with their shadows (R119, R168). -/
structure Exchanged (r r' : Regs) : Prop where
  high : ∀ k, 24 ≤ k → k < 32 → look 0 r'.s k = look 0 r.shadow k ∧ look 0 r'.shadow k = look 0 r.s k
  low : ∀ k, k < 24 → look 0 r'.s k = look 0 r.s k
  loops : r'.loop0 = r.shLoop0 ∧ r'.loop1 = r.shLoop1 ∧ r'.shLoop0 = r.loop0 ∧ r'.shLoop1 = r.loop1

/-- The registers that no entry to the user handler, and no return from it, touches (R168). -/
def besideUser (r : Regs) : Regs :=
  { r with pc := 0, s := [], shadow := [], loop0 := {}, loop1 := {}, shLoop0 := {}, shLoop1 := {}, upc := 0, ucause := 0, uinfo := 0, act := false }

/-- Entry of a cause at uvec (R168). -/
structure UserEntered (s t : State) (ag : Agent) (cause : Nat) (info : W64) : Prop where
  saved : (t.regs ag).upc = (s.regs ag).pc ∧ (t.regs ag).ucause = BitVec.ofNat 64 cause ∧ (t.regs ag).uinfo = info ∧ (t.regs ag).act = true
  exchange : Exchanged (s.regs ag) (t.regs ag)
  target : (t.regs ag).pc = (s.regs ag).uvec &&& ~~~(1#64)
  beside : besideUser (t.regs ag) = besideUser (s.regs ag)
  level : (t.ctx ag).lvl = (s.ctx ag).lvl
  memory : ∀ k, t.byte k = s.byte k

/-- Entry of a cause at svec (R360): spc, scause, sinfo and sstat are written, the level becomes supervisor, the pc goes to svec; every other register
keeps its value. -/
structure SupervisorEntered (s t : State) (ag : Agent) (cause detail : Nat) (info : W64) (async : Bool) : Prop where
  regs : t.regs ag = { s.regs ag with
    spc := (s.regs ag).pc
    scause := BitVec.ofNat 64 ((if async then 2 ^ 63 else 0) + detail * 2 ^ 8 + cause)
    sinfo := info
    sstat := BitVec.ofNat 64 (8 + (if (s.ctx ag).lvl = .sup then 4 else 0) + (if bit (s.regs ag).sstat.toNat 0 then 2 else 0))
    pc := (s.regs ag).svec &&& ~~~(1#64) }
  level : (t.ctx ag).lvl = .sup
  memory : ∀ k, t.byte k = s.byte k

/-- The causes that uie sends to the user handler (R166). -/
def toUser (r : Regs) (cause : Nat) : Bool := [0x08, 0x09, 0x0C, 0x0D, 0x11, 0x20, 0x21, 0x22, 0x23].contains cause && bit r.uie.toNat cause
/-- A pending cause that the supervisor is to take: one that uie does not route, a PREEMPT at user level alone (R359). -/
def ForSupervisor (c : Ctx) (cause : Nat) : Prop := toUser c.r cause = false ∧ (cause = 0x24 → c.lvl = .user)
/-- The lowest pending cause of a kind, with its info. -/
def FirstPending (c : Ctx) (kind : Nat → Prop) (cause : Nat) (info : W64) : Prop :=
  (cause, info) ∈ c.pend ∧ kind cause ∧ ∀ e ∈ c.pend, kind e.1 → cause ≤ e.1

/-- The trapping instructions (R366): the cause and its info. -/
def softTrap : Instr → Option (Nat × Nat)
  | .trap i => some (0x12, i)
  | .brk i => some (0x11, i)
  | .cBrk => some (0x11, 0x10000)
  | _ => none

/-- The instructions for the supervisor alone (R91). -/
def supervisorOnly : Instr → Bool
  | .eret | .wfi | .plbw _ _ | .plbinv _ => true
  | _ => false

/-- The registers after a return to the interrupted code (R367): sie takes psie, crit is cleared. -/
def returned (r : Regs) (clear : W64) : Regs :=
  { r with sstat := (r.sstat &&& ~~~(9#64 ||| clear)) ||| (if bit r.sstat.toNat 1 then 1 else 0), pc := r.spc &&& ~~~(1#64) }

end Sys2Proof.Claims

open Sys2Proof Sys2Proof.Machine Sys2Proof.Claims

/-- R125, R208, R209, R442, R473, R475: CHUNK commits the running chunk, where the crossing FIFO of its core admits requests and its stores to PEER pages have
credit, else it is Stalled with its chunk as it stands: every byte that it has buffered stands in memory, and no other byte changes; a store it has made to
another core's scratchpad leaves, and one to a PEER page leaves on its flow, or, on a broken flow, is marked; the pc goes on. The same commit, as the happening it is, leaves the registers alone. -/
def Obligations.ChunkCommits : Prop :=
  ∀ (s : State) (core n : Nat), core < 100352 → n < 4 →
    let ag := Agent.ctx core n
    let k := (s.ctx ag).chunk
    k.run = true → (k.wbuf.map (·.1)).Nodup → s.queued ag = false → s.tokenHolder = none → Alone s ag → NoBankOps s →
    let committed (t : State) : Prop := (∀ a, t.byte a = look (s.byte a) k.wbuf a) ∧ (t.ctx ag).chunk.run = false ∧
      (∀ x, k.remote = [x] → ∃ id m, (id, m) ∈ t.flight ∧ m.ev = ⟨.remoteStoreGroup, [id]⟩ ∧ m.stores = [x] ∧ m.src = ag.code) ∧
      (∀ p, k.peer = [p] →
        (bit (look 0 s.flows p.flow).toNat 62 = true → t.outbox = s.outbox ∧ (t.ctx ag).flowMarks = (s.ctx ag).flowMarks ++ [(p.flow, 3)]) ∧
        (bit (look 0 s.flows p.flow).toNat 62 = false → (t.ctx ag).flowMarks = (s.ctx ag).flowMarks ∧
          t.outbox = s.outbox ++ [(0x1000 + p.flow, look 0 s.flowSeq p.flow :: [1, if p.ord then 1 else 0, p.va, p.bytes.length, leNat p.bytes])]))
    let passes : Bool := k.peer.all (fun p => s.credit p.flow k.peer.length) && (!s.closed ag || (k.wbuf.isEmpty && k.peer.isEmpty))
    (passes = true → Plain s core n → ∃ t, exec .chunk s = .next t ∧ committed t ∧ t.regs ag = (s.regs ag).next 4) ∧
    (passes = true → s.args = [ag.code] → ∃ t, exec .chunkCommit s = .next t ∧ committed t ∧ t.regs ag = s.regs ag) ∧
    (s.closed ag = true → k.wbuf ≠ [] → Plain s core n → ∃ t, exec .chunk s = .next t ∧ (t.ctx ag).st = .stalled ∧ (t.ctx ag).chunk = k ∧ t.regs ag = s.regs ag ∧ OnlyContext s t ag)

/-- R101, R211: a squash gives back the registers of the start of the chunk, the bytes of its own scratchpad, and a special register outside the context that
the chunk has written and nothing since, a request for pre-emption that it has withdrawn with its count; it drops what the chunk has buffered, and counts an attempt. -/
def Sys2Proof.Claims.SquashUndoes : Prop :=
  ∀ (s : State) (ag : Agent), (s.ctx ag).chunk.run = true → (((s.ctx ag).chunk.undo).map (·.1)).Nodup → (∀ e ∈ (s.ctx ag).chunk.undo, e.2.length = 64) →
    let t := s.squash ag
    (t.ctx ag).chunk = {} ∧ (t.ctx ag).attempts = (s.ctx ag).attempts + 1 ∧
    (∀ e ∈ (s.ctx ag).chunk.undo, ∀ j, j < 64 → t.byte (64 * e.1 + j) = e.2.getD j 0) ∧
    (∀ k, (∀ e ∈ (s.ctx ag).chunk.undo, k / 64 ≠ e.1) → t.byte k = s.byte k) ∧
    ((∀ e ∈ (s.ctx ag).chunk.special, e.1 ≠ 0x20B) → t.regs ag = (s.ctx ag).chunk.save) ∧
    (∀ old, (s.ctx ag).chunk.special = [(0x20B, old, 1)] → (s.regs ag).preReq = true →
      t.regs ag = { (s.ctx ag).chunk.save with preReq := if old = 0 then false else (s.ctx ag).chunk.pre.isSome || (s.ctx ag).chunk.save.preReq }) ∧
    (∀ at_ left due, (s.ctx ag).chunk.special = [(0x20B, 1, 0)] → (s.regs ag).preReq = false → (s.ctx ag).chunk.pre = some (at_, left, due) →
      t.regs ag = { (s.ctx ag).chunk.save with preReq := true } ∧ (t.ctx ag).dlAt = at_ ∧ (t.ctx ag).dlLeft = left ∧ (t.ctx ag).preDue = due) ∧
    (∀ core n old now, ag = .ctx core n →
      ((s.ctx ag).chunk.special = [(0x220, old, now)] → (t.core core).migThresh = if (s.core core).migThresh = now then old else (s.core core).migThresh) ∧
      ((s.ctx ag).chunk.special = [(0x228, old, now)] → (t.core core).tapTbase = if (s.core core).tapTbase = now then old else (s.core core).tapTbase) ∧
      (∀ b, b < 8 → (s.ctx ag).chunk.special = [(0x20 + b, old, now)] →
        look 0 (t.core core).bfmt b = if BitVec.ofNat 64 (look 0 (s.core core).bfmt b) = now then old.toNat else look 0 (s.core core).bfmt b))

/-- R213: the priority token, while none holds it, goes to the context that has asked longest. -/
def Sys2Proof.Claims.PriorityToken : Prop :=
  ∀ (s : State) (code : Nat) (rest : List Nat), s.tokenHolder = none → s.tokenQ = code :: rest → code < 401408 →
    ∃ t, exec .priorityTokenGrant s = .next t ∧ t.tokenHolder = some code ∧ t.tokenQ = rest ∧ (t.ctx (.ofCode code)).token = true ∧
      (∀ b, b ≠ .ofCode code → t.ctx b = s.ctx b) ∧ ∀ k, t.byte k = s.byte k

/-- R360, R362, R366: TRAP, BRK and C.BRK complete as an entry of SYSCALL or BRK: at user level, with no handler running, at svec, or, a BRK that uie
routes, at uvec; at supervisor level at svec again. -/
def Obligations.SoftwareTraps : Prop :=
  ∀ (i : Instr) (cause info : Nat), softTrap i = some (cause, info) → i.WF →
    (∀ (s : State) (core n : Nat), Between s core n → (s.ctx (.ctx core n)).lvl = .user → (s.regs (.ctx core n)).act = false → (s.regs (.ctx core n)).tpend = [] →
      (cause = 0x12 ∨ bit (s.regs (.ctx core n)).uie.toNat 17 = false →
        ∃ t, exec i s = .next t ∧ SupervisorEntered s t (.ctx core n) cause 0 (BitVec.ofNat 64 info) false) ∧
      (cause = 0x11 → bit (s.regs (.ctx core n)).uie.toNat 17 = true →
        ∃ t, exec i s = .next t ∧ UserEntered s t (.ctx core n) cause (BitVec.ofNat 64 info))) ∧
    (∀ (s : State) (core n : Nat), Between s core n → (s.ctx (.ctx core n)).lvl = .sup → bit (s.regs (.ctx core n)).sstat.toNat 3 = false → (s.regs (.ctx core n)).tpend = [] →
      ∃ t, exec i s = .next t ∧ SupervisorEntered s t (.ctx core n) cause 0 (BitVec.ofNat 64 info) false)

/-- R166, R168, R170, R360 to R364, R369, R386: taking a synchronous trap between two chunks. At user level a cause that uie routes goes to uvec, any other
to svec; while a user handler runs, every one goes to svec as DOUBLE with the cause in scause<15:8>; at supervisor level it enters again, or, with crit
set, freezes the context and writes nothing of the trap. PROT and PAGE record plb.ctl and plb.fva first. The Iluet enters at fvec, or stops with crit set. -/
def Obligations.TrapEntry : Prop :=
  ∀ (s : State) (tr : Trap),
    (∀ core n, Between s core n → (s.regs (.ctx core n)).tpend = [] → tr.plb = none →
      let ag := Agent.ctx core n
      let t := s.takeTrap ag tr
      ((s.ctx ag).lvl = .user → (s.regs ag).act = false →
        (tr.cause ∈ [8, 9, 12, 13, 17] ∧ bit (s.regs ag).uie.toNat tr.cause = true → UserEntered s t ag tr.cause tr.info) ∧
        (tr.cause < 0x20 → ¬ (tr.cause ∈ [8, 9, 12, 13, 17] ∧ bit (s.regs ag).uie.toNat tr.cause = true) →
          SupervisorEntered s t ag tr.cause tr.detail tr.info false)) ∧
      ((s.ctx ag).lvl = .user → (s.regs ag).act = true → SupervisorEntered s t ag 0x14 tr.cause tr.info false) ∧
      ((s.ctx ag).lvl = .sup → bit (s.regs ag).sstat.toNat 3 = false → SupervisorEntered s t ag tr.cause tr.detail tr.info false) ∧
      ((s.ctx ag).lvl = .sup → bit (s.regs ag).sstat.toNat 3 = true → s.jobOf core = none →
        t.regs ag = s.regs ag ∧ (t.ctx ag).st = .waiting ∧ (t.ctx ag).why = 6 ∧ ∃ e, t.errs = s.errs ++ [e] ∧ e.src = 1 ∧ e.sub = 1 ∧ e.cause = tr.cause)) ∧
    (∀ core n k l va, Between s core n → (s.regs (.ctx core n)).tpend = [] → tr.plb = some (k, l, va) → (s.ctx (.ctx core n)).lvl = .sup →
      bit (s.regs (.ctx core n)).sstat.toNat 3 = false →
      ((s.takeTrap (.ctx core n) tr).regs (.ctx core n)).plbCtl = BitVec.ofNat 64 (l * 2 ^ 8 + k) ∧
      ((s.takeTrap (.ctx core n) tr).regs (.ctx core n)).plbFva = va ∧ ((s.takeTrap (.ctx core n) tr).regs (.ctx core n)).spc = (s.regs (.ctx core n)).pc) ∧
    (s.iluet.chunk.run = false → s.iluet.r.tpend = [] → tr.plb = none →
      let t := s.takeTrap .iluet tr
      (bit s.fw.fstat.toNat 3 = false →
        t.fw.fpc = s.iluet.r.pc ∧ t.fw.fcause = BitVec.ofNat 64 (tr.detail * 2 ^ 8 + tr.cause) ∧ t.fw.finfo = tr.info ∧
        t.fw.fstat = BitVec.ofNat 64 (8 + (if bit s.fw.fstat.toNat 0 then 2 else 0)) ∧ t.iluet.r = { s.iluet.r with pc := s.fw.fvec &&& ~~~(1#64) }) ∧
      (bit s.fw.fstat.toNat 3 = true → t.fw.stopped = true ∧ t.fw.fpc = s.fw.fpc ∧ t.iluet.r = s.iluet.r))

/-- R91, R94, R365: a supervisor instruction at user level raises PRIV with its word, and does nothing else. -/
def Sys2Proof.Claims.SupervisorOnly : Prop :=
  ∀ (i : Instr), supervisorOnly i = true → i.WF → ∀ (s : State) (core n : Nat), s.cur = .ctx core n → (s.ctx (.ctx core n)).lvl = .user →
    exec i s = .next (s.takeTrap (.ctx core n) { cause := 0x02, info := BitVec.ofNat 64 (insWord i) })

/-- R169, R367, R369: ERET without a save or a load returns to spc at the level that ppl names, with sie from psie and crit cleared; on the Iluet to fpc;
URET in a user handler exchanges s24 to s31 and the loop sets back, clears act and returns to upc; outside one it raises ILLEGAL. -/
def Obligations.Returns : Prop :=
  (∀ (s : State) (core n : Nat), Between s core n → (s.ctx (.ctx core n)).lvl = .sup → (s.regs (.ctx core n)).tpend = [] →
    bit (s.regs (.ctx core n)).sstat.toNat 4 = false → bit (s.regs (.ctx core n)).sstat.toNat 5 = false →
    ∃ t, exec .eret s = .next t ∧ t.regs (.ctx core n) = returned (s.regs (.ctx core n)) 0 ∧
      (t.ctx (.ctx core n)).lvl = (if bit (s.regs (.ctx core n)).sstat.toNat 2 then .sup else .user) ∧ OnlyContext s t (.ctx core n)) ∧
  (∀ (s : State), s.cur = .iluet → s.iluet.st = .ready → s.iluet.chunk.run = false →
    ∃ t, exec .eret s = .next t ∧ t.fw.fstat = (s.fw.fstat &&& ~~~(9#64)) ||| (if bit s.fw.fstat.toNat 1 then 1 else 0) ∧
      t.iluet.r = { s.iluet.r with pc := s.fw.fpc &&& ~~~(1#64) } ∧ OnlyContext s t .iluet) ∧
  (∀ (s : State) (core n : Nat), Between s core n → (s.regs (.ctx core n)).tpend = [] →
    let r := s.regs (.ctx core n)
    (r.act = true → ∃ t, exec .uret s = .next t ∧ Exchanged r (t.regs (.ctx core n)) ∧ (t.regs (.ctx core n)).act = false ∧
      (t.regs (.ctx core n)).pc = r.upc &&& ~~~(1#64) ∧ besideUser (t.regs (.ctx core n)) = besideUser r ∧
      (t.regs (.ctx core n)).upc = r.upc ∧ (t.regs (.ctx core n)).ucause = r.ucause ∧ (t.regs (.ctx core n)).uinfo = r.uinfo ∧ OnlyContext s t (.ctx core n)) ∧
    (r.act = false → exec .uret s = .next (s.takeTrap (.ctx core n) { cause := 0x01, info := BitVec.ofNat 64 (insWord .uret) })))

/-- R166, R170, R348, R359: of the causes pending for a context one enters at a boundary. Those that uie does not route go to svec, the lowest code first, when the
level is user or sie is set, PREEMPT from user level alone; with none of them, those that it routes go to uvec, the lowest first, at user level while no handler
runs. The one taken is pending no more, but for PROBE while more are to be delivered, and TIMER clears tmr.cmp. With none deliverable nothing enters. -/
def Obligations.AsynchronousEntry : Prop :=
  ∀ (s : State) (core n cause : Nat) (info : W64), core < 100352 → n < 4 →
    let ag := Agent.ctx core n
    let c := s.ctx ag
    s.args = [ag.code] → c.chunk.run = false → c.r.tpend = [] → c.asked = none → (c.pend.map (·.1)).Nodup →
    let supervisor := c.lvl = .user ∨ bit c.r.sstat.toNat 0 = true
    let user := c.lvl = .user ∧ c.r.act = false
    let s' := if cause = 0x20 then s.modR ag (fun r => { r with tmrCmp := 0 }) else s
    let taken (t : State) : Prop := ∀ e, e ∈ (t.ctx ag).pend ↔ e ∈ c.pend ∧ e.1 ≠ cause
    (supervisor → FirstPending c (ForSupervisor c) cause info → cause ≠ 0x0F →
      ∃ t, exec .supervisorEntry s = .next t ∧ SupervisorEntered s' t ag cause 0 info true ∧ taken t ∧ (t.ctx ag).probes = c.probes) ∧
    (∀ detail what rest, supervisor → FirstPending c (ForSupervisor c) 0x0F info → c.probes = (detail, what) :: rest →
      ∃ t, exec .supervisorEntry s = .next t ∧ SupervisorEntered s t ag 0x0F detail what true ∧ (t.ctx ag).probes = rest ∧
        ((∃ i, (0x0F, i) ∈ (t.ctx ag).pend) ↔ rest ≠ [])) ∧
    (user → (∀ e ∈ c.pend, ¬ ForSupervisor c e.1) → FirstPending c (fun k => toUser c.r k = true) cause info →
      ∃ t, exec .userTrapEntry s = .next t ∧ UserEntered s' t ag cause info ∧ taken t) ∧
    ((∀ e ∈ c.pend, ¬ (supervisor ∧ ForSupervisor c e.1) ∧ ¬ (user ∧ toUser c.r e.1 = true)) → exec .supervisorEntry s = .next s ∧ exec .userTrapEntry s = .next s)

/-- R137, R222, R368: IFENCE empties the instruction cache of its core; WFI completes when a cause is pending and waits when none is; FENCE.S completes when
every scratchpad store is acknowledged, FENCE.F when every store and atomic to other modules is and none has failed; each changes nothing else. -/
def Sys2Proof.Claims.FencesAndWaits : Prop :=
  ∀ (s : State) (core n : Nat), Between s core n →
    let ag := Agent.ctx core n
    let c := s.ctx ag
    exec .ifence s = .next ((s.modCore core (fun k => { k with icache := [] })).completed core n (fun r => r.next 4)) ∧
    (c.unackedScratch = 0 → exec .fenceS s = .next (s.completed core n (fun r => r.next 4))) ∧
    (c.unackedScratch ≠ 0 → exec .fenceS s = .next ((s.entered ag (some 0)).stallHeld ag)) ∧
    (c.unackedPeer = [] → c.flowMarks = [] → exec .fenceF s = .next (s.completed core n (fun r => r.next 4))) ∧
    (∀ f reason, c.unackedPeer = [] → c.flowMarks = [(f, reason)] → ∃ t : State, exec .fenceF s = .next (t.takeTrap ag { cause := 0x13, info := BitVec.ofNat 64 (reason * 2 ^ 8 + f) }) ∧
      (t.ctx ag).flowMarks = [] ∧ t.regs ag = s.regs ag) ∧
    (c.lvl = .sup → c.pend ≠ [] → exec .wfi s = .next ((s.modCtx ag (fun c => { c with why := 0 })).completed core n (fun r => r.next 4))) ∧
    (c.lvl = .sup → c.pend = [] → ∃ t, exec .wfi s = .next t ∧ (t.ctx ag).st = .waiting ∧ (t.ctx ag).why = 5 ∧ t.regs ag = c.r)

/-- R383, R384: PLBW writes the entry that S(b) names from the fields of S(a) and S(b), or raises BOUNDS where they break its rules; PLBINV makes every entry
of a domain, or every entry, invalid. -/
def Sys2Proof.Claims.PlbInstructions : Prop :=
  ∀ (s : State) (core n a b : Nat), Between s core n → (s.ctx (.ctx core n)).lvl = .sup → Present s core n [a, b] → a < 32 → b < 32 →
    let ag := Agent.ctx core n
    let x := ((s.regs ag).S a).toNat
    let y := ((s.regs ag).S b).toNat
    let good := bits x 63 56 = 0 ∧ bits x 15 6 = 0 ∧ 16 ≤ bits x 5 0 ∧ bits x 5 0 ≤ 56 ∧ (bits x 55 16 * 2 ^ 16) % 2 ^ bits x 5 0 = 0 ∧
      bits y 47 46 = 0 ∧ bits y 39 8 = 0 ∧ bits y 6 5 = 0
    let entry : PlbEntry := { base := bits x 55 16 * 2 ^ 16, sz := bits x 5 0, dom := bits y 63 48, v := bit y 7, e := bit y 4, at_ := bit y 3,
                              x := bit y 2, w := bit y 1, r := bit y 0 }
    (good → exec (.plbw a b) s = .next ((s.modCore core (fun k => { k with plb := put (bits y 45 40) entry k.plb })).completed core n (fun r => r.next 4))) ∧
    (¬ good → exec (.plbw a b) s = .next (s.takeTrap ag { cause := 0x07, info := BitVec.ofNat 64 a })) ∧
    (∃ t, exec (.plbinv a) s = .next t ∧ t.regs ag = (s.regs ag).next 4 ∧ (∀ k, t.byte k = s.byte k) ∧
      ∀ e p, (e, p) ∈ (t.core core).plb → (bit x 0 = true ∨ p.dom = bits x 63 48) → p.v = false)

/-- R28, R160, R162, R163 (that JOIN goes on waiting for a helper that is Saved is the model's reading, log 26): START launches the lowest idle helper at S(a), with S(b) and S(c) in s3 and s4 and every other general register 0, and S(c) takes
its number; without an idle helper S(c) takes 0. JOIN completes when the helpers named are idle; YIELD gives up its place among the contexts. -/
def Sys2Proof.Claims.HelperContexts : Prop :=
  (∀ (s : State) (core a b c : Nat), Between s core 0 → Present s core 0 [a, b, c] → a < 32 → b < 32 → c < 32 → (s.core core).courier = none →
    let ag := Agent.ctx core 0
    let r := s.regs ag
    (r.S a).getLsbD 0 = false →
    (∀ h, s.idleCtx core 1 = some h →
      ∃ t, exec (.start a b c) s = .next t ∧ t.regs ag = (r.setS c (BitVec.ofNat 64 h)).next 4 ∧ (t.ctx (.ctx core h)).st = .ready ∧
        (t.ctx (.ctx core h)).lvl = .user ∧ (t.regs (.ctx core h)).pc = r.S a ∧ (t.regs (.ctx core h)).dom = r.dom ∧
        (∀ k, (t.regs (.ctx core h)).S k = if k = 3 then r.S b else if k = 4 then r.S c else 0) ∧
        (∀ k, (t.regs (.ctx core h)).V k = 0 ∧ (t.regs (.ctx core h)).P k = 0) ∧ ∀ k, t.byte k = s.byte k) ∧
    (s.idleCtx core 1 = none → ∃ t, exec (.start a b c) s = .next t ∧ t.regs ag = (r.setS c 0).next 4 ∧ OnlyContext s t ag)) ∧
  (∀ (s : State) (core a b c : Nat), Between s core 0 → Present s core 0 [a, b, c] → a < 32 → b < 32 → c < 32 →
    ((s.regs (.ctx core 0)).S a).getLsbD 0 = true →
    exec (.start a b c) s = .next (s.takeTrap (.ctx core 0) { cause := 0x03, info := (s.regs (.ctx core 0)).S a, addr := true })) ∧
  (∀ (s : State) (core a : Nat), Between s core 0 → Present s core 0 [a] → a < 32 →
    ((∀ h, 1 ≤ h → h ≤ 3 → ((s.regs (.ctx core 0)).S a).getLsbD h = true → (s.ctx (.ctx core h)).st = .idle) →
      exec (.join a) s = .next (s.completed core 0 (fun r => r.next 4))) ∧
    ((∃ h, 1 ≤ h ∧ h ≤ 3 ∧ ((s.regs (.ctx core 0)).S a).getLsbD h = true ∧ (s.ctx (.ctx core h)).st ≠ .idle) →
      ∃ t, exec (.join a) s = .next t ∧ (t.ctx (.ctx core 0)).st = .waiting ∧ (t.ctx (.ctx core 0)).why = 4 ∧ t.regs (.ctx core 0) = s.regs (.ctx core 0))) ∧
  (∀ (s : State) (core n : Nat), Plain s core n →
    exec .yield s = .next (((s.beginChunk (.ctx core n)).modCore core (fun k => { k with last := n })).completed core n (fun r => r.next 4)))

/-- R27, R31, R32: RETIRE outside a caravan's deal ends its context, which becomes idle with its entries released; a control context with live helpers
waits for them, and ends with the last of them; a courier that waits in the core's slot then starts the lowest idle context, at
its pc without bit 0 (that bit is the model's choice, log 17). -/
def Sys2Proof.Claims.ContextsEnd : Prop :=
  (∀ (s : State) (core n : Nat), Between s core n → (s.regs (.ctx core n)).act = false → (s.regs (.ctx core n)).tpend = [] → s.control (.ctx core n) = none →
    (s.ctx (.ctx core n)).mcmds = 0 → (s.ctx (.ctx core n)).taps = 0 → (s.ctx (.ctx core n)).probes = [] → s.jobOf core = none →
    (s.ctx (.ctx core n)).entries = [] → (s.ctx (.ctx core n)).token = false → s.tokenHolder = none → s.tokenQ = [] →
    ((n = 0 → ∀ h, 1 ≤ h → h < 4 → (s.ctx (.ctx core h)).live = false) →
      ∃ t, exec .retire s = .next t ∧ (t.ctx (.ctx core n)).st = .idle ∧ (∀ k, t.byte k = s.byte k) ∧ (t.core core).inbox = (s.core core).inbox) ∧
    (n = 0 → (∃ h, 1 ≤ h ∧ h < 4 ∧ (s.ctx (.ctx core h)).live = true) →
      ∃ t, exec .retire s = .next t ∧ (t.ctx (.ctx core 0)).st = .waiting ∧ (t.ctx (.ctx core 0)).why = 4 ∧ t.regs (.ctx core 0) = s.regs (.ctx core 0))) ∧
  (∀ (s : State) (core : Nat), s.args = [core] → core < 100352 → (s.ctx (.ctx core 0)).st = .waiting → (s.ctx (.ctx core 0)).why = 4 →
    (s.ctx (.ctx core 0)).retiring = true → (∀ h, 1 ≤ h → h < 4 → (s.ctx (.ctx core h)).live = false) →
    s.jobOf core = none → ∃ t, exec .helpersEnded s = .next t ∧ (t.ctx (.ctx core 0)).st = .idle) ∧
  (∀ (s : State) (core n : Nat) (c : Courier), s.args = [core] → (s.core core).courier = some c → s.idleCtx core 0 = some n → c.src < 401408 →
    ∃ t, exec .courierSlotStart s = .next t ∧ (t.core core).courier = none ∧ (t.ctx (.ctx core n)).st = .ready ∧ (t.regs (.ctx core n)).pc = c.pc &&& ~~~(1#64) ∧
      (t.regs (.ctx core n)).S 3 = c.x ∧ (t.regs (.ctx core n)).S 4 = c.y ∧ (t.regs (.ctx core n)).dom = BitVec.ofNat 64 c.dom)

/-- R91, R94, R96, R365: what the executing level may not do. -/
def Obligations.PrivilegeChecks : Prop := Claims.SpecialRegisterDenied ∧ Claims.SupervisorOnly

/-- R211, R213: a squash, and the priority token that a chunk squashed too often asks for. -/
def Obligations.ChunksUndone : Prop := Claims.SquashUndoes ∧ Claims.PriorityToken

/-- R137, R222, R368, R383, R384: the fences, WFI and the PLB instructions. -/
def Obligations.FencesWaitsAndPlb : Prop := Claims.FencesAndWaits ∧ Claims.PlbInstructions

/-- R27, R28, R31, R32, R160 to R163: how contexts start, wait for each other, and end (bit 0 of a courier's pc as log 17 chooses, JOIN with a helper that is Saved as log 26 reads it). -/
def Obligations.ContextLifecycle : Prop := Claims.HelperContexts ∧ Claims.ContextsEnd

/-! ## Saves, messages, arrivals -/

namespace Sys2Proof.Claims

open Sys2Proof Sys2Proof.Machine

/-- A completion message back to the sender of agent code `src`, from the core `from_`, with a status and a tag (R172, R173). -/
def Completion (t : State) (src from_ status tag : Nat) (payload : W64) : Prop :=
  ∃ id m, (id, m) ∈ t.flight ∧ m.ev = ⟨.senderCompletion, [id]⟩ ∧ m.src = src ∧ m.words = [from_, status, tag, payload.toNat]

/-- An inbox header (R172): kind, status, tag, length − 1, sending context and core. -/
def headerWord (kind status tag len ctx core : Nat) : W64 :=
  BitVec.ofNat 64 (kind * 2 ^ 56 + status * 2 ^ 48 + tag * 2 ^ 32 + len * 2 ^ 22 + ctx * 2 ^ 20 + coreId core)

/-- An entry of the core's inbox is free for a reservation (R171, R174). -/
def RoomInInbox (s : State) (core : Nat) : Prop := (s.core core).inbox.length + (s.core core).reserved < 64

/-- A message instruction has completed: an entry is reserved for its completion, one message is on its way, and of memory nothing has changed (R174). -/
def Leaves (s t : State) (core n : Nat) (row : Instr) (words : List Nat) (payload : List Byte) : Prop :=
  (∃ m, t.flight = s.flight ++ [(s.nextMsg, m)] ∧ m.ev = ⟨row, [s.nextMsg]⟩ ∧ m.src = 4 * core + n ∧ m.words = words ∧ m.bytes = payload ∧ m.stores = []) ∧
  t.regs (.ctx core n) = (s.regs (.ctx core n)).next 4 ∧ (t.core core).reserved = (s.core core).reserved + 1 ∧ ∀ k, t.byte k = s.byte k

/-- A message instruction waits for a free entry: it executes again, and nothing has left. -/
def WaitsForEntry (s t : State) (core n : Nat) : Prop :=
  (t.ctx (.ctx core n)).st = .stalled ∧ t.regs (.ctx core n) = s.regs (.ctx core n) ∧ t.flight = s.flight

end Sys2Proof.Claims

open Sys2Proof Sys2Proof.Machine Sys2Proof.Claims

/-- R375, R376: the blocks of a save area: the header with the core, the context, version 1 and the flags; the saved pc; each scalar and vector register
that its mask names at its place. -/
def Sys2Proof.Claims.SaveAreaLayout : Prop :=
  ∀ (s : State) (core n : Nat) (m : LiveMap) (pc : W64) (spent : Option Nat),
    let blocks := s.areaBlocks core n m pc spent
    let r := s.regs (.ctx core n)
    (∃ b, (0, b) ∈ blocks ∧ b.length = 0x100 ∧ leNat ((b.drop 8).take 8) = pc.toNat ∧
      (n < 4 → core < 100352 → m.index < 2 ^ 16 →
        let h := leNat (b.take 8)
        bits h 15 0 = m.index ∧ bit h 16 = m.ox ∧ bit h 17 = m.ptr ∧ bit h 18 = m.lp ∧ bit h 19 = m.mx ∧ bit h 20 = m.full ∧ bits h 31 24 = 1 ∧
        bits h 50 32 = coreId core ∧ bits h 53 52 = n ∧ bits h 63 54 = 0)) ∧
    (∀ k, 1 ≤ k → k < 32 → bit m.smask k = true → (0x100 + 8 * k, leBytes 8 (r.S k).toNat) ∈ blocks) ∧
    (∀ k, k < 32 → bit m.vmask k = true → (0x400 + 32 * k, leBytes 32 (r.V k).toNat) ∈ blocks)

/-- R33, R36, R372: SAFE completes and changes nothing when no request for pre-emption is pending, or at supervisor level; with one pending and dlv set it
completes with PREEMPT pending, the index in its info; with dlv clear the context stands at the SAFE while its save is made. -/
def Sys2Proof.Claims.SafePoints : Prop :=
  ∀ (s : State) (core n i : Nat), Between s core n → i < 65536 → s.jobOf core = none →
    let ag := Agent.ctx core n
    ((s.regs ag).preReq = false ∨ (s.ctx ag).lvl = .sup → exec (.safe i) s = .next (s.completed core n (fun r => r.next 4))) ∧
    ((s.regs ag).preReq = true → (s.ctx ag).lvl = .user → (s.regs ag).preDlv = true → (s.liveMap ag i).isSome = true →
      ∃ t, exec (.safe i) s = .next t ∧ t.regs ag = ({ s.regs ag with preReq := false } : Regs).next 4 ∧
        look 0 (t.ctx ag).pend 0x24 = BitVec.ofNat 64 i ∧ has (t.ctx ag).pend 0x24 = true) ∧
    ((s.regs ag).preReq = true → (s.ctx ag).lvl = .user → (s.regs ag).preDlv = false → (s.liveMap ag i).isSome = true →
      ∃ t, exec (.safe i) s = .next t ∧ t.regs ag = s.regs ag ∧ (t.ctx ag).saving = some (0, i) ∧ t.underWay .contextSave [ag.code] = true)

/-- R36, R370 to R373: a save whose every condition holds and whose writes pass is made, and the context becomes Saved, at user level, with no cause
pending; a deadline makes the save due at the next boundary; a cancel withdraws the request; a request outside a caravan is set. -/
def Sys2Proof.Claims.Preemption : Prop :=
  ∀ (s : State) (core n : Nat), core < 100352 → n < 4 →
    let ag := Agent.ctx core n
    let c := s.ctx ag
    (∀ how t, s.args = [ag.code] → c.saving = some how → c.parked = false → c.probes = [] → s.saveReady core n = true → s.makeSave core n how = .ok t →
      exec .contextSave s = .next t ∧ (t.ctx ag).st = .saved ∧ (t.ctx ag).lvl = .user ∧ (t.ctx ag).pend = [] ∧ (t.regs ag).preReq = false) ∧
    (∀ dn ts, s.args = [ag.code] → c.saving = some (2, dn) → c.parked = false → c.probes = [] → s.saveReady core n = true → s.tokenHolder = none →
      s.areaTargets core c.r.save.toNat wrR ((s.areaBlocks core n (s.saveMap ag (2, dn)) c.r.pc (if (s.core core).holder = some n then some c.rsvSpent else none)).map (fun b => (b.1, b.2.length))) = .ok ts →
      ∃ t, exec .contextSave s = .next t ∧ (t.ctx ag).st = .saved ∧ (t.ctx ag).lvl = .user ∧ (t.ctx ag).pend = [] ∧ (t.regs ag).preReq = false ∧ (t.core core).holder ≠ some n ∧
        (t.regs ag).pc = c.r.pc) ∧
    (∀ no, s.args = [ag.code, no] → c.deadline = no → c.r.preReq = true → c.lvl = .user → c.st = .ready → c.saving = none →
      ∃ t, exec .safedlDeadline s = .next t ∧ (t.ctx ag).preDue = true ∧ t.regs ag = c.r) ∧
    (s.args = [ag.code] → s.jobOf core = none → c.saving = none →
      ∃ t, exec .preemptCancel s = .next t ∧ (t.regs ag).preReq = false ∧ (t.ctx ag).preDue = false ∧ OnlyContext s t ag) ∧
    (s.args = [ag.code] → (s.core core).resident = false → c.r.preReq = false →
      ∃ t, exec .preemptRequest s = .next t ∧ (t.regs ag).preReq = true ∧ (t.regs ag).preDlv = c.r.preDlv ∧ OnlyContext s t ag)

/-- R47, R48, R166, R423, R426: the happenings that a special-register move is: a bank format, the domain of a context, a word of the domain's entry in the
domain table, and the timer, which raises TIMER with tmr.cmp as its info. -/
def Obligations.RegisterHappenings : Prop :=
  ∀ (s : State) (core n : Nat), core < 100352 → n < 4 →
    let ag := Agent.ctx core n
    (s.ctx ag).chunk.run = false →
    (∀ b v, s.args = [ag.code, b, v] → b < 8 → v ≤ 8 → ∃ t, exec .bankFormatWrite s = .next t ∧ (t.core core).bfmt = put b v (s.core core).bfmt ∧ (∀ a, t.ctx a = s.ctx a) ∧ ∀ k, t.byte k = s.byte k) ∧
    (∀ v p, s.args = [ag.code, v] → v < 65536 → s.partOfCol (colOf core) = some p → bits v 15 10 = p →
      ∃ t, exec .ctxDomWrite s = .next t ∧ t.regs ag = { s.regs ag with dom := BitVec.ofNat 64 v } ∧ OnlyContext s t ag) ∧
    (∀ w x slice tag key va, s.args = [ag.code, w, 0, x] → w < 2 → NoBankOps s → s.noBad = true → x < 32 → s.errWord ag w false = .ok (some (.mem slice tag key, va)) →
      ∃ t, exec .errRingMove s = .next t ∧ t.regs ag = (s.regs ag).setS x (BitVec.ofNat 64 (s.value key 8)) ∧ OnlyContext s t ag) ∧
    (∀ w v slice tag key va, s.args = [ag.code, w, 1, v] → w < 2 → v < 2 ^ 64 → s.errWord ag w true = .ok (some (.mem slice tag key, va)) →
      s.tokenHolder = none → NoChunks s → NoBankOps s → s.noBad = true →
      let old := s.value key 8
      let new := if w = 0 then v / 2 ^ 6 * 2 ^ 6 else bits v 63 48 * 2 ^ 48 + bits old 47 32 * 2 ^ 32 + bits v 15 0
      ∃ t, exec .errRingMove s = .next t ∧ ∀ k, t.byte k = storedByte s key 8 new k) ∧
    (s.args = [ag.code] → (s.regs ag).tmrCmp ≠ 0 → (s.regs ag).tmrCmp.toNat ≤ s.time → (s.ctx ag).live = true →
      ∃ t, exec .timer s = .next t ∧ has (t.ctx ag).pend 0x20 = true ∧ look 0 (t.ctx ag).pend 0x20 = (s.regs ag).tmrCmp ∧ t.regs ag = s.regs ag)

/-- R131, R137, R216: at the scratchpad's core a store group writes its bytes and is acknowledged, which steps the sender's count down; a read is answered
with the bytes, an atomic with the old word while the new one is written. No other byte changes. -/
def Obligations.RemoteScratchpadAccesses : Prop :=
  ∀ (s : State) (id : Nat) (m : Msg), s.args = [id] → s.msg? id = some m → s.tokenHolder = none → s.noBad = true → NoChunks s →
    (∀ core off bs, m.stores = [⟨core, off, .raw bs⟩] →
      ∃ t a p, exec .remoteStoreGroup s = .next t ∧
        (∀ k, t.byte k = if scratchKey core off ≤ k ∧ k < scratchKey core off + bs.length then bs.getD (k - scratchKey core off) 0 else s.byte k) ∧
        (a, p) ∈ t.flight ∧ p.ev = ⟨.scratchStoreAck, [a]⟩ ∧ p.src = m.src) ∧
    (∃ t, exec .scratchStoreAck s = .next t ∧ (t.ctx (.ofCode m.src)).unackedScratch = (s.ctx (.ofCode m.src)).unackedScratch - 1 ∧ ∀ k, t.byte k = s.byte k) ∧
    (∀ core off len, m.words = [core, off, len] → (s.ctx (.ofCode m.src)).asked = some id →
      ∃ t, exec .remoteRead s = .next t ∧ (t.ctx (.ofCode m.src)).reply = some (0 :: (s.bytes (scratchKey core off) len).map (·.toNat)) ∧ ∀ k, t.byte k = s.byte k) ∧
    (∀ core off op y e, m.words = [core, off, 8, op, y, e] → op = 0 ∨ op = 8 → (s.ctx (.ofCode m.src)).asked = some id →
      let old := s.value (scratchKey core off) 8
      ∃ t, exec .remoteAtomic s = .next t ∧ (t.ctx (.ofCode m.src)).reply = some [0, old] ∧
        ∀ k, t.byte k = storedByte s (scratchKey core off) 8 (if op = 0 then (old + y) % 2 ^ 64 else y) k)

/-- R175, R176, R178: IBPOP completes: it takes the oldest entry of the context's own into two registers, or zeros; IBLEN completes: it counts the own entries and those in use; SENDR.ARM completes: it
makes a register absent. -/
def Sys2Proof.Claims.InboxInstructions : Prop :=
  ∀ (s : State) (core n d : Nat), d < 32 →
    let ag := Agent.ctx core n
    let own := (s.core core).inbox.filter (fun e => e.ctx = n)
    (∀ e rest, Between s core n → (Instr.ibpop d).WF → own = e :: rest →
      ∃ t, exec (.ibpop d) s = .next t ∧ t.regs ag = (((s.regs ag).setS d e.header).setS (d + 1) e.payload).next 4 ∧ OnlyContext s t ag ∧
        (t.core core).inbox = (s.core core).inbox.erase e) ∧
    (Between s core n → (Instr.ibpop d).WF → own = [] →
      ∃ t, exec (.ibpop d) s = .next t ∧ t.regs ag = (((s.regs ag).setS d 0).setS (d + 1) 0).next 4 ∧ OnlyContext s t ag) ∧
    (Plain s core n → exec (.iblen d) s = .next (s.finish core n (fun r =>
      (r.setS d (BitVec.ofNat 64 (own.length + ((s.core core).inbox.length + (s.core core).reserved) * 2 ^ 16))).next 4))) ∧
    (Between s core n → (Instr.sendrArm d).WF →
      ∃ t, exec (.sendrArm d) s = .next t ∧ t.regs ag = ({ s.regs ag with absent := (s.regs ag).absent ||| BitVec.ofNat 32 (2 ^ d) } : Regs).next 4 ∧ OnlyContext s t ag)

/-- R174, R178, R179: SENDR completes: it reserves an inbox entry and its message leaves; with no free entry it waits; a target off the grid raises BOUNDS with S(a) as info. -/
def Sys2Proof.Claims.RegisterMessagesLeave : Prop :=
  ∀ (s : State) (core n d a b : Nat), Between s core n → (Instr.sendr d a b).WF → Present s core n [a, b] →
    let r := s.regs (.ctx core n)
    (∀ dst, target179 (r.S a).toNat (some core) = some dst → RoomInInbox s core → ∃ t, exec (.sendr d a b) s = .next t ∧ Leaves s t core n .sendrDelivery
      [dst, bits (r.S a).toNat 21 20, d, (r.S b).toNat, bits (r.S a).toNat 47 32, if bit (r.S a).toNat 22 then 1 else 0, (r.S a).toNat, r.dom.toNat] []) ∧
    (∀ dst, target179 (r.S a).toNat (some core) = some dst → ¬ RoomInInbox s core → ∃ t, exec (.sendr d a b) s = .next t ∧ WaitsForEntry s t core n) ∧
    (target179 (r.S a).toNat (some core) = none → exec (.sendr d a b) s = .next (s.takeTrap (.ctx core n) { cause := 0x07, info := r.S a }))

/-- R174, R181, R183: PUTQ of its own scratchpad's bytes completes: it reserves an inbox entry, and its payload leaves for the destination's inbox, or as a courier; with no free entry it waits. A length of 0 or above 256 raises BOUNDS with the
control word, a source that fails a check its cause, a destination outside the two windows PAGE, a courier of other than 24 bytes BOUNDS. -/
def Sys2Proof.Claims.PayloadsLeave : Prop :=
  ∀ (s : State) (core n d a b : Nat), Between s core n → Present s core n [d, a, b] → (Instr.putq d a b).WF →
    let ag := Agent.ctx core n
    let r := s.regs ag
    let s1 := s.entered ag (some 14)
    let w := (r.S d).toNat
    let dst := (r.S a).toNat
    let src := (r.S b).toNat
    let len := bits w 8 0
    let ack := if bit w 20 then 1 else 0
    (len = 0 ∨ 256 < len → exec (.putq d a b) s = .next (s.takeTrap ag { cause := 0x07, info := r.S d })) ∧
    (1 ≤ len → len ≤ 256 → bits src 63 48 ≠ 0xFF81 → bits src 63 48 ≠ 0xFF82 →
      (∀ tr, s1.check ag src len rdR = .error tr → exec (.putq d a b) s = .next (s.takeTrap ag tr)) ∧
      (∀ x, s1.check ag src len rdR = .ok x →
        (bits dst 63 48 ≠ 0xFF80 → bits dst 63 48 ≠ 0xFF82 → exec (.putq d a b) s = .next (s.takeTrap ag { cause := 0x05, info := r.S a, addr := true })) ∧
        (bits dst 63 48 = 0xFF82 → len ≠ 24 → exec (.putq d a b) s = .next (s.takeTrap ag { cause := 0x07, info := r.S d })))) ∧
    (∀ off to_, 1 ≤ len → len ≤ 256 → OwnBytes s1 core n src len off rdR →
      (bits dst 63 48 = 0xFF80 → addrCheck ag dst len false = .ok (some to_) → rightsCheck (s.core core).plb r.dom.toNat dst (absolute 0x80 to_ (bits dst 27 0)) len wrR = .ok () →
        s.tapHeld ag (scratchKey to_ (bits dst 16 0)) len = false →
        (RoomInInbox s core → ∃ t, exec (.putq d a b) s = .next t ∧ Leaves s t core n .putqArrival [to_, bits dst 16 0, bits w 17 16, len, bits w 47 32, ack, dst] (s.bytes (scratchKey core off) len)) ∧
        (¬ RoomInInbox s core → ∃ t, exec (.putq d a b) s = .next t ∧ WaitsForEntry s t core n)) ∧
      (bits dst 63 48 = 0xFF82 → len = 24 → addrCheck ag dst 8 false = .ok (some to_) → rightsCheck (s.core core).plb r.dom.toNat dst (absolute 0x82 to_ (bits dst 27 0)) 8 wrR = .ok () →
        RoomInInbox s core →
        let word (k : Nat) := s.value (scratchKey core off + 8 * k) 8
        ∃ t, exec (.putq d a b) s = .next t ∧ Leaves s t core n .courierArrival [to_, word 0, word 1, word 2, ack, bits w 47 32, dst, r.dom.toNat] []))

/-- R174, R184: WSMSG completes: it reserves an inbox entry, and its two words leave for the home slice of a Global address, of any target type, that passes the checks with read rights; with no free entry it waits. An address that
fails a check raises its cause; of another region that passes, PAGE. -/
def Sys2Proof.Claims.WaystationMessagesLeave : Prop :=
  ∀ (s : State) (core n d a b : Nat), Between s core n → Present s core n [d, a, b] → (Instr.wsmsg d a b).WF →
    let ag := Agent.ctx core n
    let r := s.regs ag
    let s1 := s.entered ag (some 14)
    let va := (r.S a).toNat
    (∀ tr, s1.check ag va 1 rdR (peer := false) = .error tr → exec (.wsmsg d a b) s = .next (s.takeTrap ag tr)) ∧
    (∀ x, s1.check ag va 1 rdR (peer := false) = .ok x →
      (0x80 ≤ bits va 63 48 → exec (.wsmsg d a b) s = .next (s.takeTrap ag { cause := 0x05, info := r.S a, addr := true })) ∧
      (bits va 63 48 < 0x80 → ∀ home, ((∃ tag key, x = .mem home tag key) ∨ ((∀ k tag key, x ≠ .mem k tag key) ∧ ∃ l, s1.leafFor ag va = .ok l ∧ home = homeSlice l.stack va)) →
        (RoomInInbox s core → ∃ t, exec (.wsmsg d a b) s = .next t ∧ Leaves s t core n .wsmsgArrival [home, va, (r.S b).toNat, (r.S d).toNat, r.dom.toNat] []) ∧
        (¬ RoomInInbox s core → ∃ t, exec (.wsmsg d a b) s = .next t ∧ WaitsForEntry s t core n)))

/-- R172, R173, R179, R182, R184: what a message does where it arrives. A SENDR fills an absent register of a live context of its domain; a present one, or a
context that is idle, Saved or of another domain, refuses it, with a completion that says why. A PUTQ writes its bytes and an inbox entry, or, with no
entry free, only reports FULL. A WSMSG with no handler reports so, with one it enters the queue. A completion takes its reserved entry. That a courier's pc keeps no
bit 0 is the model's choice (log 17). -/
def Obligations.MessagesArrive : Prop :=
  ∀ (s : State) (id : Nat) (m : Msg), s.args = [id] → s.msg? id = some m → m.src < 401408 →
    (∀ dst k d v tag ack w dom, m.words = [dst, k, d, v, tag, ack, w, dom] → dst < 100352 → k < 4 → 1 ≤ d → d < 32 → s.darkCols = [] →
      let tgt := Agent.ctx dst k
      let c := s.ctx tgt
      (c.r.dom.toNat ≠ dom → ∃ t, exec .sendrDelivery s = .next t ∧ t.ctx tgt = c ∧ Completion t m.src dst 0x04 tag (BitVec.ofNat 64 w)) ∧
      (c.r.dom.toNat = dom → c.st = .saved → ∃ t, exec .sendrDelivery s = .next t ∧ t.ctx tgt = c ∧ Completion t m.src dst 0x83 tag (BitVec.ofNat 64 w)) ∧
      (c.r.dom.toNat = dom → c.st = .idle → ∃ t, exec .sendrDelivery s = .next t ∧ t.ctx tgt = c ∧ Completion t m.src dst 0x81 tag (BitVec.ofNat 64 w)) ∧
      (c.r.dom.toNat = dom → c.live = true → c.r.absent.getLsbD d = false →
        ∃ t, exec .sendrDelivery s = .next t ∧ t.ctx tgt = c ∧ Completion t m.src dst 0x82 tag (BitVec.ofNat 64 w)) ∧
      (c.r.dom.toNat = dom → c.live = true → c.r.absent.getLsbD d = true → c.r.act = false →
        ∃ t, exec .sendrDelivery s = .next t ∧ (t.regs tgt).S d = BitVec.ofNat 64 v ∧ (t.regs tgt).absent.getLsbD d = false ∧
          (∀ j, j ≠ d → (t.regs tgt).S j = c.r.S j) ∧ (ack = 1 → Completion t m.src dst 0 tag (BitVec.ofNat 64 w)))) ∧
    (∀ from_ status tag payload core n, m.words = [from_, status, tag, payload] → m.src = 4 * core + n → n < 4 → status < 256 → tag < 65536 →
      ∃ t, exec .senderCompletion s = .next t ∧ (t.core core).inbox = (s.core core).inbox ++ [⟨n, headerWord 2 status tag 0 n core, BitVec.ofNat 64 payload⟩] ∧
        (t.core core).reserved = (s.core core).reserved - 1) ∧
    (∀ core off k len tag ack dst, m.words = [core, off, k, len, tag, ack, dst] → core < 100352 → k < 4 → m.bytes.length = len → 1 ≤ len → len ≤ 256 →
      off + len ≤ 0x20000 → tag < 65536 → s.tokenHolder = none → NoChunks s → s.noBad = true → s.landing (.ctx core 0) (absolute 0x80 core off) len (some core) = .ok (.scratch core off) →
      (64 ≤ (s.core core).inbox.length + (s.core core).reserved →
        ∃ t, exec .putqArrival s = .next t ∧ (∀ a, t.byte a = s.byte a) ∧ Completion t m.src core 0x80 tag (BitVec.ofNat 64 dst)) ∧
      ((s.core core).inbox.length + (s.core core).reserved < 64 →
        ∃ t, exec .putqArrival s = .next t ∧
          (∀ a, t.byte a = if scratchKey core off ≤ a ∧ a < scratchKey core off + len then m.bytes.getD (a - scratchKey core off) 0 else s.byte a) ∧
          (t.core core).inbox = (s.core core).inbox ++ [⟨k, headerWord 1 0 tag (len - 1) (m.src % 4) (m.src / 4), BitVec.ofNat 64 dst⟩] ∧
          (ack = 1 → Completion t m.src core 0 tag (BitVec.ofNat 64 dst)))) ∧
    (∀ slice va b d dom, m.words = [slice, va, b, d, dom] →
      ((s.slice slice).handler 3 va dom = none → ∃ t, exec .wsmsgArrival s = .next t ∧ (t.slice slice).queue = (s.slice slice).queue ∧
        Completion t m.src (m.src / 4) 0x84 0 (BitVec.ofNat 64 va)) ∧
      (∀ e, (s.slice slice).handler 3 va dom = some e → (s.slice slice).queue.length < 32 →
        ∃ t ev, exec .wsmsgArrival s = .next t ∧ (t.slice slice).queue = (s.slice slice).queue ++ [ev] ∧ ev.kind = 3 ∧ ev.entry = e ∧ ev.va = va ∧
          ev.w3 = BitVec.ofNat 64 b ∧ ev.w4 = BitVec.ofNat 64 d)) ∧
    (∀ core pc x y ack tag payload dom, m.words = [core, pc, x, y, ack, tag, payload, dom] → s.darkCols = [] → (s.core core).courier = none →
      (∀ n, s.idleCtx core 0 = some n → ∃ t, exec .courierArrival s = .next t ∧ (t.ctx (.ctx core n)).st = .ready ∧ (t.regs (.ctx core n)).pc = BitVec.ofNat 64 pc &&& ~~~(1#64) ∧
        (t.regs (.ctx core n)).S 3 = BitVec.ofNat 64 x ∧ (t.regs (.ctx core n)).S 4 = BitVec.ofNat 64 y ∧ (t.regs (.ctx core n)).dom = BitVec.ofNat 64 dom) ∧
      (s.idleCtx core 0 = none → ∃ t c, exec .courierArrival s = .next t ∧ (t.core core).courier = some c ∧ c.pc = BitVec.ofNat 64 pc ∧ c.src = m.src))

/-- R33, R36, R370 to R376: safe points, requests for pre-emption, and the saves they lead to. -/
def Obligations.SavesAndPreemption : Prop := Claims.SaveAreaLayout ∧ Claims.SafePoints ∧ Claims.Preemption

/-- R174 to R176, R178, R179, R181, R184: the inbox and the messages that leave. -/
def Obligations.MessageInstructions : Prop :=
  Claims.InboxInstructions ∧ Claims.RegisterMessagesLeave ∧ Claims.PayloadsLeave ∧ Claims.WaystationMessagesLeave

/-! ## Floating point and vectors -/

namespace Sys2Proof.Claims

open Sys2Proof Sys2Proof.Machine

/-- The FP32 operand in the low half of a scalar register (R138). -/
def operand (r : Regs) (n : Nat) : FVal := fp32.decode ((r.S n).truncate 32 : BitVec 32).toNat
/-- Its bits. -/
def low32 (r : Regs) (n : Nat) : Nat := ((r.S n).truncate 32 : BitVec 32).toNat

/-- The scalar floating instructions (R142 to R146): the registers read, the destination, the bits of the result and the flags. -/
def floatResult : Instr → Option (List Nat × Nat × (Regs → Nat × Flags))
  | .fadd d a b => some ([a, b], d, fun r => fp32.addOp (operand r a) (operand r b))
  | .fsub d a b => some ([a, b], d, fun r => fp32.addOp (operand r a) (operand r b).neg)
  | .fmul d a b => some ([a, b], d, fun r => fp32.mulOp (operand r a) (operand r b))
  | .fdiv d a b => some ([a, b], d, fun r => fp32.divOp (operand r a) (operand r b))
  | .fsqrt d a => some ([a], d, fun r => fp32.sqrtOp (operand r a))
  | .fmin d a b => some ([a, b], d, fun r => fp32.minMax false (low32 r a) (low32 r b))
  | .fmax d a b => some ([a, b], d, fun r => fp32.minMax true (low32 r a) (low32 r b))
  | .fabs d a => some ([a], d, fun r => (low32 r a % 2 ^ 31, 0))
  | .fneg d a => some ([a], d, fun r => ((low32 r a + 2 ^ 31) % 2 ^ 32, 0))
  | .fsgnj d a b => some ([a, b], d, fun r => (low32 r a % 2 ^ 31 + low32 r b / 2 ^ 31 * 2 ^ 31, 0))
  | .feq d a b => some ([a, b], d, fun r =>
      (if (operand r a).eqv (operand r b) then 1 else 0, if (operand r a).isSig || (operand r b).isSig then 1 else 0))
  | .flt d a b => some ([a, b], d, fun r =>
      if (operand r a).isNan || (operand r b).isNan then (0, 1) else (if (operand r a).lt (operand r b) then 1 else 0, 0))
  | .fle d a b => some ([a, b], d, fun r =>
      if (operand r a).isNan || (operand r b).isNan then (0, 1) else (if (operand r b).lt (operand r a) then 0 else 1, 0))
  | .fclass d a => some ([a], d, fun r => (fp32.classMask (low32 r a), 0))
  | .fma d a b c => some ([a, b, c], d, fun r => fp32.fma (operand r a) (operand r b) (operand r c))
  | .fms d a b c => some ([a, b, c], d, fun r => fp32.fma (operand r a) (operand r b) (operand r c).neg)
  | .fnma d a b c => some ([a, b, c], d, fun r => fp32.fma (operand r a).neg (operand r b) (operand r c))
  | .fcvt d a t z => some ([a], d, fun r =>
      let (x, fl) := convert (cvtFmt z) (cvtFmt t) 1 ((r.S a).toNat % 2 ^ (cvtFmt z).width)
      (if t = 0 then (BitVec.ofInt 64 (toSigned 32 x)).toNat else x, fl))
  | _ => none

/-- Whether some flag raised has its enable bit set (R62). -/
def enabled (r : Regs) (fl : Flags) : Prop := fl &&& BitVec.ofNat 6 (r.fx.toNat / 2 ^ 8) ≠ 0

/-- An instruction that writes a result, by `w`, and raises flags: they are added to fx.status, or, one of them being enabled, FPX is raised with them as
info and nothing is written (R62, R139). -/
def Flagged (s : State) (core n : Nat) (i : Instr) (fl : Flags) (w : Regs → Regs) : Prop :=
  let r := s.regs (.ctx core n)
  (¬ enabled r fl → exec i s = .next (s.finish core n (fun r => ((w r).addFlags fl).next 4))) ∧
  (enabled r fl → exec i s = .next (s.takeTrap (.ctx core n) { cause := 0x09, info := BitVec.ofNat 64 fl.toNat }))

/-- Element `j` of width `w` (R140). -/
def lane (w : Nat) (v : V256) (j : Nat) : BitVec w := v.extractLsb' (j * w) w

/-- The signed saturation of an exact result (R147): the element, and whether it was clamped. -/
def clamped (k : Nat) (t : Int) : BitVec k × Bool :=
  if 2 ^ (k - 1) - 1 < t then (BitVec.ofInt k (2 ^ (k - 1) - 1), true) else if t < -(2 ^ (k - 1)) then (BitVec.ofInt k (-(2 ^ (k - 1))), true)
  else (BitVec.ofInt k t, false)

/-- The vector integer instructions (R147): d, a, b, width code, and the result of an element from the old element of V(d), a and b, with saturation. -/
def vectorLane : Instr → Option (Nat × Nat × Nat × Nat × (∀ k, BitVec k → BitVec k → BitVec k → BitVec k × Bool))
  | .vadd d a b w z => some (d, a, b, w, fun k _ x y => if z = 1 then clamped k (x.toInt + y.toInt) else (x + y, false))
  | .vsub d a b w z => some (d, a, b, w, fun k _ x y => if z = 1 then clamped k (x.toInt - y.toInt) else (x - y, false))
  | .vmul d a b w => some (d, a, b, w, fun _ _ x y => (x * y, false))
  | .vmin d a b w u => some (d, a, b, w, fun _ _ x y => (if (if u = 1 then y.ult x else y.slt x) then y else x, false))
  | .vmax d a b w u => some (d, a, b, w, fun _ _ x y => (if (if u = 1 then x.ult y else x.slt y) then y else x, false))
  | .vand d a b w => some (d, a, b, w, fun _ _ x y => (x &&& y, false))
  | .vor d a b w => some (d, a, b, w, fun _ _ x y => (x ||| y, false))
  | .vxor d a b w => some (d, a, b, w, fun _ _ x y => (x ^^^ y, false))
  | .vsll d a b w => some (d, a, b, w, fun k _ x y => (x <<< (y.toNat % k), false))
  | .vsrl d a b w => some (d, a, b, w, fun k _ x y => (x >>> (y.toNat % k), false))
  | .vsra d a b w => some (d, a, b, w, fun k _ x y => (x.sshiftRight (y.toNat % k), false))
  | .vcmpeq d a b w => some (d, a, b, w, fun k _ x y => (if x = y then BitVec.allOnes k else 0, false))
  | .vcmplt d a b w u => some (d, a, b, w, fun k _ x y => (if (if u = 1 then x.ult y else x.slt y) then BitVec.allOnes k else 0, false))
  | .vsel d a b w => some (d, a, b, w, fun _ o x y => (if o ≠ 0 then x else y, false))
  | .vabs d a w => some (d, a, a, w, fun _ _ x _ => (if x.msb then -x else x, false))
  | _ => none

/-- The float format of a code (R93). -/
def floatFmt (f : Nat) : FFmt := if f = 0 then fp32 else if f = 1 then fp16 else bf16

/-- The vector float instructions (R148, R150): d, a, b, c, format, and the result of an element from those of a, b and c, with its flags. -/
def vectorFloat : Instr → Option (Nat × Nat × Nat × Nat × Nat × (FFmt → Nat → Nat → Nat → Nat × Flags))
  | .vfadd d a b f => some (d, a, b, b, f, fun m x y _ => m.addOp (m.decode x) (m.decode y))
  | .vfsub d a b f => some (d, a, b, b, f, fun m x y _ => m.addOp (m.decode x) (m.decode y).neg)
  | .vfmul d a b f => some (d, a, b, b, f, fun m x y _ => m.mulOp (m.decode x) (m.decode y))
  | .vfdiv d a b f => some (d, a, b, b, f, fun m x y _ => m.divOp (m.decode x) (m.decode y))
  | .vfmin d a b f => some (d, a, b, b, f, fun m x y _ => m.minMax false x y)
  | .vfmax d a b f => some (d, a, b, b, f, fun m x y _ => m.minMax true x y)
  | .vfcmp d a b f p => some (d, a, b, b, f, fun m x y _ =>
      let nan := (m.decode x).isNan || (m.decode y).isNan
      let holds := if p = 0 then (m.decode x).eqv (m.decode y) else if p = 1 then !nan && (m.decode x).lt (m.decode y) else !nan && !(m.decode y).lt (m.decode x)
      (if holds then 2 ^ m.width - 1 else 0,
       if p = 0 then (if (m.decode x).isSig || (m.decode y).isSig then 1 else 0) else if nan then 1 else 0))
  | .vfma d a b c f => some (d, a, b, c, f, fun m x y z => m.fma (m.decode x) (m.decode y) (m.decode z))
  | .vfms d a b c f => some (d, a, b, c, f, fun m x y z => m.fma (m.decode x) (m.decode y) (m.decode z).neg)
  | _ => none

/-- The OR of the flags of `n` elements (R139). -/
def flagsOf (n : Nat) (f : Nat → Flags) : Flags := (List.range n).foldl (fun fl j => fl ||| f j) 0

/-- The reductions (R158): d, a, type, the FP32 operation, the integer operation. -/
def reduction : Instr → Option (Nat × Nat × Nat × (Nat → Nat → Nat × Flags) × (Int → Int → Int))
  | .vrsum d a t => some (d, a, t, fun x y => fp32.addOp (fp32.decode x) (fp32.decode y), fun x y => x + y)
  | .vrmax d a t => some (d, a, t, fp32.minMax true, fun x y => if x < y then y else x)
  | .vrmin d a t => some (d, a, t, fp32.minMax false, fun x y => if y < x then y else x)
  | _ => none

/-- The exact value of a finite element. -/
def value : FVal → ℚ
  | .fin neg m e => (if neg then -1 else 1) * (m : ℚ) * (2 : ℚ) ^ e
  | _ => 0

/-- Whether an element is finite. -/
def finite : FVal → Bool
  | .fin .. => true
  | _ => false

/-- The bits `x` are the element nearest to `v`, a tie going to the even one (R60), or, beyond the range, an infinity; nx is clear exactly when they stand
for `v` itself. -/
structure Nearest (f : FFmt) (v : ℚ) (x : Nat) (fl : Flags) : Prop where
  width : x < 2 ^ f.width
  number : (f.decode x).isNan = false
  nearest : finite (f.decode x) = true → ∀ y, y < 2 ^ f.width → finite (f.decode y) = true →
    |v - value (f.decode x)| ≤ |v - value (f.decode y)|
  even : finite (f.decode x) = true → ∀ y, y < 2 ^ f.width → finite (f.decode y) = true → value (f.decode y) ≠ value (f.decode x) →
    |v - value (f.decode x)| = |v - value (f.decode y)| → x % 2 = 0
  beyond : finite (f.decode x) = false → (∀ y, y < 2 ^ f.width → finite (f.decode y) = true → |value (f.decode y)| < |v|) ∧ fl = 0b010100
  exact : fl.getLsbD 4 = false ↔ finite (f.decode x) = true ∧ value (f.decode x) = v

end Sys2Proof.Claims

open Sys2Proof Sys2Proof.Machine Sys2Proof.Claims

/-- R62, R138, R142 to R146: every scalar floating instruction completes: its result goes to S(d), zero-extended, and its flags to fx.status; or, one of them
being enabled, it raises FPX. -/
def Sys2Proof.Claims.ScalarFloat : Prop :=
  ∀ (i : Instr) (rd : List Nat) (d : Nat) (f : Regs → Nat × Flags), floatResult i = some (rd, d, f) → i.WF →
    ∀ (s : State) (core n : Nat), Plain s core n → Present s core n rd →
      Flagged s core n i (f (s.regs (.ctx core n))).2 (fun r => r.setS d (BitVec.ofNat 64 (f r).1))

/-- R59, R142 to R145: an operation with a NaN operand gives the canonical NaN, and raises nv exactly when an operand is signalling (or a product of zero and
infinity stands before an addition). -/
def Sys2Proof.Claims.FloatNaNs : Prop :=
  ∀ (f : FFmt) (x y z : FVal), f ∈ [fp32, fp16, bf16] →
    (x.isNan = true ∨ y.isNan = true →
      let fl : Flags := if x.isSig = true ∨ y.isSig = true then 1 else 0
      f.addOp x y = (f.nanBits, fl) ∧ f.mulOp x y = (f.nanBits, fl) ∧ f.divOp x y = (f.nanBits, fl)) ∧
    (x.isNan = true → f.sqrtOp x = (f.nanBits, if x.isSig then 1 else 0)) ∧
    (x.isNan = true ∨ y.isNan = true ∨ z.isNan = true →
      (f.fma x y z).1 = f.nanBits ∧ ((f.fma x y z).2 = 1 ↔ x.isSig = true ∨ y.isSig = true ∨ z.isSig = true ∨ (x.mul y).2 = 1)) ∧
    fp32.nanBits = 0x7FC00000 ∧ fp16.nanBits = 0x7E00 ∧ bf16.nanBits = 0x7FC0

/-- R59, R62, R138, R142 to R146: the scalar floating instructions, and what they do with NaNs. -/
def Obligations.FloatResults : Prop := Claims.ScalarFloat ∧ Claims.FloatNaNs

/-- R58, R60, R61, R142, R144, R145: RoundRNE of an exact value gives the nearest element, ties to even, or an infinity beyond the range; sums, products, fused
multiply-adds and quotients of finite operands are the exact value, rounded once so. -/
def Obligations.FloatRounding : Prop :=
  ∀ (f : FFmt), f ∈ [fp32, fp16, bf16] →
    (∀ (neg : Bool) (m : Nat) (e : Int), Nearest f (value (.fin neg m e)) (f.round (.fin neg m e)).1 (f.round (.fin neg m e)).2) ∧
    (∀ x y z : FVal, finite x = true → finite y = true → finite z = true →
      Nearest f (value x + value y) (f.addOp x y).1 (f.addOp x y).2 ∧
      Nearest f (value x * value y) (f.mulOp x y).1 (f.mulOp x y).2 ∧
      Nearest f (value x * value y + value z) (f.fma x y z).1 (f.fma x y z).2 ∧
      (value y ≠ 0 → Nearest f (value x / value y) (f.divOp x y).1 (f.divOp x y).2))

/-- R139, R140, R147: a vector integer instruction completes with its effect on every element, and raises sat where a .sat form clamps one. -/
def Sys2Proof.Claims.VectorIntegers : Prop :=
  ∀ (i : Instr) (d a b w : Nat) (f : ∀ k, BitVec k → BitVec k → BitVec k → BitVec k × Bool), vectorLane i = some (d, a, b, w, f) → i.WF →
    ∀ (s : State) (core n : Nat), Plain s core n →
      let r := s.regs (.ctx core n)
      let k := 8 * 2 ^ w
      let e (j : Nat) := f k (lane k (r.V d) j) (lane k (r.V a) j) (lane k (r.V b) j)
      ∃ v : V256, (∀ j, j < 256 / k → lane k v j = (e j).1) ∧
        Flagged s core n i (flagsOf (256 / k) (fun j => if (e j).2 then 0x20 else 0)) (fun r => r.setV d v)

/-- R139, R148, R150: a vector float or fused instruction completes with the result of each element in its own format, and the OR of all flags. -/
def Sys2Proof.Claims.VectorFloats : Prop :=
  ∀ (i : Instr) (d a b c f : Nat) (g : FFmt → Nat → Nat → Nat → Nat × Flags), vectorFloat i = some (d, a, b, c, f, g) → i.WF →
    ∀ (s : State) (core n : Nat), Plain s core n →
      let r := s.regs (.ctx core n)
      let m := floatFmt f
      let e (j : Nat) := g m (lane m.width (r.V a) j).toNat (lane m.width (r.V b) j).toNat (lane m.width (r.V c) j).toNat
      ∃ v : V256, (∀ j, j < 256 / m.width → (lane m.width v j).toNat = (e j).1) ∧
        Flagged s core n i (flagsOf (256 / m.width) (fun j => (e j).2)) (fun r => r.setV d v)

/-- R75, R77, R149, R150, R157, R158: VFCVT, VDOT, the element moves and the reductions complete with the results the rules give. -/
def Sys2Proof.Claims.VectorMoves : Prop :=
  ∀ (s : State) (core n d a b x w t z : Nat), Plain s core n →
    let r := s.regs (.ctx core n)
    let k := 8 * 2 ^ w
    ((Instr.vfcvt d a t z).WF →
      let cnt := min (regFmt z).regCount (regFmt t).regCount
      let xs := ((regFmt z).decodeAll (regFmt z).regCount (r.V a).toNat).take cnt
      let res := (regFmt t).encodeAll (if t = 3 ∧ cnt < 16 then xs ++ List.replicate (16 - cnt) (.fin false 0 0) else xs)
      Flagged s core n (.vfcvt d a t z) res.2 (fun r => r.setV d (BitVec.ofNat 256 res.1))) ∧
    ((Instr.vdot d a b).WF →
      let chain := (List.range 8).foldl (fun (p : Nat × Flags) j =>
        let q := fp32.fma (fp32.decode (lane 32 (r.V a) j).toNat) (fp32.decode (lane 32 (r.V b) j).toNat) (fp32.decode p.1)
        (q.1, p.2 ||| q.2)) ((lane 32 (r.V d) 0).toNat, 0)
      ∃ v : V256, (lane 32 v 0).toNat = chain.1 ∧ (∀ j, 1 ≤ j → j < 8 → lane 32 v j = lane 32 (r.V d) j) ∧
        Flagged s core n (.vdot d a b) chain.2 (fun r => r.setV d v)) ∧
    ((Instr.vperm d a b w).WF → ∃ v : V256,
      (∀ j, j < 256 / k → lane k v j = if (lane k (r.V b) j).toNat < 256 / k then lane k (r.V a) (lane k (r.V b) j).toNat else 0) ∧
      exec (.vperm d a b w) s = .next (s.finish core n (fun r => (r.setV d v).next 4))) ∧
    ((Instr.vbcast d a w).WF → Present s core n [a] → ∃ v : V256, (∀ j, j < 256 / k → lane k v j = (r.S a).truncate k) ∧
      exec (.vbcast d a w) s = .next (s.finish core n (fun r => (r.setV d v).next 4))) ∧
    ((Instr.vext d a x w).WF → exec (.vext d a x w) s = .next (s.finish core n (fun r => (r.setS d ((lane k (r.V a) x).zeroExtend 64)).next 4))) ∧
    ((Instr.vins d a x w).WF → Present s core n [a] → ∃ v : V256,
      (∀ j, j < 256 / k → lane k v j = if j = x then (r.S a).truncate k else lane k (r.V d) j) ∧
      exec (.vins d a x w) s = .next (s.finish core n (fun r => (r.setV d v).next 4))) ∧
    (∀ i fop iop, reduction i = some (d, a, t, fop, iop) → i.WF →
      (t < 3 →
        let m := floatFmt t
        let e (j : Nat) := toFp32 (m.decode (lane m.width (r.V a) j).toNat)
        let res := (List.range (256 / m.width - 1)).foldl (fun (p : Nat × Flags) j => let q := fop p.1 (e (j + 1)); (q.1, p.2 ||| q.2)) (e 0, 0)
        Flagged s core n i res.2 (fun r => r.setS d (BitVec.ofNat 64 res.1))) ∧
      (3 ≤ t →
        let k := if t = 3 then 32 else if t = 4 then 16 else 8
        let e (j : Nat) := (lane k (r.V a) j).toInt
        exec i s = .next (s.finish core n (fun r => (r.setS d (BitVec.ofInt 64
          ((List.range (256 / k - 1)).foldl (fun acc j => iop acc (e (j + 1))) (e 0)))).next 4))))

/-- R75, R77, R139, R140, R147 to R150, R157, R158: the vector instructions on registers. -/
def Obligations.VectorResults : Prop := Claims.VectorIntegers ∧ Claims.VectorFloats ∧ Claims.VectorMoves

/-- R151 to R153: VLD, VST, VLDS and VSTS of the own scratchpad, aligned and passing the checks, complete: 32 bytes move unchanged, or one element for each
step of the stride, of elements that overlap the highest one standing in memory. Width code 3 raises ILLEGAL. -/
def Sys2Proof.Claims.VectorLoadsAndStores : Prop :=
  ∀ (s : State) (core n d a : Nat) (i : Int), (Instr.vld d a i).WF → Present s core n [a] →
    let ag := Agent.ctx core n
    let r := s.regs ag
    let ea := (r.S a + BitVec.ofInt 64 i).toNat
    let code := bits (r.OX 4).toNat 33 32
    let k := 8 * 2 ^ code
    let va (j : Nat) : Nat := ((ea : Int) + (j : Int) * toSigned 32 (bits (r.OX 4).toNat 31 0)).emod (2 ^ 64) |>.toNat
    (∀ off, Plain s core n → ea % 16 = 0 → OwnBytes (s.opened ag (some 12)) core n ea 32 off rdR →
      ∃ t, exec (.vld d a i) s = .next t ∧ t.regs ag = (r.setV d (BitVec.ofNat 256 (s.value (scratchKey core off) 32))).next 4 ∧ OnlyContext s t ag) ∧
    (∀ off, Plain s core n → Room s core n → ea % 16 = 0 → OwnBytes (s.opened ag (some 13)) core n ea 32 off wrR →
      ∃ t, exec (.vst d a i) s = .next t ∧ t.regs ag = r.next 4 ∧ (∀ b, b ≠ ag → t.ctx b = s.ctx b) ∧
        ∀ q, t.byte q = storedByte s (scratchKey core off) 32 (r.V d).toNat q) ∧
    (∀ off : Nat → Nat, Between s core n → code < 3 → (∀ j, j < 256 / k → va j % (k / 8) = 0 ∧ OwnBytes (s.opened ag (some 12)) core n (va j) (k / 8) (off j) rdR) →
      ∃ t v, exec (.vlds d a i) s = .next t ∧ t.regs ag = (r.setV d v).next 4 ∧ OnlyContext s t ag ∧
        ∀ j, j < 256 / k → (lane k v j).toNat = s.value (scratchKey core (off j)) (k / 8)) ∧
    (∀ off : Nat → Nat, Between s core n → NoChunks s → s.tokenHolder = none → s.queued ag = false → code < 3 →
      (∀ j, j < 256 / k → va j % (k / 8) = 0 ∧ OwnBytes (s.opened ag (some 13)) core n (va j) (k / 8) (off j) wrR) →
      ∃ t, exec (.vsts d a i) s = .next t ∧ t.regs ag = r.next 4 ∧
        ∀ q, t.byte q = (List.range (256 / k)).foldl (fun b j => if scratchKey core (off j) ≤ q ∧ q < scratchKey core (off j) + k / 8
          then BitVec.ofNat 8 ((lane k (r.V d) j).toNat / 2 ^ (8 * (q - scratchKey core (off j)))) else b) (s.byte q)) ∧
    (Plain s core n → code = 3 →
      exec (.vlds d a i) s = .next (s.takeTrap ag { cause := 0x01, info := BitVec.ofNat 64 (insWord (.vlds d a i)) }) ∧
      exec (.vsts d a i) s = .next (s.takeTrap ag { cause := 0x01, info := BitVec.ofNat 64 (insWord (.vsts d a i)) }))

/-- R154 to R156: VLDC, VSTC and VLDB of the own scratchpad convert between the register format and the format of the bank (a raw bank stands for the register
format): whole blocks, aligned by the bank format, within one bank. Flags go to fx.status, or raise FPX and nothing moves. -/
def Sys2Proof.Claims.ConvertingAccesses : Prop :=
  ∀ (s : State) (core n d a f : Nat) (i : Int), (Instr.vldc d a f i).WF → Plain s core n → Room s core n → Present s core n [a] →
    let ag := Agent.ctx core n
    let r := s.regs ag
    let va := (r.S a + BitVec.ofInt 64 (16 * i)).toNat
    let off := bits va 16 0
    let reg := regFmt f
    let bank := (bankFmt (look 0 (s.core core).bfmt (off / 2 ^ 14))).getD reg
    let al := if bank = .sx 7 then 16 else if bank = .sx 4 ∨ bank = .sx 2 then 2 else bank.width / 8
    resolve ag va = some core → va % al = 0 →
    (reg.regCount % bank.group = 0 → OwnBytes (s.opened ag (some 12)) core n va (bank.bytes reg.regCount) off rdR true →
      let res := convert bank reg reg.regCount (s.value (scratchKey core off) (bank.bytes reg.regCount))
      (¬ enabled r res.2 → ∃ t, exec (.vldc d a f i) s = .next t ∧ t.regs ag = ((r.setV d (BitVec.ofNat 256 res.1)).addFlags res.2).next 4 ∧ OnlyContext s t ag) ∧
      (enabled r res.2 → exec (.vldc d a f i) s = .next (s.takeTrap ag { cause := 0x09, info := BitVec.ofNat 64 res.2.toNat }))) ∧
    (reg.regCount % bank.group = 0 → OwnBytes (s.opened ag (some 13)) core n va (bank.bytes reg.regCount) off wrR true →
      let res := convert reg bank reg.regCount (r.V d).toNat
      (¬ enabled r res.2 → ∃ t, exec (.vstc d a f i) s = .next t ∧ t.regs ag = (r.addFlags res.2).next 4 ∧ (∀ b, b ≠ ag → t.ctx b = s.ctx b) ∧
        ∀ q, t.byte q = storedByte s (scratchKey core off) (bank.bytes reg.regCount) res.1 q) ∧
      (enabled r res.2 → exec (.vstc d a f i) s = .next (s.takeTrap ag { cause := 0x09, info := BitVec.ofNat 64 res.2.toNat }))) ∧
    (f ≠ 3 → bank.group = 1 → OwnBytes (s.opened ag (some 12)) core n va (bank.bytes 1) off rdR true →
      let res := convert bank reg 1 (s.value (scratchKey core off) (bank.bytes 1))
      (¬ enabled r res.2 → ∃ t v, exec (.vldb d a f i) s = .next t ∧ t.regs ag = ((r.setV d v).addFlags res.2).next 4 ∧ OnlyContext s t ag ∧
        ∀ j, j < reg.regCount → (lane reg.width v j).toNat = res.1 % 2 ^ reg.width) ∧
      (enabled r res.2 → exec (.vldb d a f i) s = .next (s.takeTrap ag { cause := 0x09, info := BitVec.ofNat 64 res.2.toNat })))

/-- R139, R151 to R156: the vector loads and stores. -/
def Obligations.VectorMemory : Prop := Claims.VectorLoadsAndStores ∧ Claims.ConvertingAccesses

/-! ## Copy engine and event unit -/

namespace Sys2Proof.Claims

open Sys2Proof Sys2Proof.Machine

/-- The engine commands (R188, R189): operation, d, a, b, and the operand extensions read. -/
def engineForm : Instr → Option (Nat × Nat × Nat × Nat × Nat)
  | .cpy d a b => some (0, d, a, b, 2)
  | .cpy2d d a b => some (1, d, a, b, 4)
  | .gath d a b => some (2, d, a, b, 1)
  | .scat d a b => some (3, d, a, b, 1)
  | _ => none

/-- An operation slot of a context. -/
def slotOf (s : State) (ag : Agent) (k : Nat) : EngSlot := look {} (s.ctx ag).slots k

/-- ENGINE with a code (R192). -/
def engineTrap (code slot : Nat) : Trap := { cause := 0x0B, info := BitVec.ofNat 64 (code * 2 ^ 8 + slot) }

/-- Room for one more entry in the inbox of a core (R174). -/
def roomy (s : State) (core : Nat) : Prop := (s.core core).inbox.length + (s.core core).reserved < 64

/-- The registers of ENGQ (R198). -/
def engineQuery (x : EngSlot) (sel : Nat) : W64 :=
  if sel = 0 then BitVec.ofNat 64 (x.bitmap ||| (2 ^ 64 - 2 ^ x.pieces))
  else if sel = 1 then (if x.st = .stopped then x.failAddr else 0)
  else BitVec.ofNat 64 ((if x.st = .idle then 0 else if x.st = .running then 1 else 2) + x.op * 2 ^ 3 + x.pieces * 2 ^ 8)

/-- Only the record of one context, and the inbox count, of the module's memory and contexts have changed. -/
def QuietMemory (s t : State) : Prop := ∀ k, t.byte k = s.byte k

/-- A barrier, the owner of a mutex, and the lines that are set, of a column. -/
def barrier (s : State) (col b : Nat) : Barrier := look {} (s.col col).ev.bars b
def ownerOf (s : State) (col m : Nat) : Option Nat := ((s.col col).ev.owners.find? (fun e => e.1 = m)).map (·.2)
def lineSet (s : State) (col e : Nat) : Bool := (s.col col).ev.lines.contains e
/-- The requests that wait in a column. -/
def waiters (s : State) (col : Nat) : List EvWait := (s.col col).ev.waits

/-- The answer that an event unit has given to a load. -/
def AnsweredBy (t : State) (ag : Agent) (v : Nat) : Prop := (t.ctx ag).reply = some [v]
/-- A load that waits in the unit (R200). -/
structure WaitsIn (s t : State) (ag : Agent) (col : Nat) (w : EvWait) : Prop where
  waiting : (t.ctx ag).st = .waiting ∧ (t.ctx ag).why = 1
  request : waiters t col = waiters s col ++ [w]
  memory : QuietMemory s t

end Sys2Proof.Claims

open Sys2Proof Sys2Proof.Machine Sys2Proof.Claims

/-- R189, R192: CPY, CPY2D, GATH and SCAT. On an idle slot, the checks passing and a free inbox entry found, the command starts: the slot holds its operation
and operand words, the entry is reserved, the acceptance follows, and nothing else of the context changes. On a running slot it waits; each failing check
raises ENGINE with its code. Which code a command raises when more than one check fails is the model's reading (log 31). -/
def Sys2Proof.Claims.EngineCommands : Prop :=
  ∀ (i : Instr) (op d a b nox : Nat), engineForm i = some (op, d, a, b, nox) → i.WF →
    ∀ (s : State) (core n : Nat), Between s core n → Present s core n [d, a, b] →
      let ag := Agent.ctx core n
      let r := s.regs ag
      let k := bits (r.S b).toNat 2 0
      let x := slotOf s ag k
      let arm := if op ≤ 1 then (r.OX 1).toNat else 0
      let sizeOk := op < 2 ∨ bits (r.S b).toNat 15 12 ≤ 8
      let rowsOk := op ≠ 1 ∨ bits (r.OX 0).toNat 63 32 * bits (r.OX 0).toNat 31 0 ≤ 2 ^ 48
      let armOk := arm = 0 ∨ bits arm 63 48 = 0xFF81 ∧ bits arm 11 0 < 0x400 ∧ bits arm 11 0 % 32 = 16
      (x.st = .idle → sizeOk → rowsOk → arm = 0 → roomy s core →
        ∃ t m, exec i s = .next t ∧ t.regs ag = r.next 4 ∧ (∀ c, c ≠ ag → t.ctx c = s.ctx c) ∧ QuietMemory s t ∧
          (slotOf t ag k).st = .running ∧ (slotOf t ag k).op = op ∧ (slotOf t ag k).wd = r.S d ∧ (slotOf t ag k).wa = r.S a ∧ (slotOf t ag k).wb = r.S b ∧
          (slotOf t ag k).ox = (List.range nox).map r.OX ∧ (slotOf t ag k).dom = r.dom.toNat ∧ (t.core core).reserved = (s.core core).reserved + 1 ∧
          t.flight = s.flight ++ [(s.nextMsg, m)] ∧ m.ev = ⟨.engineAccept, [ag.code, k]⟩) ∧
      (x.st = .running → ∃ t, exec i s = .next t ∧ (t.ctx ag).st = .stalled ∧ t.regs ag = r ∧ t.flight = s.flight) ∧
      (x.st = .stopped → exec i s = .next (s.takeTrap ag (engineTrap 1 k))) ∧
      (x.st = .idle → ¬ sizeOk → exec i s = .next (s.takeTrap ag (engineTrap 2 k))) ∧
      (x.st = .idle → sizeOk → ¬ rowsOk → exec i s = .next (s.takeTrap ag (engineTrap 3 k))) ∧
      (x.st = .idle → sizeOk → rowsOk → ¬ armOk → exec i s = .next (s.takeTrap ag (engineTrap 4 k)))

/-- R198: ENGQ reads the bitmap, the failing address or the state of a slot; ENGRST answers 1 for a slot that is not stopped, makes a stopped one idle, or runs
its undelivered pieces again but for those that ox0 skips; each raises ENGINE code 5 for selector 3. -/
def Sys2Proof.Claims.EngineSlots : Prop :=
  ∀ (s : State) (core n d a : Nat), Present s core n [a] → d < 32 → a < 32 →
    let ag := Agent.ctx core n
    let r := s.regs ag
    let w := (r.S a).toNat
    let k := bits w 2 0
    let x := slotOf s ag k
    (Plain s core n → bits w 9 8 < 3 → exec (.engq d a) s = .next (s.finish core n (fun r => (r.setS d (engineQuery x (bits w 9 8))).next 4))) ∧
    (Plain s core n → bits w 9 8 = 3 → exec (.engq d a) s = .next (s.takeTrap ag (engineTrap 5 k))) ∧
    (Between s core n → bits w 9 8 = 3 → exec (.engrst d a) s = .next (s.takeTrap ag (engineTrap 5 k))) ∧
    (Between s core n → bits w 9 8 < 3 → x.st ≠ .stopped →
      ∃ t, exec (.engrst d a) s = .next t ∧ t.regs ag = (r.setS d 1).next 4 ∧ OnlyContext s t ag ∧ slotOf t ag k = x) ∧
    (Between s core n → bits w 9 8 = 1 → x.st = .stopped →
      ∃ t, exec (.engrst d a) s = .next t ∧ t.regs ag = (r.setS d 2).next 4 ∧ OnlyContext s t ag ∧ (slotOf t ag k).st = .idle) ∧
    (Between s core n → bits w 9 8 ∈ [0, 2] → x.st = .stopped → roomy s core →
      ∃ t, exec (.engrst d a) s = .next t ∧ t.regs ag = (r.setS d 0).next 4 ∧ OnlyContext s t ag ∧ (slotOf t ag k).st = .running ∧
        (slotOf t ag k).bitmap = x.bitmap ∧ (slotOf t ag k).skip = x.skip ||| (r.OX 0).toNat)

/-- R193, R194: acceptance. A CPY between addresses outside the scratchpads is cut into pieces of 256 × ceil(len / 16,384) bytes, whose bits are clear; one
of no bytes completes at once. An index array outside the mesh window, or one that is not aligned, refuses a GATH or SCAT whole. -/
def Sys2Proof.Claims.EngineAcceptance : Prop :=
  ∀ (s : State) (core n k : Nat), core < 100352 → n < 4 → s.args = [(Agent.ctx core n).code, k] →
    let ag := Agent.ctx core n
    let x := slotOf s ag k
    let len := bits (x.ox.getD 0 0).toNat 31 0
    let unit := 256 * ((len + 16383) / 16384)
    x.st = .running → x.todo = [] → x.laid = false → x.mute = false →
    (x.op = 0 → bits x.wa.toNat 63 48 ≠ 0xFF80 → bits x.wd.toNat 63 48 ≠ 0xFF80 → 0 < len → x.skip = 0 →
      ∃ t, exec .engineAccept s = .next t ∧ QuietMemory s t ∧ (slotOf t ag k).pieces = (len + unit - 1) / unit ∧ (slotOf t ag k).unit = unit ∧
        (slotOf t ag k).bitmap = 2 ^ 64 - 2 ^ (slotOf t ag k).pieces ∧ (slotOf t ag k).todo = List.range (slotOf t ag k).pieces ∧
        (slotOf t ag k).conv = none ∧ t.underWay .enginePieceDone [ag.code, k] = true) ∧
    (x.op = 0 → bits x.wa.toNat 63 48 ≠ 0xFF80 → bits x.wd.toNat 63 48 ≠ 0xFF80 → len = 0 →
      ∃ t, exec .engineAccept s = .next t ∧ QuietMemory s t ∧ (slotOf t ag k).st = .idle ∧
        (t.core core).inbox = (s.core core).inbox ++ [⟨n, headerWord 3 0 (bits x.wb.toNat 47 32) 0 n core, BitVec.ofNat 64 (64 * 2 ^ 16 + k)⟩]) ∧
    (x.op = 2 ∨ x.op = 3 → (bits (x.ox.getD 0 0).toNat 63 48 ≠ 0xFF80 ∨ (x.ox.getD 0 0).toNat % 4 ≠ 0) →
      ∃ t, exec .engineAccept s = .next t ∧ QuietMemory s t ∧ (slotOf t ag k).st = .stopped ∧ (slotOf t ag k).failAddr = x.ox.getD 0 0 ∧
        (slotOf t ag k).status = (if (x.ox.getD 0 0).toNat % 4 ≠ 0 then 0x03 else 0x05))

/-- R195 to R197: the last piece of an operation that does not convert, from a scratchpad to a scratchpad of the issuing core: the bytes stand at the
destination, every other byte as before, the slot is idle, and its completion stands in the inbox. A piece that fails a check writes nothing; its
operation ends stopped, with the cause and the address. -/
def Sys2Proof.Claims.EnginePieces : Prop :=
  ∀ (s : State) (core n k p sa da len so dof : Nat) (src : Nat), core < 100352 → n < 4 → s.args = [(Agent.ctx core n).code, k] →
    let ag := Agent.ctx core n
    let x := slotOf s ag k
    x.st = .running → x.todo = [p] → x.fails = [] → x.conv = none → x.peer = [] → x.mute = false → x.op < 2 → bits (x.ox.getD 1 0).toNat 63 0 = 0 → x.flags = 0 → k < 8 → p < 64 →
    x.parts p = [(sa, len, da)] → s.noBad = true → s.tokenHolder = none → NoChunks s → NoBankOps s → s.pageHeld sa = false →
    (∀ e ∈ s.flight, e.2.chan ≠ chanOf core core) →
    (s.engTargets core x.dom sa len { r := true, e := true } = .ok [(sa, len, .scratch src so)] →
      s.engTargets core x.dom da len { w := true, e := true } = .ok [(da, len, .scratch core dof)] →
      ∃ t, exec .enginePieceDone s = .next t ∧ (slotOf t ag k).st = .idle ∧ (slotOf t ag k).bitmap = x.bitmap ||| 2 ^ p ∧
        (∀ q, t.byte q = if scratchKey core dof ≤ q ∧ q < scratchKey core dof + len then s.byte (scratchKey src so + (q - scratchKey core dof)) else s.byte q) ∧
        (t.core core).inbox = (s.core core).inbox ++
          [⟨n, headerWord 3 0 (bits x.wb.toNat 47 32) 0 n core, BitVec.ofNat 64 (64 * 2 ^ 16 + x.op * 2 ^ 3 + k)⟩]) ∧
    (∀ tr, s.engTargets core x.dom sa len { r := true, e := true } = .error tr → tr.cause < 256 →
      ∃ t, exec .enginePieceDone s = .next t ∧ (slotOf t ag k).st = .stopped ∧ (slotOf t ag k).miss = p ∧ (slotOf t ag k).status = tr.cause ∧
        (slotOf t ag k).failAddr = tr.info ∧ (slotOf t ag k).bitmap = x.bitmap ∧ QuietMemory s t)

/-- R188 to R198: the copy engine. -/
def Obligations.CopyEngine : Prop := Claims.EngineCommands ∧ Claims.EngineSlots ∧ Claims.EngineAcceptance ∧ Claims.EnginePieces

/-- R201 to R204: arrivals, writes and chain messages of a barrier. An arrival that does not complete the count is counted, and a load waits with its ticket;
one that completes it, of an enabled barrier with no bytes pending and no parent, fires: the generation steps, the count falls, and the load and
every waiter of the generation are answered with the generation; with a parent, a chain arrival goes up. -/
def Sys2Proof.Claims.Barriers : Prop :=
  ∀ (s : State) (code va b : Nat) (rest : List Nat), s.args = code :: va :: rest → code < 401408 →
    let ag := Agent.ofCode code
    let col := evCol va
    let x := barrier s col b
    let count := bits x.cfg.toNat 15 0
    let completes := bit x.cfg.toNat 63 = true ∧ count ≠ 0 ∧ count = x.arr + 1 ∧ x.pend = 0 ∧ x.up = false
    x.gen < 2 ^ 16 → x.arr + 1 < 2 ^ 16 →
    (evReg (bits va 11 0) = some (.arrive b) → (s.regs ag).ticket = none → x.arr + 1 < count → (waiters s col).length < 1024 →
      ∃ t, exec .arriveLoad s = .next t ∧ barrier t col b = { x with arr := x.arr + 1 } ∧ (t.regs ag).ticket = some (x.gen, x.aborts, col * 2 ^ 12 + bits va 11 0) ∧
        WaitsIn s t ag col { ag := code, kind := .arrive, n := b, ticket := x.gen }) ∧
    (evReg (bits va 11 0) = some (.arrive b) → (s.regs ag).ticket = none → completes → bit x.cfg.toNat 62 = false → x.children = [] →
      ∃ t, exec .arriveLoad s = .next t ∧ barrier t col b = { x with gen := (x.gen + 1) % 2 ^ 16, arr := 0 } ∧ AnsweredBy t ag x.gen ∧ (t.regs ag).ticket = none ∧
        (∀ w ∈ waiters s col, w.kind = .arrive → w.n = b → w.ticket = x.gen → AnsweredBy t (.ofCode w.ag) x.gen) ∧ QuietMemory s t) ∧
    (evReg (bits va 11 0) = some (.arrive b) → x.arr + 1 < count →
      ∃ t, exec .arriveStore s = .next t ∧ barrier t col b = { x with arr := x.arr + 1 } ∧ waiters t col = waiters s col ∧ (∀ a, t.ctx a = s.ctx a) ∧ QuietMemory s t) ∧
    (evReg (bits va 11 0) = some (.arrive b) → completes → bit x.cfg.toNat 62 = true →
      ∃ t m, exec .arriveStore s = .next t ∧ barrier t col b = { x with arr := x.arr + 1, up := true } ∧ t.flight = s.flight ++ [(s.nextMsg, m)] ∧
        m.ev = ⟨.chainArrival, [s.nextMsg]⟩ ∧ m.words = [64 * bits x.cfg.toNat 58 56 + bits x.cfg.toNat 53 48, bits x.cfg.toNat 44 40, col, b]) ∧
    (∀ v, rest = [v] → v < 2 ^ 64 → evReg (bits va 11 0) = some (.cfg b) → bit v 63 = false →
      ∃ t, exec .barrierCfgWrite s = .next t ∧ barrier t col b = { x with cfg := BitVec.ofNat 64 v &&& 0xC73F1F000000FFFF#64 } ∧ (∀ a, t.ctx a = s.ctx a) ∧ QuietMemory s t) ∧
    (∀ v, rest = [v] → v < 2 ^ 64 → evReg (bits va 11 0) = some (.pend b) → x.pend + BitVec.ofNat 56 v ≠ 0 →
      ∃ t, exec .pendWrite s = .next t ∧ barrier t col b = { x with pend := x.pend + BitVec.ofNat 56 v } ∧ (∀ a, t.ctx a = s.ctx a) ∧ QuietMemory s t) ∧
    (evReg (bits va 11 0) = some (.stat b) →
      ∃ t, exec .barrierAbort s = .next t ∧ barrier t col b = { x with arr := 0, pend := 0, up := false, aborts := (x.aborts + 1) % 256, children := [] } ∧
        (∀ w ∈ waiters s col, w.kind = .arrive → w.n = b → ∃ g, AnsweredBy t (.ofCode w.ag) (2 ^ 63 + g)) ∧ QuietMemory s t)

/-- R203, R204: a chain arrival counts as one arrival at the parent, which notes the child; a chain release fires a child that is up, and does nothing to one
that is not. -/
def Sys2Proof.Claims.ChainMessages : Prop :=
  ∀ (s : State) (id col b : Nat) (m : Msg), s.args = [id] → s.msg? id = some m →
    let x := barrier s col b
    (∀ c cb, m.words = [col, b, c, cb] → x.arr + 1 < bits x.cfg.toNat 15 0 → x.gen < 2 ^ 16 →
      ∃ t, exec .chainArrival s = .next t ∧ barrier t col b = { x with arr := x.arr + 1, children := x.children ++ [(c, cb, x.gen)] } ∧ QuietMemory s t) ∧
    (m.words = [col, b] → x.up = true → x.children = [] →
      ∃ t, exec .chainRelease s = .next t ∧ barrier t col b = { x with gen := (x.gen + 1) % 2 ^ 16, arr := x.arr - bits x.cfg.toNat 15 0, up := false } ∧
        (∀ w ∈ waiters s col, w.kind = .arrive → w.n = b → w.ticket = x.gen → AnsweredBy t (.ofCode w.ag) x.gen) ∧ QuietMemory s t) ∧
    (m.words = [col, b] → x.up = false →
      ∃ t, exec .chainRelease s = .next t ∧ barrier t col b = x ∧ (∀ a, t.ctx a = s.ctx a) ∧ QuietMemory s t)

/-- R206, R207: a mutex is taken when it is free, answered 2 to its owner, waited for (or, by TRY, refused with 1) otherwise, and handed to its oldest
waiter at a release; another party's release at user level only makes a record. WAIT and TAKE complete on a line that is set, TAKE clearing it; a set
releases every WAIT waiter and then the oldest TAKE waiter. -/
def Sys2Proof.Claims.MutexesAndLines : Prop :=
  ∀ (s : State) (code va : Nat) (rest : List Nat), s.args = code :: va :: rest → code < 401408 →
    let ag := Agent.ofCode code
    let col := evCol va
    let reg := evReg (bits va 11 0)
    (waiters s col).length < 1024 →
    (∀ m, reg = some (.lock m) →
      (ownerOf s col m = none → ∃ t, exec .lock s = .next t ∧ ownerOf t col m = some code ∧ AnsweredBy t ag 0 ∧ QuietMemory s t) ∧
      (ownerOf s col m = some code → ∃ t, exec .lock s = .next t ∧ ownerOf t col m = some code ∧ AnsweredBy t ag 2 ∧ QuietMemory s t) ∧
      (∀ o, ownerOf s col m = some o → o ≠ code → ∃ t, exec .lock s = .next t ∧ ownerOf t col m = some o ∧
        WaitsIn s t ag col { ag := code, kind := .lock, n := m }) ∧
      (ownerOf s col m = some code → (∀ w ∈ waiters s col, ¬ (w.kind = .lock ∧ w.n = m)) →
        ∃ t, exec .lockRelease s = .next t ∧ ownerOf t col m = none ∧ (∀ a, t.ctx a = s.ctx a) ∧ QuietMemory s t) ∧
      (∀ w l1 l2, ownerOf s col m = some code → waiters s col = l1 ++ w :: l2 → w.kind = .lock → w.n = m → (∀ u ∈ l1, ¬ (u.kind = .lock ∧ u.n = m)) →
        ∃ t, exec .lockRelease s = .next t ∧ ownerOf t col m = some w.ag ∧ AnsweredBy t (.ofCode w.ag) 0 ∧ waiters t col = l1 ++ l2 ∧ QuietMemory s t) ∧
      (∀ o, ownerOf s col m = some o → o ≠ code → (s.ctx ag).lvl = .user →
        ∃ t e, exec .lockRelease s = .next t ∧ ownerOf t col m = some o ∧ t.errs = s.errs ++ [e] ∧ e.src = 1 ∧ e.sub = 5 ∧ (∀ a, t.ctx a = s.ctx a) ∧ QuietMemory s t)) ∧
    (∀ m, reg = some (.try_ m) →
      (ownerOf s col m = none → ∃ t, exec .tryLock s = .next t ∧ ownerOf t col m = some code ∧ AnsweredBy t ag 0 ∧ QuietMemory s t) ∧
      (∀ o, ownerOf s col m = some o → ∃ t, exec .tryLock s = .next t ∧ ownerOf t col m = some o ∧ AnsweredBy t ag (if o = code then 2 else 1) ∧ QuietMemory s t)) ∧
    (∀ e, reg = some (.wait e) →
      (lineSet s col e = true → ∃ t, exec .wait s = .next t ∧ lineSet t col e = true ∧ AnsweredBy t ag 1 ∧ QuietMemory s t) ∧
      (lineSet s col e = false → ∃ t, exec .wait s = .next t ∧ WaitsIn s t ag col { ag := code, kind := .wait, n := e })) ∧
    (∀ e, reg = some (.take e) →
      (lineSet s col e = true → ∃ t, exec .take s = .next t ∧ lineSet t col e = false ∧ AnsweredBy t ag 1 ∧ QuietMemory s t) ∧
      (lineSet s col e = false → ∃ t, exec .take s = .next t ∧ WaitsIn s t ag col { ag := code, kind := .take, n := e })) ∧
    (∀ e v, reg = some (.line e) → rest = [v] → v < 2 ^ 64 →
      (bit v 0 = false → ∃ t, exec .lineWrite s = .next t ∧ lineSet t col e = false ∧ (∀ a, t.ctx a = s.ctx a) ∧ QuietMemory s t) ∧
      (bit v 0 = true → (∀ w ∈ waiters s col, ¬ (w.kind = .take ∧ w.n = e)) →
        ∃ t, exec .lineWrite s = .next t ∧ lineSet t col e = true ∧ (∀ w ∈ waiters s col, w.kind = .wait → w.n = e → AnsweredBy t (.ofCode w.ag) 1) ∧ QuietMemory s t) ∧
      (∀ w l1 l2, bit v 0 = true → waiters s col = l1 ++ w :: l2 → w.kind = .take → w.n = e → (∀ u ∈ l1, ¬ (u.kind = .take ∧ u.n = e)) →
        ∃ t, exec .lineWrite s = .next t ∧ lineSet t col e = false ∧ AnsweredBy t (.ofCode w.ag) 1 ∧ QuietMemory s t))

/-- R199 to R207: the event unit of a column. -/
def Obligations.EventUnit : Prop := Claims.Barriers ∧ Claims.ChainMessages ∧ Claims.MutexesAndLines

/-! ## Quad matrix unit -/

namespace Sys2Proof.Claims

open Sys2Proof Sys2Proof.Machine

/-- An operand-memory entry of a context (R246), and the commands waiting in the port of a core (R239). -/
def entryOf (s : State) (ag : Agent) (e : Nat) : SlotEntry := look {} (s.ctx ag).entries e
def portOf (s : State) (core : Nat) : List MCmd := look [] (s.quad (quadOf core)).ports (laneOf core)

/-- Element `k` of an accumulator. -/
def accElem (r : Regs) (n k : Nat) : BitVec 32 := look 0 (if n = 0 then r.acc0 else r.acc1) k

/-- The state in which a command that has left its lane's port is accepted: the array is in use (R240). -/
def takenFrom (s : State) (k l : Nat) (m : MCmd) (rest : List MCmd) : State :=
  State.occupy (s.setQuad k { s.quad k with ports := put l rest (s.quad k).ports, last := l }) k m.res

/-- Everything of the registers but an accumulator and its poison mark. -/
def besideAcc (r : Regs) : Regs := { r with acc0 := [], acc1 := [], accBad := 0 }

/-- The commands of R242: the registers read, operation (0 MMA, 1 MMAR, 2 ACCZ, 3 TCFGR), accumulator, d, a and b. -/
def matrixForm : Instr → Option (List Nat × Nat × Nat × Nat × Nat × Nat)
  | .mma a b n => some ([a, b], 0, n, 0, a, b)
  | .mmar d a b n => some ([d, a, b], 1, n, d, a, b)
  | .accz n => some ([], 2, n, 0, 0, 0)
  | .tcfgr d => some ([], 3, 0, d, 0, 0)
  | _ => none

/-- A valid operand of TCFG (R251, R252). -/
def goodTcfg (v : W64) : Prop :=
  let (rows, cols, depth) := (bits v.toNat 4 0, bits v.toNat 12 8, bits v.toNat 24 16)
  let (fa, fb, fc) := (bits v.toNat 39 36, bits v.toNat 43 40, bits v.toNat 47 44)
  (rows = 0 ∧ cols = 0 ∧ depth = 0 ∧ fa = 0 ∧ fb = 0 ∧ fc = 0) ∨
  (1 ≤ rows ∧ rows ≤ 16 ∧ 1 ≤ cols ∧ cols ≤ 16 ∧ fc ≤ 8 ∧ depth % 16 = 0 ∧ 16 ≤ depth ∧
    ((fa ∈ [4, 5, 6] ∧ fb ∈ [4, 5, 6] ∧ depth ≤ 256) ∨ (fa ∈ [2, 3] ∧ fb ∈ [2, 3] ∧ depth ≤ 128) ∨ (fa = 1 ∧ fb = 1 ∧ depth ≤ 64)))

/-- Bytes of a tile line (R253). -/
def lineBytes (fmt depth : Nat) : Nat :=
  if fmt = 1 then 4 * depth else if fmt = 2 ∨ fmt = 3 then 2 * depth else if fmt = 4 then depth else if fmt = 5 then 5 * depth / 8 else 3 * depth / 8

/-- A matrix singleton goes at once: every earlier command of the context has retired (R244), no other command waits in the ports of the quad, and the array and
the load path are free (R240). -/
structure MatrixIdle (s : State) (core n : Nat) : Prop where
  retired : (s.ctx (.ctx core n)).mcmds = 0
  ports : ∀ l, look [] (s.quad (quadOf core)).ports l = []
  array : (s.quad (quadOf core)).busy = false
  path : (s.quad (quadOf core)).loading = false

/-- TILE with a code and a field (R249). -/
def tileTrap (code f : Nat) : Trap := { cause := 0x0A, info := BitVec.ofNat 64 (code * 2 ^ 8 + f) }

/-- The precise trap of an instruction that went through the port: the entry of a trap from a state in which the context's registers, its level, every other context
and all of memory stand as before it (R255). -/
def PortTrap (s t : State) (ag : Agent) (tr : Trap) : Prop :=
  ∃ u : State, t = u.takeTrap ag tr ∧ u.regs ag = s.regs ag ∧ (u.ctx ag).lvl = (s.ctx ag).lvl ∧ (u.ctx ag).chunk.run = false ∧ OnlyContext s u ag

end Sys2Proof.Claims

open Sys2Proof Sys2Proof.Machine Sys2Proof.Claims

/-- R242: MMA, MMAR, ACCZ and TCFGR, outside serial mode, enter the port of their core with the words read, and the context goes on; a full port makes it
wait. A later reader of TCFGR's destination finds it absent. -/
def Sys2Proof.Claims.MatrixIssue : Prop :=
  ∀ (i : Instr) (rd : List Nat) (op k d a b : Nat), matrixForm i = some (rd, op, k, d, a, b) → i.WF →
    ∀ (s : State) (core n : Nat), Plain s core n → Present s core n rd → (s.ctx (.ctx core n)).serial = false →
      bits (s.regs (.ctx core n)).fx.toNat 13 8 = 0 →
      let ag := Agent.ctx core n
      let r := s.regs ag
      ((portOf s core).length < 2 →
        ∃ t m, exec i s = .next t ∧ portOf t core = portOf s core ++ [m] ∧ m.ag = ag.code ∧ m.op = op ∧ m.n = k ∧ m.fd = d ∧ m.fa = a ∧ m.fb = b ∧
          (op ≤ 1 → m.wa = r.S a ∧ m.wb = r.S b) ∧ (op = 1 → m.wd = r.S d) ∧ (t.ctx ag).mcmds = (s.ctx ag).mcmds + 1 ∧
          (t.regs ag).pc = (r.next 4).pc ∧ (∀ j, (t.regs ag).S j = r.S j) ∧ (op = 3 → d ≠ 0 → (t.regs ag).present d = false) ∧
          t.underWay .matrixTake [quadOf core] = true ∧ (∀ c, c ≠ ag → t.ctx c = s.ctx c) ∧ QuietMemory s t) ∧
      (2 ≤ (portOf s core).length → ∃ t, exec i s = .next t ∧ (t.ctx ag).st = .stalled ∧ t.regs ag = r ∧ portOf t core = portOf s core)

/-- R240, R243, R260 to R262: the unit takes the ready head of the next port in turn. ACCZ clears its accumulator. MMA and MMAR with valid handles of loaded tiles that fit
tcfg add their product, element by element inside M × N, and change no other element. A command whose acceptance fails squashes its chunk, which
goes on in serial mode. -/
def Sys2Proof.Claims.MatrixTakes : Prop :=
  ∀ (s : State) (core n l : Nat) (m : MCmd) (rest : List MCmd), core < 100352 → n < 4 → s.args = [quadOf core] → (s.quad (quadOf core)).nextLane = some l →
    look [] (s.quad (quadOf core)).ports l = m :: rest → m.ag = (Agent.ctx core n).code → s.noBad = true →
    let ag := Agent.ctx core n
    let r := s.regs ag
    let v := r.tcfg
    let M := if m.op = 1 then bits m.wd.toNat 15 0 else bits v.toNat 4 0
    let N := if m.op = 1 then bits m.wd.toNat 31 16 else bits v.toNat 12 8
    let KK := if m.op = 1 then bits m.wd.toNat 47 32 else bits v.toNat 24 16
    (m.op = 2 → m.n < 2 → ∃ t, exec .matrixTake s = .next t ∧ (∀ k, accElem (t.regs ag) m.n k = 0 ∧ accElem (t.regs ag) (1 - m.n) k = accElem r (1 - m.n) k) ∧
      besideAcc (t.regs ag) = besideAcc r ∧ look [] (t.quad (quadOf core)).ports l = rest ∧ (t.quad (quadOf core)).last = l ∧ QuietMemory s t) ∧
    (∀ oa ea ob eb, m.op ≤ 1 → m.n < 2 → m.tchk = 0 → s.handle core n m.wa.toNat .read m.fa = .ok (oa, ea) → s.handle core n m.wb.toNat .read m.fb = .ok (ob, eb) →
      let A := entryOf s oa ea
      let B := entryOf s ob eb
      A.roleB = false → B.roleB = true → A.loaded = true → B.loaded = true → bits v.toNat 4 0 ≤ 16 → bits v.toNat 12 8 ≤ 16 →
      A.fmt = bits v.toNat 39 36 → A.lines = bits v.toNat 4 0 → A.depth = bits v.toNat 24 16 →
      B.fmt = bits v.toNat 43 40 → B.lines = bits v.toNat 12 8 → B.depth = bits v.toNat 24 16 →
      1 ≤ M → M ≤ bits v.toNat 4 0 → 1 ≤ N → N ≤ bits v.toNat 12 8 → 1 ≤ KK → KK ≤ bits v.toNat 24 16 → r.accBad.getLsbD m.n = false →
      let line (e : SlotEntry) (i : Nat) := (tileFmt e.fmt).decodeAll e.depth (s.value (slotKey (quadOf core) e.phys (256 * i)) (tileBytes e.fmt e.depth))
      ∃ t id x, exec .matrixTake s = .next t ∧ QuietMemory s t ∧ besideAcc (t.regs ag) = besideAcc r ∧
        (∀ i j, i < M → j < N → accElem (t.regs ag) m.n (16 * i + j) =
          BitVec.ofNat 32 (dotElem A.fmt (line A i) (line B j) KK (accElem r m.n (16 * i + j)).toNat).1) ∧
        (∀ i j, j < 16 → M ≤ i ∨ N ≤ j → accElem (t.regs ag) m.n (16 * i + j) = accElem r m.n (16 * i + j)) ∧
        (∀ k, accElem (t.regs ag) (1 - m.n) k = accElem r (1 - m.n) k) ∧
        (t.quad (quadOf core)).mc = ((s.quad (quadOf core)).mc + 1) % 2 ^ 64 ∧ (id, x) ∈ t.flight ∧ x.ev = ⟨.matrixRetire, [id]⟩ ∧ x.src = ag.code) ∧
    (∀ tr, m.op ≤ 1 → (takenFrom s (quadOf core) l m rest).accept core n m (((s.quad (quadOf core)).mc + 1) % 2 ^ 64) = .error (.trap tr) →
      (s.ctx ag).chunk.run = true → (s.ctx ag).chunk.undo = [] → (s.ctx ag).chunk.special = [] →
      ∃ t, exec .matrixTake s = .next t ∧ (t.ctx ag).serial = true ∧ t.regs ag = (s.ctx ag).chunk.save ∧ (t.ctx ag).chunk.run = false ∧ QuietMemory s t)

/-- R62, R242, R257: a retirement adds the flags to fx.status; TCFGR's word reaches its register, unless a later instruction has written that. -/
def Sys2Proof.Claims.MatrixRetires : Prop :=
  ∀ (s : State) (id core n op fl fd no res : Nat) (m : Msg), core < 100352 → n < 4 → s.args = [id] → s.msg? id = some m → m.src = (Agent.ctx core n).code →
    m.words = [op, fl, fd, no, res] → fl < 64 → fd < 32 →
    let ag := Agent.ctx core n
    let r := s.regs ag
    ∃ t, exec .matrixRetire s = .next t ∧ (t.regs ag).fx = r.fx ||| BitVec.ofNat 64 fl ∧ (t.ctx ag).mcmds = (s.ctx ag).mcmds - 1 ∧
      (op = 3 → has r.tpend fd = true → look 0 r.tpend fd = no → fd ≠ 0 → (t.regs ag).S fd = BitVec.ofNat 64 res) ∧ (op ≠ 3 → ∀ j, (t.regs ag).S j = r.S j) ∧ QuietMemory s t

/-- R247, R252, R256, R258: TCFG writes tcfg from a valid operand when no slot is claimed, or, forced, releases every slot and clears the accumulators; TILE 4 and 1
otherwise. OCLAIM and OCLAIM.S claim the lowest free entry, with its handle as result, or answer 0; OREL releases an entry and steps its generation. -/
def Sys2Proof.Claims.MatrixConfiguration : Prop :=
  ∀ (s : State) (core n d a : Nat), Between s core n → Present s core n [a] → d < 32 → a < 32 → MatrixIdle s core n →
    let ag := Agent.ctx core n
    let r := s.regs ag
    let v := r.S a
    (¬ goodTcfg v → ∃ t, exec (.tcfg a) s = .next t ∧ PortTrap s t ag (tileTrap 4 a)) ∧
    (goodTcfg v → v.getLsbD 63 = false → (∃ e, e < 8 ∧ (entryOf s ag e).claimed = true) → ∃ t, exec (.tcfg a) s = .next t ∧ PortTrap s t ag (tileTrap 1 a)) ∧
    (goodTcfg v → v.getLsbD 63 = false → (∀ e, e < 8 → (entryOf s ag e).claimed = false) →
      ∃ t, exec (.tcfg a) s = .next t ∧ t.regs ag = ({ r with tcfg := v &&& 0xFFF001FF1F1F#64 } : Regs).next 4 ∧ OnlyContext s t ag) ∧
    (goodTcfg v → v.getLsbD 63 = true →
      ∃ t, exec (.tcfg a) s = .next t ∧ t.regs ag = ({ r with tcfg := v &&& 0xFFF001FF1F1F#64, acc0 := [], acc1 := [], accBad := 0 } : Regs).next 4 ∧
        (∀ e, e < 8 → (entryOf t ag e).claimed = false) ∧ ∀ k, k < 2 ^ 42 → t.byte k = s.byte k) ∧
    (∀ (sh : Bool) e p, e < 8 → (entryOf s ag e).claimed = false → (∀ j, j < e → (entryOf s ag j).claimed = true) → p < 24 → p ∉ (s.quad (quadOf core)).used →
      (entryOf s ag e).gen < 2 ^ 16 →
      ∃ t, exec (if sh then .oclaimS d a else .oclaim d a) s = .next t ∧ OnlyContext s t ag ∧
        t.regs ag = (r.setS d (BitVec.ofNat 64 ((entryOf s ag e).gen * 2 ^ 16 + laneOf core * 2 ^ 10 + n * 2 ^ 8 + (if sh then 8 else 0) + e))).next 4 ∧
        (entryOf t ag e).claimed = true ∧ (entryOf t ag e).roleB = v.getLsbD 0 ∧ (entryOf t ag e).shared = sh ∧ (entryOf t ag e).loaded = false) ∧
    (∀ (sh : Bool), (∀ e, e < 8 → (entryOf s ag e).claimed = true) →
      ∃ t, exec (if sh then .oclaimS d a else .oclaim d a) s = .next t ∧ t.regs ag = (r.setS d 0).next 4 ∧ OnlyContext s t ag) ∧
    (∀ e, s.handle core n v.toNat .own a = .ok (ag, e) → (entryOf s ag e).gen < 2 ^ 16 →
      ∃ t, exec (.orel a) s = .next t ∧ t.regs ag = r.next 4 ∧ (entryOf t ag e).claimed = false ∧ (entryOf t ag e).gen = (if (entryOf s ag e).gen = 0xFFFF then 1 else (entryOf s ag e).gen + 1) ∧
        (∀ j, j ≠ e → entryOf t ag j = entryOf s ag j) ∧ ∀ k, k < 2 ^ 42 → t.byte k = s.byte k) ∧
    (∀ tr, s.handle core n v.toNat .own a = .error tr → ∃ t, exec (.orel a) s = .next t ∧ PortTrap s t ag tr)

/-- R259: OLOAD fills a slot with the lines of a tile, and zeros beyond them; OSTORE writes them back, line after line. -/
def Sys2Proof.Claims.TileMoves : Prop :=
  ∀ (s : State) (core n a b e : Nat) (off : Nat → Nat), Between s core n → Present s core n [a, b] → a < 32 → b < 32 → MatrixIdle s core n → NoChunks s →
    s.tokenHolder = none → s.handle core n ((s.regs (.ctx core n)).S a).toNat .own a = .ok (.ctx core n, e) →
    let ag := Agent.ctx core n
    let r := s.regs ag
    let x := entryOf s ag e
    let v := r.tcfg.toNat
    let fmt := if x.roleB then bits v 43 40 else bits v 39 36
    let cnt := if x.roleB then bits v 12 8 else bits v 4 0
    let depth := bits v 24 16
    let L := lineBytes fmt depth
    let st := bits (r.OX 1).toNat 31 0
    let va (i : Nat) := ((r.S b).toNat + i * st) % 2 ^ 64
    let slot (k : Nat) := slotKey (quadOf core) x.phys k
    goodTcfg r.tcfg → 1 ≤ bits v 4 0 → (r.S b).toNat % 16 = 0 → st % 16 = 0 → x.phys < 24 →
    (∀ i, i < cnt → off i / 2 ^ 14 = (off i + L - 1) / 2 ^ 14 ∧ look 0 (s.core core).bfmt (off i / 2 ^ 14) = fmt ∧ off i + L ≤ 2 ^ 17) →
    ((∀ i, i < cnt → OwnBytes (s.entered ag (some 14)) core n (va i) L (off i) rdR true) →
      ∃ t, exec (.oload a b) s = .next t ∧ t.regs ag = r.next 4 ∧ (∀ c, c ≠ ag → t.ctx c = s.ctx c) ∧
        (∀ i j, i < 16 → j < 256 → t.byte (slot (256 * i + j)) = if i < cnt ∧ j < L then s.byte (scratchKey core (off i) + j) else 0) ∧
        (∀ k, k < slot 0 ∨ slot 4096 ≤ k → t.byte k = s.byte k) ∧
        entryOf t ag e = { x with loaded := true, fmt := fmt, lines := cnt, depth := depth }) ∧
    ((∀ i, i < cnt → OwnBytes (s.entered ag (some 14)) core n (va i) L (off i) wrR true) → x.loaded = true → x.fmt = fmt → x.lines = cnt → x.depth = depth →
      ∃ t, exec (.ostore a b) s = .next t ∧ t.regs ag = r.next 4 ∧ (∀ c, c ≠ ag → t.ctx c = s.ctx c) ∧
        ∀ k, t.byte k = (List.range cnt).foldl (fun y i => if scratchKey core (off i) ≤ k ∧ k < scratchKey core (off i) + L
          then s.byte (slot (256 * i + (k - scratchKey core (off i)))) else y) (s.byte k))

/-- R68, R69, R263: ACCST writes the 256 elements of an accumulator, converted to the bank's format (a raw bank stands for FP32); ACCLD reads them, from a bank of
the format of tcfg; a conversion whose flag is enabled raises FPX, and a tcfg without a C format TILE 4. -/
def Sys2Proof.Claims.AccumulatorMoves : Prop :=
  ∀ (s : State) (core n a k off : Nat), Between s core n → Present s core n [a] → a < 32 → k < 2 → MatrixIdle s core n → NoChunks s → s.tokenHolder = none →
    let ag := Agent.ctx core n
    let r := s.regs ag
    let va := (r.S a).toNat
    let code := look 0 (s.core core).bfmt (off / 2 ^ 14)
    let f := (bankFmt code).getD (.flt fp32)
    let L := f.bytes 256
    let values := (List.range 256).map (fun j => fp32.decode (accElem r k j).toNat)
    va % 16 = 0 → bits va 16 0 = off → addrCheck (.ctx core 0) va 1 false = .ok (some core) → off / 2 ^ 14 = (off + L - 1) / 2 ^ 14 →
    (OwnBytes (s.entered ag (some 14)) core n va L off wrR true → r.accBad.getLsbD k = false →
      let res := f.encodeAll values
      (¬ enabled r res.2 → ∃ t, exec (.accst a k) s = .next t ∧ t.regs ag = (r.addFlags res.2).next 4 ∧ (∀ c, c ≠ ag → t.ctx c = s.ctx c) ∧
        ∀ q, t.byte q = storedByte s (scratchKey core off) L res.1 q) ∧
      (enabled r res.2 → ∃ t, exec (.accst a k) s = .next t ∧ PortTrap s t ag { cause := 0x09, info := BitVec.ofNat 64 res.2.toNat })) ∧
    (OwnBytes (s.entered ag (some 14)) core n va L off rdR true → bits r.tcfg.toNat 47 44 = code → code ≠ 0 → code ≤ 8 →
      let res := (EFmt.flt fp32).encodeAll (f.decodeAll 256 (s.value (scratchKey core off) L))
      ¬ enabled r res.2 → ∃ t, exec (.accld a k) s = .next t ∧ OnlyContext s t ag ∧ (t.regs ag).pc = (r.next 4).pc ∧ (t.regs ag).fx = r.fx ||| BitVec.ofNat 64 res.2.toNat ∧
        (t.regs ag).accBad.getLsbD k = false ∧ (∀ j, j < 256 → accElem (t.regs ag) k j = BitVec.ofNat 32 (res.1 / 2 ^ (32 * j))) ∧
        ∀ j, accElem (t.regs ag) (1 - k) j = accElem r (1 - k) j) ∧
    (bits r.tcfg.toNat 47 44 = 0 → ∃ t, exec (.accld a k) s = .next t ∧ PortTrap s t ag (tileTrap 4 a))

/-- R239 to R263: the quad matrix unit. -/
def Obligations.MatrixUnit : Prop :=
  Claims.MatrixIssue ∧ Claims.MatrixTakes ∧ Claims.MatrixRetires ∧ Claims.MatrixConfiguration ∧ Claims.TileMoves ∧ Claims.AccumulatorMoves

/-! ## Reservoir, power, time -/

namespace Sys2Proof.Claims

open Sys2Proof Sys2Proof.Machine

/-- A context between two chunks, whatever reservation its core has: instructions that are never charged execute so (R281). -/
structure Uncharged (s : State) (core n : Nat) : Prop where
  cur : s.cur = .ctx core n
  ready : (s.ctx (.ctx core n)).st = .ready
  noChunk : (s.ctx (.ctx core n)).chunk.run = false
  asked : (s.ctx (.ctx core n)).asked = none
  reply : (s.ctx (.ctx core n)).reply = none
  got : (s.ctx (.ctx core n)).got = []
  waitOn : (s.ctx (.ctx core n)).waitOn = none
  infl : (s.ctx (.ctx core n)).infl = 0

/-- A context that an arbiter has answered (R278, R291). -/
structure Told (s : State) (core n v : Nat) : Prop where
  cur : s.cur = .ctx core n
  ready : (s.ctx (.ctx core n)).st = .ready
  noChunk : (s.ctx (.ctx core n)).chunk.run = false
  asked : (s.ctx (.ctx core n)).asked = some evAsk
  reply : (s.ctx (.ctx core n)).reply = some [v]
  infl : (s.ctx (.ctx core n)).infl = 0

/-- RSV and RSVT complete with a result (R289). -/
def RsvResult (s t : State) (core n d res : Nat) : Prop :=
  t.regs (.ctx core n) = ((s.regs (.ctx core n)).setS d (BitVec.ofNat 64 res)).next 4 ∧
  (t.ctx (.ctx core n)).rsvState = ((s.ctx (.ctx core n)).rsvState &&& ~~~(0xF#64)) ||| BitVec.ofNat 64 res ∧ QuietMemory s t

/-- Out: what the admitted reservations of a column may still spend (R275); the sum of its pending amounts (R279). -/
def outAmount (s : State) (col : Nat) : Nat :=
  ((s.col col).admitted.map (fun a => (s.ctx (.ctx a.core a.ctx)).rsvHeld - (s.ctx (.ctx a.core a.ctx)).rsvSpent)).sum
def pendingAmount (s : State) (col : Nat) : Nat := ((s.col col).pending.map (·.q)).sum

/-- The capacity that a tick makes visible (R276, R451). -/
def tickCap (s : State) (col : Nat) : Nat :=
  if s.power.pin = true ∨ s.power.sense = true ∨ col ∈ s.darkCols then 0
  else min (min (s.col col).capfw 0xFA000) (min ((s.partOfCol col).elim 0xFA000 (fun p => (s.part p).prsv)) (min (s.col col).capfw 0xFA000 * s.power.scale / 256))
/-- The fill that a tick leaves after its drain (R275, R435, R447). -/
def tickFill (s : State) (col : Nat) : Nat :=
  if col ∈ s.darkCols then 0 else ((s.col col).fillfw.getD (s.col col).fill) - bits (s.col col).drainfw.toNat 31 0

/-- A column in which no reservation stands, is asked for, or is waited on. -/
def Still (s : State) (col : Nat) : Prop := (s.col col).admitted = [] ∧ (s.col col).pending = [] ∧ (s.col col).waits = []

/-- A tick of a module that has started, at which no sample of the sensors is due, with each column named once. -/
def PlainTick (s : State) (col : Nat) : Prop :=
  s.boot.stage = 7 ∧ s.boot.fail = false ∧ s.sampled = none ∧ (s.cols.map (·.1)).Nodup ∧ has s.cols col = true ∧ ∀ c, c ≠ col → Still s c

/-- What every tick does first in a column (R275, R447). -/
structure Ticked (s t : State) (col : Nat) : Prop where
  fill : (t.col col).fill = tickFill s col
  cap : (t.col col).cap = tickCap s col
  drain : (t.col col).drain = bits (s.col col).drainfw.toNat 31 0
  hold : (t.col col).hold = bits (s.col col).drainfw.toNat 47 32
  cost : (t.col col).cost = (s.col col).costfw
  replaced : (t.col col).fillfw = none
  next : (s.arg 0 + 1000, ⟨.reservoirTick, [s.arg 0 + 1000]⟩) ∈ t.agenda
  memory : QuietMemory s t

/-! ### Operating points and time -/

/-- The point at which a core (`what` 0) or the base of a column (1) stands, and the one that it is to have. -/
def pointOf (s : State) (what who : Nat) : Point := if what = 0 then s.point who else (s.col who).base
def aimOf (s : State) (what who : Nat) : Point :=
  if what = 0 then (if (s.core who).holder.isSome then s.sprintAim (colOf who) else (s.col (colOf who)).base) else s.baseAim who

/-- Whether another change has its FIFO draining, which the one of `what` and `who` lets be completed first (R442). -/
def OtherDrains (s : State) (what who : Nat) : Prop :=
  if what = 2 then s.power.drain.isSome = true ∨ (∃ e ∈ s.cores, drains e.2.move = true) ∨ ∃ e ∈ s.cols, drains e.2.move = true
  else s.power.drain.isSome = true ∨ (what = 0 ∧ drains (s.col (colOf who)).move = true)

/-- The record of a port of the time unit. -/
def timePort (s : State) (port : Nat) : TmPort := look {} s.tm.ports port

end Sys2Proof.Claims

open Sys2Proof Sys2Proof.Machine Sys2Proof.Claims

/-- R277, R279, R289: RSV and RSVT. An invalid amount gives 4, an own reservation 3, another's 2, an amount above the capacity 5. RSVT is admitted at once when it
fits beside everything admitted and pending and nothing blocks, and refused with 1 otherwise; RSV joins the pending set and waits, and completes with
what the arbiter answers. -/
def Sys2Proof.Claims.Reservations : Prop :=
  ∀ (s : State) (core n d a : Nat), d < 32 → a < 32 → core < 100352 → n < 4 →
    let ag := Agent.ctx core n
    let q := ((s.regs ag).S a).toNat
    let col := colOf core
    let k := s.col col
    let fitsNow := k.fill + outAmount s col + pendingAmount s col + q ≤ k.cap ∧ ∀ r ∈ k.pending, r.blk = false
    (∀ i, i = .rsv d a ∨ i = .rsvt d a → Uncharged s core n → Present s core n [a] →
      (q = 0 ∨ 2 ^ 32 ≤ q → ∃ t, exec i s = .next t ∧ RsvResult s t core n d 4) ∧
      (0 < q → q < 2 ^ 32 → (s.core core).holder = some n → ∃ t, exec i s = .next t ∧ RsvResult s t core n d 3) ∧
      (∀ h, 0 < q → q < 2 ^ 32 → (s.core core).holder = some h → h ≠ n → ∃ t, exec i s = .next t ∧ RsvResult s t core n d 2) ∧
      (0 < q → q < 2 ^ 32 → (s.core core).holder = none → k.cap < q → ∃ t, exec i s = .next t ∧ RsvResult s t core n d 5)) ∧
    (Uncharged s core n → Present s core n [a] → 0 < q → q < 2 ^ 32 → (s.core core).holder = none → q ≤ k.cap →
      (fitsNow → ∃ t, exec (.rsvt d a) s = .next t ∧ RsvResult s t core n d 0 ∧ (t.core core).holder = some n ∧ (t.ctx ag).rsvHeld = q ∧ (t.ctx ag).rsvSpent = 0 ∧
        (t.col col).fill = k.fill) ∧
      (¬ fitsNow → ∃ t, exec (.rsvt d a) s = .next t ∧ RsvResult s t core n d 1 ∧ (t.core core).holder = none) ∧
      (∃ t r, exec (.rsv d a) s = .next t ∧ (t.col col).pending = k.pending ++ [r] ∧ r.core = core ∧ r.ctx = n ∧ r.q = q ∧ r.rank = (s.regs ag).rank.toNat % 8 ∧
        r.age = 0 ∧ (t.ctx ag).st = .waiting ∧ (t.ctx ag).why = 2 ∧ t.regs ag = s.regs ag ∧ QuietMemory s t)) ∧
    (∀ res i, i = .rsv d a ∨ i = .rsvt d a → Told s core n res → Present s core n [a] → ∃ t, exec i s = .next t ∧ RsvResult s t core n d res)

/-- R285, R290 to R292: RREL ends the context's reservation and returns what is left of it, or 0; RWAIT and RWAIT.FIT complete with the fill when their condition holds, and
wait otherwise; RRD reads two amounts at one instant. -/
def Sys2Proof.Claims.ReservoirReads : Prop :=
  ∀ (s : State) (core n d a : Nat), d < 32 → a < 32 → core < 100352 → n < 4 → Uncharged s core n → Present s core n [a] →
    let ag := Agent.ctx core n
    let r := s.regs ag
    let c := s.ctx ag
    let col := colOf core
    let k := s.col col
    let x := bits (r.S a).toNat 31 0
    ((s.core core).holder ≠ some n → ∃ t, exec (.rrel d) s = .next t ∧ t.regs ag = (r.setS d 0).next 4 ∧ OnlyContext s t ag ∧ (t.core core).holder = (s.core core).holder) ∧
    ((s.core core).holder = some n → (s.core core).running n = 0 →
      ∃ t, exec (.rrel d) s = .next t ∧ t.regs ag = (r.setS d (BitVec.ofNat 64 (c.rsvHeld - c.rsvSpent))).next 4 ∧ (t.core core).holder = none ∧
        (t.ctx ag).rsvHeld = 0 ∧ (t.ctx ag).rsvSpent = 0 ∧ bits (t.ctx ag).rsvState.toNat 11 8 = 1 ∧ (t.col col).fill = k.fill ∧ QuietMemory s t) ∧
    (k.fill ≤ x → ∃ t, exec (.rwait d a) s = .next t ∧ t.regs ag = (r.setS d (BitVec.ofNat 64 k.fill)).next 4 ∧ OnlyContext s t ag) ∧
    (x < k.fill → ∃ t, exec (.rwait d a) s = .next t ∧ (t.col col).waits = k.waits ++ [⟨core, n, false, x⟩] ∧ (t.ctx ag).st = .waiting ∧ (t.ctx ag).why = 3 ∧
      t.regs ag = r ∧ QuietMemory s t) ∧
    (k.cap < x → ∃ t, exec (.rwaitFit d a) s = .next t ∧ t.regs ag = (r.setS d (BitVec.allOnes 64)).next 4 ∧ OnlyContext s t ag) ∧
    (x ≤ k.cap → k.fill + outAmount s col + x ≤ k.cap → ∃ t, exec (.rwaitFit d a) s = .next t ∧ t.regs ag = (r.setS d (BitVec.ofNat 64 k.fill)).next 4 ∧ OnlyContext s t ag) ∧
    (x ≤ k.cap → k.cap < k.fill + outAmount s col + x → ∃ t, exec (.rwaitFit d a) s = .next t ∧ (t.col col).waits = k.waits ++ [⟨core, n, true, x⟩] ∧
      (t.ctx ag).st = .waiting ∧ (t.ctx ag).why = 3 ∧ t.regs ag = r ∧ QuietMemory s t) ∧
    (c.mcmds = 0 → s.darkCols.contains col = false →
      ∃ t, exec (.rrd d a) s = .next t ∧ OnlyContext s t ag ∧ t.regs ag = (r.setS d (
        if x % 4 = 0 then BitVec.ofNat 64 (k.cap * 2 ^ 32 + k.fill) else if x % 4 = 1 then BitVec.ofNat 64 (c.rsvHeld * 2 ^ 32 + c.rsvSpent)
        else if x % 4 = 2 then s.rsvStateOf core n else BitVec.ofNat 64 (pendingAmount s col * 2 ^ 32 + outAmount s col))).next 4) ∧
    (0 < c.mcmds → ∃ t, exec (.rrd d a) s = .next t ∧ (t.ctx ag).st = .stalled ∧ t.regs ag = r)

/-- R275 to R278, R284, R291, R447: a tick replaces the fill, drains it, takes the capacity and the costs; it admits a pending request that fits, answers 2 where the core has
a holder and 5 where the amount is above the capacity, and lets any other wait one tick more; it revokes a reservation that the capacity no longer bears; and it
completes an RWAIT whose condition now holds. -/
def Sys2Proof.Claims.Ticks : Prop :=
  ∀ (s : State) (col : Nat), PlainTick s col →
    let k := s.col col
    let fill := tickFill s col
    let cap := tickCap s col
    (Still s col → ∃ t, exec .reservoirTick s = .next t ∧ Ticked s t col) ∧
    (∀ r, k.admitted = [] → k.pending = [r] → k.waits = [] → r.core < 100352 → r.ctx < 4 → colOf r.core = col →
      let ag := Agent.ctx r.core r.ctx
      (cap < r.q → ∃ t, exec .reservoirTick s = .next t ∧ Ticked s t col ∧ (t.col col).pending = [] ∧ AnsweredBy t ag 5) ∧
      (r.q ≤ cap → (s.core r.core).holder ≠ none → ∃ t, exec .reservoirTick s = .next t ∧ Ticked s t col ∧ (t.col col).pending = [] ∧ AnsweredBy t ag 2) ∧
      (r.q ≤ cap → (s.core r.core).holder = none → fill + r.q ≤ cap →
        ∃ t, exec .reservoirTick s = .next t ∧ Ticked s t col ∧ (t.col col).pending = [] ∧ AnsweredBy t ag 0 ∧ (t.core r.core).holder = some r.ctx ∧
          (t.ctx ag).rsvHeld = r.q ∧ (t.ctx ag).rsvSpent = 0) ∧
      (r.q ≤ cap → (s.core r.core).holder = none → cap < fill + r.q →
        ∃ t x, exec .reservoirTick s = .next t ∧ Ticked s t col ∧ (t.col col).pending = [x] ∧ x.q = r.q ∧ x.age = r.age + 1 ∧
          (x.blk = true ↔ bits k.drainfw.toNat 47 32 ≠ 0 ∧ bits k.drainfw.toNat 47 32 ≤ r.age) ∧ (t.core r.core).holder = none)) ∧
    (∀ a, k.admitted = [a] → k.pending = [] → k.waits = [] → colOf a.core = col → (s.core a.core).holder = some a.ctx →
      let ag := Agent.ctx a.core a.ctx
      let c := s.ctx ag
      (cap < fill + (c.rsvHeld - c.rsvSpent) → c.live = true →
        ∃ t, exec .reservoirTick s = .next t ∧ Ticked s t col ∧ (t.core a.core).holder = none ∧ (t.col col).admitted = [] ∧ bits (t.ctx ag).rsvState.toNat 11 8 = 3 ∧
          look 0 (t.ctx ag).pend 0x0D = BitVec.ofNat 64 c.rsvSpent ∧ has (t.ctx ag).pend 0x0D = true) ∧
      (fill + (c.rsvHeld - c.rsvSpent) ≤ cap → ∃ t, exec .reservoirTick s = .next t ∧ Ticked s t col ∧ (t.core a.core).holder = some a.ctx ∧ (t.ctx ag).rsvHeld = c.rsvHeld)) ∧
    (∀ w, k.admitted = [] → k.pending = [] → k.waits = [w] → w.fit = false → w.core < 100352 → w.ctx < 4 →
      (fill ≤ w.q → ∃ t, exec .reservoirTick s = .next t ∧ Ticked s t col ∧ (t.col col).waits = [] ∧ AnsweredBy t (.ctx w.core w.ctx) fill) ∧
      (w.q < fill → ∃ t, exec .reservoirTick s = .next t ∧ Ticked s t col ∧ (t.col col).waits = [w]))

/-- R283: when what was in flight has been charged, a cut ends the reservation, tells the holder by rsv.state, and raises SPRINT_CUT at the instruction held. That the
reservation ends all the same where the context of that instruction is no longer there to trap is the model's choice (log 14). -/
def Sys2Proof.Claims.SprintCuts : Prop :=
  ∀ (s : State) (core n h k : Nat), core < 100352 → n < 4 → k < 16 → s.args = [(Agent.ctx core n).code] → (s.core core).holder = some h →
    (s.ctx (.ctx core h)).rsvSpent < 2 ^ 32 →
    let ended (t : State) : Prop :=
      (t.core core).holder = none ∧ (t.core core).cut = none ∧ (t.ctx (.ctx core h)).rsvHeld = 0 ∧ (t.ctx (.ctx core h)).rsvSpent = 0 ∧
        bits (t.ctx (.ctx core h)).rsvState.toNat 11 8 = 2 ∧ bits (t.ctx (.ctx core h)).rsvState.toNat 19 16 = k ∧ t.regs (.ctx core n) = s.regs (.ctx core n) ∧ QuietMemory s t
    ((s.core core).cut = some (n, k, true) → (s.ctx (.ctx core n)).st = .stalled → (s.core core).running n = 0 → (s.regs (.ctx core n)).tpend = [] →
      s.queued (.ctx core n) = false →
      ∃ s1, exec .sprintCut s = .next (s1.takeTrap (.ctx core n)
        { cause := 0x0C, info := BitVec.ofNat 64 ((s.ctx (.ctx core h)).rsvSpent + k * 2 ^ 56 + (if h = n then 0 else 2 ^ 63)) }) ∧ ended s1) ∧
    (∀ m, (s.core core).cut = some (m, k, false) → (s.core core).inflight = 0 → ∃ t, exec .sprintCut s = .next t ∧ ended t)

/-- R275 to R292, R447: the thermal reservoir. -/
def Obligations.Reservoir : Prop := Claims.Reservations ∧ Claims.ReservoirReads ∧ Claims.Ticks ∧ Claims.SprintCuts

/-- R13, R245, R280, R439, R441, R452: whatever the part's curve, the base point is 2,500 MHz at the nominal supply of 350 mV and between 1,800 and 2,500 MHz at the floor of 300 mV, and the
sprint point 3,200 MHz at its nominal supply of 460 mV; a core stands at its own point, or else at its column's base; the fast throttle divides the clock by four; a quad unit runs
at no lower a clock than any of its cores. -/
def Sys2Proof.Claims.NominalPoints : Prop :=
  ∀ (s : State) (core col : Nat),
    (s.baseSupply col = 350 → s.baseAim col = (350, 2500)) ∧
    (s.baseSupply col = 300 → (s.baseAim col).1 = 300 ∧ 1800 ≤ (s.baseAim col).2 ∧ (s.baseAim col).2 ≤ 2500) ∧
    (bits (s.col col).vfReq.toNat 24 16 = 460 → s.sprintAim col = (460, 3200)) ∧
    (s.power.act = false → (∀ p, (s.core core).own = some p → s.corePoint core = p) ∧ ((s.core core).own = none → s.corePoint core = (s.col (colOf core)).base)) ∧
    (s.power.act = true → s.corePoint core = ((s.point core).1, (s.point core).2 / 4)) ∧
    ((s.corePoint core).2 ≤ (s.quadPoint core).2 ∧ ∀ l, l < 4 → (s.corePoint (coreInLane core l)).2 ≤ (s.quadPoint core).2)

/-- R280, R441, R442: a change of the point of a core, or of a column's base, goes through its phases: a rise raises the supply and then asks for its clock; the crossing FIFO then
drains, admitting nothing, unless another change drains, which is completed first; the clock switches, and the change is complete, or the supply then falls and completes it. A change
that has been completed leaves the point that was aimed at, and none under way where no other is due. -/
def Sys2Proof.Claims.PointChanges : Prop :=
  ∀ (s : State) (what who : Nat) (p : Point) (m : Move), what < 2 → s.moveOf what who = some (p, m) →
    let reached (t : State) : Prop := pointOf t what who = m.aim ∧ QuietMemory s t ∧ (aimOf s what who = m.aim → t.moveOf what who = none)
    (s.args = [who, 1, what] → m.phase = 0 →
      ∃ t, exec .supplySettle s = .next t ∧ t.moveOf what who = some ((m.aim.1, p.2), { m with phase := 1 }) ∧ (s.time, ⟨.ratioSwitch, [what, who, 0]⟩) ∈ t.agenda ∧ QuietMemory s t) ∧
    (s.args = [what, who, 0] → m.phase = 1 → ¬ OtherDrains s what who →
      ∃ t u, exec .ratioSwitch s = .next t ∧ t.moveOf what who = some (p, { m with phase := 2 }) ∧ (u, ⟨.ratioSwitch, [what, who, 1]⟩) ∈ t.agenda ∧ s.time ≤ u ∧ u ≤ s.time + 142 ∧
        (what = 0 → t.coreClosed who = true) ∧ (what = 1 → ∀ core, colOf core = who → (s.core core).own = none → t.coreClosed core = true) ∧ QuietMemory s t) ∧
    (s.args = [what, who, 0] → m.phase = 1 → OtherDrains s what who →
      ∃ t, exec .ratioSwitch s = .next t ∧ t.moveOf what who = some (p, m) ∧ (s.time + 1, ⟨.ratioSwitch, [what, who, 0]⟩) ∈ t.agenda ∧ QuietMemory s t) ∧
    (s.args = [what, who, 1] → m.phase = 2 → m.aim.1 < p.1 →
      ∃ t u, exec .ratioSwitch s = .next t ∧ t.moveOf what who = some ((p.1, m.aim.2), { m with phase := 3 }) ∧ (u, ⟨.supplySettle, [who, 0, what]⟩) ∈ t.agenda ∧ s.time ≤ u ∧
        u ≤ s.time + 200 ∧ QuietMemory s t) ∧
    (s.args = [what, who, 1] → m.phase = 2 → p.1 ≤ m.aim.1 → ∃ t, exec .ratioSwitch s = .next t ∧ reached t) ∧
    (s.args = [who, 0, what] → m.phase = 3 → ∃ t, exec .supplySettle s = .next t ∧ reached t)

/-- R287, R440, R442, R446, R447, R452: the division of the fast throttle, and its end, drain every crossing FIFO and then take hold; the division ends when its sources have been clear for the
release delay, and not before. A firmware throttle level, a fill and an operating point are written to the column, one outside the limits being denied whole; a base that is to change begins to. -/
def Sys2Proof.Claims.OperatingPoints : Prop :=
  ∀ (s : State),
    (let release := Nat.max s.time (s.power.clearAt + 1000 * max 1 s.power.hold)
     let held : Bool := s.power.pin || s.power.sense || s.time < s.power.clearAt + 1000 * max 1 s.power.hold
     ∀ w, w < 2 →
      (s.args = [2, w, 0] → s.power.act = decide (w = 1) → exec .ratioSwitch s = .next s) ∧
      (s.args = [2, w, 0] → s.power.act ≠ decide (w = 1) → ¬ OtherDrains s 2 0 →
        ∃ t u, exec .ratioSwitch s = .next t ∧ t.power = { s.power with drain := some (decide (w = 1)) } ∧ (u, ⟨.ratioSwitch, [2, w, 1]⟩) ∈ t.agenda ∧ s.time ≤ u ∧ u ≤ s.time + 142 ∧
          (∀ core, t.coreClosed core = true) ∧ QuietMemory s t) ∧
      (s.args = [2, w, 0] → s.power.act ≠ decide (w = 1) → OtherDrains s 2 0 →
        ∃ t, exec .ratioSwitch s = .next t ∧ t.power = s.power ∧ (s.time + 1, ⟨.ratioSwitch, [2, w, 0]⟩) ∈ t.agenda ∧ QuietMemory s t) ∧
      (s.args = [2, w, 1] → ∃ t, exec .ratioSwitch s = .next t ∧ t.power = { s.power with drain := none, act := held && (decide (w = 1) || s.power.act) } ∧ QuietMemory s t ∧
        (t.power.act = true → s.power.pin = false → s.power.sense = false → (release, ⟨.fastThrottleRelease, []⟩) ∈ t.agenda))) ∧
    (∀ ag col v, s.args = [ag, col, v] →
      (let fw := bits v 11 8
       let new := max fw (s.col col).thrArb
       ∃ t, exec .throtFwWrite s = .next t ∧ (t.col col).thrFw = fw ∧ (t.col col).level = new ∧ QuietMemory s t ∧
        (∀ core n c, (core, c) ∈ s.cores → (s.cores.map (·.1)).Nodup → n < 4 → colOf core = col → new ≠ (s.col col).level → (s.ctx (.ctx core n)).live = true →
          bit (s.regs (.ctx core n)).uie.toNat 34 = true →
          has (t.ctx (.ctx core n)).pend 0x22 = true ∧ look 0 (t.ctx (.ctx core n)).pend 0x22 = BitVec.ofNat 64 ((s.col col).level * 2 ^ 8 + new)) ∧
        (∀ core n, bit (s.regs (.ctx core n)).uie.toNat 34 = false → (t.ctx (.ctx core n)).pend = (s.ctx (.ctx core n)).pend)) ∧
      (∃ t, exec .rsvFillfwWrite s = .next t ∧ (t.col col).fillfw = some (bits v 31 0) ∧ (t.col col).fill = (s.col col).fill ∧ QuietMemory s t) ∧
      (let base := bits v 8 0
       let sprint := bits v 24 16
       let good := 300 ≤ base ∧ base ≤ 350 ∧ base % 5 = 0 ∧ base + 5 ≤ sprint ∧ sprint ≤ 480 ∧ sprint % 5 = 0
       (good → ∃ t, exec .vfReqWrite s = .next t ∧ (t.col col).vfReq = BitVec.ofNat 64 (sprint * 2 ^ 16 + base) ∧ (t.col col).vfDeny = (s.col col).vfDeny ∧ QuietMemory s t ∧
         (t.col col).base = (s.col col).base ∧
         ((s.col col).move = none → (t.col col).base ≠ t.baseAim col →
           (t.col col).move = some { aim := t.baseAim col, phase := if (t.col col).base.1 < t.baseSupply col then 0 else 1 })) ∧
       (¬ good → ∃ t, exec .vfReqWrite s = .next t ∧ (t.col col).vfReq = (s.col col).vfReq ∧ (t.col col).vfDeny = true ∧ QuietMemory s t)))

/-- R444, R451: the sensors and the power are sampled at the multiples of 10,000 ns. With the power above PA.HIGH the arbiter lowers its scale, or, at 0, raises the throttle level of every
column of a partition; below PA.LOW it lowers the levels, or raises the scale; otherwise it does nothing. -/
def Sys2Proof.Claims.PowerSamples : Prop :=
  ∀ (s : State),
    (∃ t, exec .sensorSample s = .next t ∧ t.sampled ≠ none ∧ t.shown = s.shown ∧ (s.arg 0 + 10000, ⟨.sensorSample, [s.arg 0 + 10000]⟩) ∈ t.agenda) ∧
    (∃ t, exec .arbiterSample s = .next t ∧ (s.arg 0 + 10000, ⟨.arbiterSample, [s.arg 0 + 10000]⟩) ∈ t.agenda ∧ QuietMemory s t ∧
      let p := t.power.power
      let w := s.power
      (w.high < p → 0 < w.scale → t.power.scale = w.scale - w.step ∧ (∀ c, (t.col c).thrArb = (s.col c).thrArb) ∧
        (w.scale ≤ w.step → s.iluet.live = true → has t.iluet.pend 0x31 = true ∧ look 0 t.iluet.pend 0x31 = 2)) ∧
      (w.high < p → w.scale = 0 → t.power.scale = 0 ∧ ∀ c, c < 512 → (t.col c).thrArb = if (s.partOfCol c).isSome then min 15 ((s.col c).thrArb + 1) else (s.col c).thrArb) ∧
      (p ≤ w.high → p < w.low → (s.cols.map (·.1)).Nodup → (∃ c, 0 < (s.col c).thrArb) → t.power.scale = w.scale ∧ ∀ c, (t.col c).thrArb = (s.col c).thrArb - 1) ∧
      (p ≤ w.high → p < w.low → (∀ e ∈ s.cols, e.2.thrArb = 0) → w.scale < 256 → t.power.scale = min 256 (w.scale + w.step) ∧ ∀ c, (t.col c).thrArb = (s.col c).thrArb) ∧
      (w.low ≤ p → p ≤ w.high → t.power.scale = w.scale ∧ ∀ c, (t.col c).thrArb = (s.col c).thrArb))

/-- R276, R452: the pin, held for 100 ns, or the current sense asserts the fast throttle: CURRENT is raised, the division of the clocks is asked for within 500 ns, and its end once both have
been clear for the release delay. -/
def Sys2Proof.Claims.FastThrottle : Prop :=
  ∀ (s : State),
    (∀ ns, s.args = [ns] → ns < 100 → exec .fthrNAssert s = .next s) ∧
    (∀ ns, s.args = [ns] → 100 ≤ ns →
      ∃ t, exec .fthrNAssert s = .next t ∧ t.power.pin = true ∧ t.power.lpin = true ∧ t.power.sense = s.power.sense ∧ (s.time + ns, ⟨.fastThrottleRelease, []⟩) ∈ t.agenda ∧
        (s.power.act = false → ∃ u, s.time ≤ u ∧ u ≤ s.time + 500 ∧ (u, ⟨.ratioSwitch, [2, 1, 0]⟩) ∈ t.agenda) ∧ (s.iluet.live = true → look 0 t.iluet.pend 0x31 = 1 ∧ has t.iluet.pend 0x31 = true)) ∧
    (∀ ns, s.args = [ns] →
      ∃ t, exec .currentSenseAssert s = .next t ∧ t.power.sense = true ∧ t.power.lsense = true ∧ t.power.pin = s.power.pin ∧ (s.time + ns, ⟨.fastThrottleRelease, []⟩) ∈ t.agenda ∧
        (s.power.act = false → ∃ u, s.time ≤ u ∧ u ≤ s.time + 500 ∧ (u, ⟨.ratioSwitch, [2, 1, 0]⟩) ∈ t.agenda) ∧ (s.iluet.live = true → look 1 t.iluet.pend 0x31 = 0)) ∧
    (s.power.pin = true → s.power.sense = false → s.power.pinEnd ≤ s.time → 1 ≤ s.power.hold →
      ∃ t, exec .fastThrottleRelease s = .next t ∧ t.power.pin = false ∧ t.power.act = s.power.act ∧ (s.time + 1000 * s.power.hold, ⟨.fastThrottleRelease, []⟩) ∈ t.agenda) ∧
    (s.power.pin = false → s.power.sense = false → s.power.act = true → 1 ≤ s.power.hold → s.power.clearAt + 1000 * s.power.hold ≤ s.time →
      ∃ t, exec .fastThrottleRelease s = .next t ∧ (s.time, ⟨.ratioSwitch, [2, 0, 0]⟩) ∈ t.agenda)

/-- R453: a step moves `time` forward by a positive count while it is not locked, and not otherwise. -/
def Sys2Proof.Claims.TimeSteps : Prop :=
  ∀ (s : State) (ag v : Nat), s.args = [ag, v] →
    (s.tm.ctl.getLsbD 0 = false → v < 2 ^ 63 → ∃ t, exec .tmStep s = .next t ∧ t.time = s.time + v ∧ QuietMemory s t) ∧
    (v < 2 ^ 64 → s.tm.ctl.getLsbD 0 = true ∨ 2 ^ 63 ≤ v → exec .tmStep s = .next s)

/-- R454, R476: a timing message of another domain, or of a port that is not enabled, does nothing. A follower takes a Sync and its Follow_Up: the offset is the receive time less the time in
the Follow_Up and the path delay, and lock sets after 16 offsets within 10 ns and clears at one above 100 ns; the answer to its delay request gives the path delay. A grandmaster answers
delay requests, and sends Sync and Follow_Up through its ports. The numbers of the messages and what each of them holds are those of IEEE 1588 (log 74). -/
def Sys2Proof.Claims.TimingMessages : Prop :=
  ∀ (s : State),
    let c := s.tm.ctl.toNat
    (∀ port dom type id stamp, s.args = [0, port, dom, type, id, stamp] → port < 18 →
      let x := timePort s port
      let sends (t : State) (type' stamp' : Nat) : Prop := t.outbox = s.outbox ++ [(0x3000 + port, [type', dom, id, stamp'])]
      (bit c (32 + port) = false ∨ bits c 15 8 ≠ dom → exec .timingMessage s = .next s) ∧
      (bit c (32 + port) = true → bits c 15 8 = dom →
        (bits c 2 1 = 1 → type = 0 → ∃ t, exec .timingMessage s = .next t ∧ timePort t port = { x with sync := some (id, s.time) } ∧ t.tm.ofs = s.tm.ofs ∧ t.time = s.time) ∧
        (∀ t2, bits c 2 1 = 1 → type = 8 → x.sync = some (id, t2) →
          let ofs : Int := (t2 : Int) - stampNs stamp - x.delay
          ∃ t, exec .timingMessage s = .next t ∧ t.time = s.time ∧ t.tm.ofs = BitVec.ofInt 64 ofs ∧ (-200000 ≤ t.tm.rate.toInt ∧ t.tm.rate.toInt ≤ 200000) ∧
            timePort t port = { x with sync := none, last := some (stampNs stamp, t2) } ∧
            (ofs.natAbs ≤ 10 → 15 ≤ s.tm.good → t.tm.ctl.getLsbD 0 = true) ∧ (100 < ofs.natAbs → t.tm.ctl.getLsbD 0 = false) ∧
            (10 < ofs.natAbs → ofs.natAbs ≤ 100 → t.tm.ctl.getLsbD 0 = s.tm.ctl.getLsbD 0 ∧ t.tm.good = 0) ∧
            (ofs.natAbs ≤ 10 → s.tm.good < 15 → t.tm.ctl.getLsbD 0 = s.tm.ctl.getLsbD 0 ∧ t.tm.good = s.tm.good + 1)) ∧
        (∀ t1 t2 t3, bits c 2 1 = 1 → type = 9 → x.asked = some (id, t3) → x.last = some (t1, t2) →
          ∃ t, exec .timingMessage s = .next t ∧ timePort t port = { x with asked := none, delay := (((t2 : Int) - t1) + ((stampNs stamp : Int) - t3)) / 2 } ∧ t.tm.ofs = s.tm.ofs) ∧
        (∀ t1, type = 3 → x.peerAsked = some (id, t1) →
          ∃ t, exec .timingMessage s = .next t ∧ timePort t port = { x with peerResp := some (id, stampNs stamp, s.time) } ∧ t.tm.ofs = s.tm.ofs) ∧
        (∀ t1 t2 t4, type = 10 → x.peerAsked = some (id, t1) → x.peerResp = some (id, t2, t4) →
          ∃ t, exec .timingMessage s = .next t ∧ t.tm.ofs = s.tm.ofs ∧
            timePort t port = { x with peerAsked := none, peerResp := none, delay := (((t4 : Int) - t1) - ((stampNs stamp : Int) - t2)) / 2 }) ∧
        (bits c 2 1 = 2 → type = 1 → ∃ t, exec .timingMessage s = .next t ∧ sends t 9 (stampOf s.time)) ∧
        (type = 2 → ∃ t, exec .timingMessage s = .next t ∧
          t.outbox = s.outbox ++ [(0x3000 + port, [3, dom, id, stampOf s.time]), (0x3000 + port, [10, dom, id, stampOf s.time])]))) ∧
    (∀ port, s.args = [1] → port < 18 → (∀ q, q < 18 → (bit c (32 + q) = true ↔ q = port)) →
      (bits c 2 1 = 2 → ∃ t, exec .timingMessage s = .next t ∧ t.tm.id = (s.tm.id + 1) % 2 ^ 16 ∧
        t.outbox = s.outbox ++ [(0x3000 + port, [0, bits c 15 8, s.tm.id, 0]), (0x3000 + port, [8, bits c 15 8, s.tm.id, stampOf s.time])]) ∧
      (bits c 2 1 = 1 → ∃ t, exec .timingMessage s = .next t ∧
        (t.outbox = s.outbox ++ [(0x3000 + port, [1, bits c 15 8, s.tm.id, 0])] ∧ (timePort t port).asked = some (s.tm.id, s.time) ∨
         t.outbox = s.outbox ++ [(0x3000 + port, [2, bits c 15 8, s.tm.id, 0])] ∧ (timePort t port).peerAsked = some (s.tm.id, s.time))) ∧
      (bits c 2 1 = 0 → ∃ t, exec .timingMessage s = .next t ∧ t.outbox = s.outbox))

/-- R457: a slack figure of a peer is kept as its latest; at the end of a window with slack below the band for the third time, 100 µs after the last rise and with room in every column, the
offset rises; above the band for the fifth time it falls; a window without a figure clears both counts. That room is asked of all 512 columns, and that the offset and
the count stay without it, is the model's reading (log 36), and so is it that the counts stop at 15, the width of their fields. -/
def Sys2Proof.Claims.SlackControl : Prop :=
  ∀ (s : State),
    (∀ peer w, s.args = [peer, w] → ∃ t, exec .slackFigure s = .next t ∧ look 0 t.power.figures peer = w ∧ t.power.fresh = true ∧ t.power.k = s.power.k ∧ QuietMemory s t) ∧
    (let p := s.power
     let rest := if s.slackWaiter then min p.waited (s.time - s.arg 0) else 0
     let w := min (p.waited - rest) 10000
     let low := toSigned 32 (bits p.csBand.toNat 31 0)
     let high := toSigned 32 (bits p.csBand.toNat 63 32)
     p.csCtl.getLsbD 0 = true → low < high →
     ∃ t, exec .slackWindow s = .next t ∧ t.power.wait = w ∧ t.power.waited = rest ∧ (s.arg 0 + 10000, ⟨.slackWindow, [s.arg 0 + 10000]⟩) ∈ t.agenda ∧
      (∀ l, l < 16 → bit p.csCtl.toNat (16 + l) = true → (0x2000 + l, [w]) ∈ t.outbox) ∧
      (p.fresh = false → t.power.nl = 0 ∧ t.power.nh = 0 ∧ t.power.k = p.k) ∧
      (∀ peer f, p.fresh = true → p.figures = [(peer, f)] →
        let slack : Int := (f : Int) - w
        let room := ∀ c, c < 512 → 300 + 25 * (p.k + 1) ≤ bits (s.col c).vfReq.toNat 8 0
        let rested := p.raisedAt = none ∨ ∃ u, p.raisedAt = some u ∧ u + 100000 ≤ s.time
        (slack < low → 2 ≤ p.nl → rested → room → t.power.k = p.k + 1 ∧ t.power.nl = 0 ∧ t.power.raisedAt = some s.time) ∧
        (slack < low → p.nl < 2 ∨ ¬ rested ∨ ¬ room → t.power.k = p.k ∧ t.power.nl = min 15 (p.nl + 1) ∧ t.power.nh = 0) ∧
        (high < slack → 4 ≤ p.nh → 0 < p.k → t.power.k = p.k - 1 ∧ t.power.nh = 0) ∧
        (high < slack → p.nh < 4 ∨ p.k = 0 → t.power.k = p.k ∧ t.power.nh = min 15 (p.nh + 1) ∧ t.power.nl = 0) ∧
        (low ≤ slack → slack ≤ high → t.power.k = p.k ∧ t.power.nl = 0 ∧ t.power.nh = 0)))

/-- R13, R245, R280, R287, R439 to R457: operating points, samples, the fast throttle, time and slack control. -/
def Obligations.PowerAndTime : Prop := Claims.NominalPoints ∧ Claims.PointChanges ∧ Claims.OperatingPoints ∧ Claims.PowerSamples ∧ Claims.FastThrottle ∧ Claims.TimeSteps ∧ Claims.TimingMessages ∧ Claims.SlackControl


/-! ## Equivalence engine -/

namespace Sys2Proof.Claims

open Sys2Proof Sys2Proof.Machine

/-- EQ with a code and the register field concerned (R303). -/
def eqCode (code field : Nat) : Trap := { cause := 0x0E, info := BitVec.ofNat 64 (code * 2 ^ 8 + field) }

/-- An array entry of `n` bytes that the engine of element `i` reads at an address: where it stands in memory, in no page that is held for a move (R398), and its value (R300, R301, R318). -/
def Entry (s : State) (f : Forest) (i va n key v : Nat) : Prop :=
  (∃ slice tag, s.eqAt f i va n = .ok (.mem slice tag key)) ∧ s.value key n = v ∧ s.bad (key / 64) = false ∧ s.pageHeld va = false

/-- Where the entries of a forest stand (R300, R314). -/
def parentOf (f : Forest) (i : Nat) : Nat := (f.pbase + 4 * i) % 2 ^ 64
def sizeOf_ (f : Forest) (i : Nat) : Nat := (f.sbase + 4 * i) % 2 ^ 64
def logOf (f : Forest) (i : Nat) : Nat := (f.lbase + 8 * i) % 2 ^ 64

/-- Element `x` is the root `r`, or its parent is: Find gives r, and a walk that compresses has nothing to write (R307). -/
def Shallow (s : State) (f : Forest) (x r : Nat) : Prop :=
  x < f.n ∧ r < f.n ∧ (f.bySize = false → r ≤ x) ∧ (∃ k, Entry s f x (parentOf f x) 4 k r) ∧ ∃ k, Entry s f r (parentOf f r) 4 k r

/-- The granule writes of the engines, one after another, each of an element: every address is met and written where it stands; `ks` is where they stood (R317). -/
def Stored (ag : Agent) (f : Forest) : State → List (Nat × Nat × Nat × Nat) → List (Nat × Nat × Nat) → Prop
  | _, [], ks => ks = []
  | s, (i, va, n, v) :: l, ks => ∃ slice tag key rest, ks = (key, n, v) :: rest ∧ s.eqAt f i va n = .ok (.mem slice tag key) ∧ s.pageHeld va = false ∧
      Stored ag f (s.devWrite (some ag) (.mem slice tag key) va (leBytes n v)) l rest

/-- Bytes after some writes of `n` little-endian bytes of `v` at `key`. -/
def written (b : Nat → Byte) : List (Nat × Nat × Nat) → Nat → Byte
  | [] => b
  | (key, n, v) :: l => written (fun k => if key ≤ k ∧ k < key + n then BitVec.ofNat 8 (v / 2 ^ (8 * (k - key))) else b k) l

/-- An address that the engine of element `i` may write in a state, in no page that is held for a move. -/
def Writable (s : State) (f : Forest) (i va n : Nat) : Prop := s.pageHeld va = false ∧ ∃ slice tag key, s.eqAt f i va n = .ok (.mem slice tag key)

/-- A context between two chunks whose partition has forest `f` open under handle `h`, while no chunk runs, none has priority, and no bank-side operation is under way. -/
structure OpenForest (s : State) (core n p h : Nat) (f : Forest) : Prop extends Between s core n where
  part : s.partOf (.ctx core n) = some p
  forest : s.forest? p h = some f
  handle : h < 16
  size : f.n ≤ 2 ^ 31
  chunks : NoChunks s
  token : s.tokenHolder = none
  bank : NoBankOps s

/-- The reductions: the number of the operation. -/
def reduceForm : Instr → Option (Nat × Nat × Nat × Nat)
  | .eqreduceAddF32 d a b => some (1, d, a, b)
  | .eqreduceMinF32 d a b => some (2, d, a, b)
  | .eqreduceMaxF32 d a b => some (3, d, a, b)
  | .eqreduceAddI32 d a b => some (4, d, a, b)
  | .eqreduceMinI32 d a b => some (5, d, a, b)
  | .eqreduceMaxI32 d a b => some (6, d, a, b)
  | _ => none

/-- What a class of values combines to (R59, R312). That the NaN of a class of one element is made canonical like the result of any operation is R59; that it raises no
flag there is the model's choice (log 70). -/
def ClassResult (kind : Nat) (vs : List Nat) (z : Nat) : Prop :=
  (∀ v, kind ≤ 3 → vs = [v] → z = if (fp32.decode v).isNan then 0x7FC00000 else v) ∧
  (kind = 1 → 1 < vs.length → z = vs.tail.foldl (fun x y => (fp32.addOp (fp32.decode x) (fp32.decode y)).1) (vs.headD 0)) ∧
  (kind = 2 → 1 < vs.length → z = vs.tail.foldl (fun x y => (fp32.minMax false x y).1) (vs.headD 0)) ∧
  (kind = 3 → 1 < vs.length → z = vs.tail.foldl (fun x y => (fp32.minMax true x y).1) (vs.headD 0)) ∧
  (kind = 4 → z = (BitVec.ofInt 32 (max (-(2 ^ 31)) (min (2 ^ 31 - 1) (vs.map (toSigned 32)).sum))).toNat) ∧
  (kind = 5 → z ∈ vs ∧ ∀ v ∈ vs, toSigned 32 z ≤ toSigned 32 v) ∧
  (kind = 6 → z ∈ vs ∧ ∀ v ∈ vs, toSigned 32 v ≤ toSigned 32 z)

/-- The instructions whose S(a) is a handle word, or an element word. -/
def handleForm : Instr → Option Nat
  | .eqclose _ a | .eqcount _ a | .eqsnap _ a | .equndo _ a | .eqkeep _ a => some a
  | _ => none
def elementForm : Instr → Option Nat
  | .eqfind _ a | .eqsize _ a => some a
  | _ => none

end Sys2Proof.Claims

open Sys2Proof Sys2Proof.Machine Sys2Proof.Claims

/-- R299, R303: on a core of no partition every handle and element word raises EQ code 1. On one of a partition a must-be-zero bit of a handle or element word raises EQ code 4, a handle that is not open in the partition code 1, an index at or above n
code 2; each names the register field. -/
def Sys2Proof.Claims.ForestTraps : Prop :=
  ∀ (i : Instr) (a : Nat), i.WF → ∀ (s : State) (core n : Nat), Between s core n → Present s core n [a] →
    let ag := Agent.ctx core n
    let w := ((s.regs ag).S a).toNat
    let closed (h : Nat) : Prop := ∃ p, s.partOf ag = some p ∧ s.forest? p h = none
    (handleForm i = some a ∨ elementForm i = some a → s.partOf ag = none → exec i s = .next (s.takeTrap ag (eqCode 1 a))) ∧
    (handleForm i = some a → (s.partOf ag).isSome = true →
      (16 ≤ w → exec i s = .next (s.takeTrap ag (eqCode 4 a))) ∧ (w < 16 → closed w → exec i s = .next (s.takeTrap ag (eqCode 1 a)))) ∧
    (elementForm i = some a → (s.partOf ag).isSome = true →
      (2 ^ 36 ≤ w ∨ bit w 31 = true → exec i s = .next (s.takeTrap ag (eqCode 4 a))) ∧
      (w < 2 ^ 36 → bit w 31 = false → closed (bits w 35 32) → exec i s = .next (s.takeTrap ag (eqCode 1 a))) ∧
      (∀ p f, w < 2 ^ 36 → bit w 31 = false → s.partOf ag = some p → s.forest? p (bits w 35 32) = some f → f.n ≤ bits w 30 0 →
        exec i s = .next (s.takeTrap ag (eqCode 2 a))))

/-- R307, R309: EQFIND answers the root, and writes nothing where the element is the root or its child; on a longer walk it halves, unless the log is active;
a parent at or above n raises EQ code 5. EQSIZE answers the size entry of the root, EQCOUNT the count. -/
def Sys2Proof.Claims.Finds : Prop :=
  ∀ (s : State) (core n p h : Nat) (f : Forest), OpenForest s core n p h f →
    ∀ (d a x : Nat), d < 32 → a < 32 → Present s core n [a] → x < f.n →
      let ag := Agent.ctx core n
      let r := s.regs ag
      let s1 := s.entered ag (some 6)
      (r.S a = BitVec.ofNat 64 (h * 2 ^ 32 + x) →
        (∀ root, Shallow s1 f x root → ∃ t, exec (.eqfind d a) s = .next t ∧ t.regs ag = (r.setS d (BitVec.ofNat 64 root)).next 4 ∧ OnlyContext s t ag) ∧
        (∀ root k z, Shallow s1 f x root → Entry s1 f root (sizeOf_ f root) 4 k z →
          ∃ t, exec (.eqsize d a) s = .next t ∧ t.regs ag = (r.setS d (BitVec.ofNat 64 z)).next 4 ∧ OnlyContext s t ag) ∧
        (∀ q g kx kq, Entry s1 f x (parentOf f x) 4 kx q → Entry s1 f q (parentOf f q) 4 kq g → x ≠ q → q ≠ g → q < f.n → g < f.n → (f.bySize = false → q ≤ x ∧ g ≤ q) →
          (∀ k, f.log = true → Entry s1 f g (parentOf f g) 4 k g →
            ∃ t, exec (.eqfind d a) s = .next t ∧ t.regs ag = (r.setS d (BitVec.ofNat 64 g)).next 4 ∧ OnlyContext s t ag) ∧
          (∀ sl tg k, f.log = false → s1.eqAt f x (parentOf f x) 4 = .ok (.mem sl tg kx) →
            Entry (s1.devWrite (some ag) (.mem sl tg kx) (parentOf f x) (leBytes 4 g)) f g (parentOf f g) 4 k g →
            ∃ t, exec (.eqfind d a) s = .next t ∧ t.regs ag = (r.setS d (BitVec.ofNat 64 g)).next 4 ∧ ∀ k, t.byte k = storedByte s kx 4 g k)) ∧
        (∀ q k, Entry s1 f x (parentOf f x) 4 k q → f.n ≤ q → q ≠ x → exec (.eqfind d a) s = .next (s1.takeTrap ag (eqCode 5 a)))) ∧
      (r.S a = BitVec.ofNat 64 h → ∃ t, exec (.eqcount d a) s = .next t ∧ t.regs ag = (r.setS d (BitVec.ofNat 64 f.count)).next 4 ∧ OnlyContext s t ag)

/-- R308, R314, R316: EQUNITE answers the common root; with two roots it refuses with bit 62 where the log has no room for two entries, and else merges: under
MIN the smaller root wins, under SIZE that of the larger class; the log entries first, then the parent of the other root, the size, and the count. -/
def Sys2Proof.Claims.Unions : Prop :=
  ∀ (s : State) (core n p h : Nat) (f : Forest), OpenForest s core n p h f →
    ∀ (d a b x y ra rb : Nat), d < 32 → a < 32 → b < 32 → Present s core n [a, b] →
      let ag := Agent.ctx core n
      let r := s.regs ag
      let s1 := s.entered ag (some 6)
      r.S a = BitVec.ofNat 64 (h * 2 ^ 32 + x) → r.S b = BitVec.ofNat 64 (h * 2 ^ 32 + y) → Shallow s1 f x ra → Shallow s1 f y rb →
      (ra = rb → ∃ t, exec (.equnite d a b) s = .next t ∧ t.regs ag = (r.setS d (BitVec.ofNat 64 ra)).next 4 ∧ OnlyContext s t ag ∧ t.forest? p h = some f) ∧
      (ra ≠ rb → f.log = true → f.lsize < f.used + 2 →
        ∃ t, exec (.equnite d a b) s = .next t ∧ t.regs ag = (r.setS d (BitVec.ofNat 64 (2 ^ 62 + ra))).next 4 ∧ OnlyContext s t ag ∧ t.forest? p h = some f) ∧
      (∀ ka za kb zb ks, ra ≠ rb → (f.log = true → f.used + 2 ≤ f.lsize) → Entry s1 f ra (sizeOf_ f ra) 4 ka za → Entry s1 f rb (sizeOf_ f rb) 4 kb zb → za + zb < 2 ^ 32 →
        let w := if f.bySize = true ∧ za ≠ zb then (if zb < za then ra else rb) else min ra rb
        let l := if w = ra then rb else ra
        let writes := (if f.log = true then [(l, logOf f f.used, 8, l * 2 ^ 32 + l), (w, logOf f (f.used + 1), 8, 2 ^ 63 + w * 2 ^ 32 + (if w = ra then za else zb))] else []) ++
          [(l, parentOf f l, 4, w), (w, sizeOf_ f w, 4, za + zb)]
        (∀ e ∈ writes, Writable s1 f e.1 e.2.1 e.2.2.1) → Stored ag f s1 writes ks →
        ∃ t, exec (.equnite d a b) s = .next t ∧ t.regs ag = (r.setS d (BitVec.ofNat 64 (2 ^ 63 + w))).next 4 ∧ (∀ k, t.byte k = written s.byte ks k) ∧
          t.forest? p h = some { f with count := f.count - 1, used := if f.log = true then f.used + 2 else f.used })

/-- R306, R315: EQCLOSE closes the handle, whose count then reads 0. EQSNAP, EQUNDO and EQKEEP answer their statuses; EQUNDO of one merge writes the size and then
the parent that its two log entries hold, and restores the count. -/
def Sys2Proof.Claims.ForestLogs : Prop :=
  ∀ (s : State) (core n p h : Nat) (f : Forest), OpenForest s core n p h f →
    ∀ (d a : Nat), d < 32 → a < 32 → Present s core n [a] →
      let ag := Agent.ctx core n
      let r := s.regs ag
      let s1 := s.entered ag (some 14)
      let done (i : Instr) (v : Nat) (g : Option Forest) : Prop :=
        ∃ t, exec i s = .next t ∧ t.regs ag = (r.setS d (BitVec.ofNat 64 v)).next 4 ∧ OnlyContext s t ag ∧ t.forest? p h = g
      r.S a = BitVec.ofNat 64 h →
      (∃ t, exec (.eqclose d a) s = .next t ∧ t.regs ag = (r.setS d 0).next 4 ∧ OnlyContext s t ag ∧ t.forest? p h = none ∧ look 0 (t.part p).eqCount h = 0) ∧
      (f.lsize = 0 → done (.eqsnap d a) 4 (some f)) ∧
      (f.lsize ≠ 0 → f.log = true → done (.eqsnap d a) 3 (some f)) ∧
      (f.lsize ≠ 0 → f.log = false → done (.eqsnap d a) 0 (some { f with log := true, used := 0, saved := f.count })) ∧
      (f.log = false → done (.eqkeep d a) 2 (some f)) ∧
      (f.log = true → done (.eqkeep d a) 0 (some { f with log := false, used := 0 })) ∧
      (f.log = false → done (.equndo d a) 2 (some f)) ∧
      (f.log = true → f.used = 0 → done (.equndo d a) 0 (some { f with log := false, used := 0, count := f.saved })) ∧
      (∀ k0 k1 l old w z ks, f.log = true → f.used = 2 → l < 2 ^ 31 → w < 2 ^ 31 → old < 2 ^ 32 → z < 2 ^ 32 →
        Entry s1 f 0 (logOf f 0) 8 k0 (l * 2 ^ 32 + old) → Entry s1 f 0 (logOf f 1) 8 k1 (2 ^ 63 + w * 2 ^ 32 + z) →
        Writable s1 f w (sizeOf_ f w) 4 → Writable s1 f l (parentOf f l) 4 → Stored ag f s1 [(w, sizeOf_ f w, 4, z), (l, parentOf f l, 4, old)] ks →
        ∃ t, exec (.equndo d a) s = .next t ∧ t.regs ag = (r.setS d (BitVec.ofNat 64 (2 ^ 32))).next 4 ∧ (∀ k, t.byte k = written s.byte ks k) ∧
          t.forest? p h = some { f with log := false, used := 0, count := f.saved })

/-- R300, R305: EQOPEN. A descriptor that breaks R300 raises EQ code 3. One whose arrays pass the checks, lie in the DRAM of one stack and meet nothing opens the
lowest closed handle: with init every parent(i) := i and size(i) := 1 and the count is n; without, nothing is written and the count is that of the roots. With all
16 handles open S(d) is all ones. -/
def Sys2Proof.Claims.ForestOpens : Prop :=
  ∀ (s : State) (core n d a p off : Nat), Between s core n → Present s core n [a] → d < 32 → a < 32 →
    NoChunks s → s.tokenHolder = none → NoBankOps s → s.partOf (.ctx core n) = some p →
    let ag := Agent.ctx core n
    let r := s.regs ag
    let va := (r.S a).toNat
    let s1 := s.entered ag (some 14)
    let D := s.value (scratchKey core off) 40
    (va % 8 ≠ 0 → exec (.eqopen d a) s = .next (s.takeTrap ag { cause := 0x03, info := r.S a, addr := true })) ∧
    (va % 8 = 0 → OwnBytes s1 core n va 40 off rdR →
      (bits D 159 128 = 0 ∨ 2 ^ 31 < bits D 159 128 ∨ bits D 7 0 ≠ 0 ∨ bits D 161 160 ≥ 2 ∨ bits D 319 288 ≠ 0 →
        exec (.eqopen d a) s = .next (s.takeTrap ag (eqCode 3 a))) ∧
      (∀ s2 bs k f init rs stack sl tg key, s1.loadRun ag 0 (.scratch core off) va 40 = .ok (s2, bs, k) → descriptor D = some (f, init) → f.ranges.mapM (s2.eqRange ag) = .ok rs → (∀ x ∈ rs, x.2 = true ∧ ∀ st ∈ x.1, st = stack) →
        s2.eqAt { f with stack := stack } 0 f.pbase 4 = .ok (.mem sl tg key) → pairsOverlap f.ranges = false → (∀ q ∈ f.ranges, ∀ e ∈ s.forests, e.1 / 16 = p → ∀ o ∈ e.2.ranges, overlap q o = false) →
        let f' := { f with stack := sl / 64 }
        ((∀ h, h < 16 → (s.forest? p h).isSome = true) →
          ∃ t, exec (.eqopen d a) s = .next t ∧ t.regs ag = (r.setS d (BitVec.allOnes 64)).next 4 ∧ (∀ k, t.byte k = s.byte k) ∧ t.forests = s.forests) ∧
        (∀ h, h < 16 → s.forest? p h = none → (∀ j, j < h → (s.forest? p j).isSome = true) →
          (∀ ks, init = true → Stored ag f' s2 ((List.range f.n).flatMap (fun i => [(i, parentOf f i, 4, i), (i, sizeOf_ f i, 4, 1)])) ks →
            ∃ t, exec (.eqopen d a) s = .next t ∧ t.regs ag = (r.setS d (BitVec.ofNat 64 h)).next 4 ∧ (∀ k, t.byte k = written s.byte ks k) ∧
              t.forest? p h = some { f' with count := f.n } ∧ look 0 (t.part p).eqCount h = f.n) ∧
          (∀ root : Nat → Nat, init = false → (∀ i, i < f.n → Shallow s2 f' i (root i)) →
            ∃ t, exec (.eqopen d a) s = .next t ∧ t.regs ag = (r.setS d (BitVec.ofNat 64 h)).next 4 ∧ (∀ k, t.byte k = s.byte k) ∧
              t.forest? p h = some { f' with count := ((List.range f.n).filter (fun i => root i = i)).length }))))

/-- R310 to R313: EQLABEL and EQREDUCE reserve an inbox entry; neither writes anything as it is issued. That they take the classes as they stand at issue is the model's choice (log 43). -/
def Sys2Proof.Claims.ForestWideIssue : Prop :=
  ∀ (s : State) (core n p h : Nat) (f : Forest), OpenForest s core n p h f →
    ∀ (d a b tag : Nat) (roots : List Nat), d < 32 → a < 32 → b < 32 → Present s core n [d, a, b] → roomy s core → tag < 2 ^ 16 →
      let ag := Agent.ctx core n
      let r := s.regs ag
      let s1 := s.entered ag (some 14)
      let issued (i : Instr) (kind y : Nat) : Prop :=
        ∃ t m, exec i s = .next t ∧ t.regs ag = r.next 4 ∧ (t.core core).reserved = (s.core core).reserved + 1 ∧ t.flight = s.flight ++ [(s.nextMsg, m)] ∧
          m.ev = ⟨.eqAsyncCompletion, [s.nextMsg]⟩ ∧ QuietMemory s t ∧
          m.words = [kind, 16 * p + h, core, n, r.dom.toNat, tag, (r.S a).toNat, y, 0, 2 ^ 32 - 1, 0, 0, 0] ++ roots
      r.S d = BitVec.ofNat 64 (tag * 2 ^ 32 + h) → (r.S a).toNat % 4 = 0 →
      (∀ first cnt, r.S b = BitVec.ofNat 64 (cnt * 2 ^ 32 + first) → first < f.n → cnt < 2 ^ 31 → first + cnt ≤ f.n →
        roots.length = (if cnt = 0 then f.n - first else cnt) → (∀ i, i < roots.length → Shallow s1 f (first + i) (roots.getD i 0)) → issued (.eqlabel d a b) 0 first) ∧
      (∀ i kind, reduceForm i = some (kind, d, a, b) → (r.S b).toNat % 4 = 0 → roots.length = f.n → (∀ i, i < roots.length → Shallow s1 f i (roots.getD i 0)) →
        issued i kind (r.S b).toNat) ∧
      ((r.S b).toNat % 4 ≠ 0 → ∀ i kind, reduceForm i = some (kind, d, a, b) → exec i s = .next (s.takeTrap ag { cause := 0x03, info := r.S b, addr := true }))

/-- R311 to R313: what is under way writes the labels and the class results, one granule after another: the root of an element as its label; the values of a class combined at the
place of its root; nothing for any other element. An access that fails its checks writes nothing and is noted with its element; after the last the reserved inbox
entry takes the completion. That one granule is written in each step is the model's choice (log 43), and so is it that a class of one element raises no flag (log 70). -/
def Sys2Proof.Claims.ForestWideWork : Prop :=
  ∀ (s : State) (id p h core n dom tag x y i low cause code fl kind : Nat) (m : Msg) (roots : List Nat), s.args = [id] → s.msg? id = some m →
    m.words = [kind, 16 * p + h, core, n, dom, tag, x, y, i, low, cause, code, fl] ++ roots → core < 100352 → n < 4 → h < 16 → s.tokenHolder = none → NoChunks s → NoBankOps s →
    let onward (t : State) (w : List Nat) : Prop := ∃ m', t.msg? id = some m' ∧ m'.words = w.set 8 (i + 1)
    (roots.length ≤ i → cause < 256 → tag < 2 ^ 16 → low < 2 ^ 32 → code < 256 → fl < 64 →
      ∃ t, exec .eqAsyncCompletion s = .next t ∧ t.msg? id = none ∧ QuietMemory s t ∧ (t.core core).inbox = (s.core core).inbox ++
        [⟨n, headerWord 4 cause tag 0 n core, BitVec.ofNat 64 (low * 2 ^ 32 + fl * 2 ^ 24 + (if kind = 0 then 0 else 1) * 2 ^ 16 + code * 2 ^ 8 + h)⟩]) ∧
    (∀ r, kind = 0 → roots[i]? = some r → r < 2 ^ 32 →
      let va := (x + 4 * (y + i)) % 2 ^ 64
      (∀ sl tg key, s.eqTarget core dom va { w := true, e := true } = .ok (.mem sl tg key) → s.pageHeld va = false →
        ∃ t, exec .eqAsyncCompletion s = .next t ∧ onward t m.words ∧ ∀ k, t.byte k = storedByte s key 4 r k) ∧
      (∀ tr, s.eqTarget core dom va { w := true, e := true } = .error tr → low = 2 ^ 32 - 1 →
        ∃ t, exec .eqAsyncCompletion s = .next t ∧ onward t (((m.words.set 9 (y + i)).set 10 tr.cause).set 11 0) ∧ QuietMemory s t)) ∧
    (∀ r, kind ≠ 0 → roots[i]? = some r → r < 2 ^ 32 → r ≠ i → ∃ t, exec .eqAsyncCompletion s = .next t ∧ onward t m.words ∧ QuietMemory s t) ∧
    (∀ (at_ : Nat → Nat) sl tg key, 1 ≤ kind → kind ≤ 6 → roots[i]? = some i → i < 2 ^ 32 →
      let mem := (List.range roots.length).filter (fun j => roots.getD j 0 = i)
      (∀ j ∈ mem, (∃ sl tg, s.eqTarget core dom ((x + 4 * j) % 2 ^ 64) { r := true, e := true } = .ok (.mem sl tg (at_ j))) ∧ s.bad (at_ j / 64) = false ∧ s.pageHeld ((x + 4 * j) % 2 ^ 64) = false) →
      s.eqTarget core dom ((y + 4 * i) % 2 ^ 64) { w := true, e := true } = .ok (.mem sl tg key) → s.pageHeld ((y + 4 * i) % 2 ^ 64) = false →
      ∃ t z m', exec .eqAsyncCompletion s = .next t ∧ ClassResult kind (mem.map (fun j => s.value (at_ j) 4)) z ∧ (∀ k, t.byte k = storedByte s key 4 z k) ∧
        t.msg? id = some m' ∧ m'.words.getD 8 0 = i + 1)

/-- R299 to R317: the equivalence engine. -/
def Obligations.EquivalenceEngine : Prop :=
  Claims.ForestTraps ∧ Claims.Finds ∧ Claims.Unions ∧ Claims.ForestLogs ∧ Claims.ForestOpens ∧ Claims.ForestWideIssue ∧ Claims.ForestWideWork

/-! ## Taps and waystation handlers -/

namespace Sys2Proof.Claims

open Sys2Proof Sys2Proof.Machine

/-- TAP.PRE and TAP.POST: the registers of the row address and of the control word, and the position (R341). -/
def tapForm : Instr → Option (Nat × Nat × Nat)
  | .tapPre a b => some (a, b, 0)
  | .tapPost a b => some (a, b, 1)
  | _ => none

/-- The address of row r (R342). -/
def tapRow (sa stride r : Nat) : Nat := (sa + r * stride) % 2 ^ 64

/-- A batch of one row whose bytes lie in core `k` at `off`, as TAP_ACCEPT finds it (R343, R344): nothing holds it up. -/
structure TapBatch (s : State) (core n id no sa c stride x1 batch pc pos k off : Nat) (m : Msg) : Prop where
  args : s.args = [id]
  msg : s.msg? id = some m
  src : m.src = (Agent.ctx core n).code
  words : m.words = [no, pos, sa, c, stride, x1, batch, pc]
  place : core < 100352 ∧ n < 4
  one : bits c 13 8 = 0
  row : resolve (.ctx core n) sa = some k ∧ bits sa 16 0 = off
  chunks : NoChunks s
  token : s.tokenHolder = none
  bank : NoBankOps s
  clear : k = core ∨ ∀ e ∈ s.flight, e.2.chan ≠ chanOf core k
  alive : (s.ctx (.ctx core n)).tapBytes.any (fun t => t.1 = no) = true
  live : (s.ctx (.ctx core n)).live = true
  position : pos < 2 ∧ sa < 2 ^ 64

/-- The completion of a TAP of one row (R348). -/
def TapCompletion (s t : State) (core n status c pos steered : Nat) : Prop :=
  (t.core core).inbox = (s.core core).inbox ++ [⟨n, headerWord 5 status (bits c 47 32) 0 n core,
    BitVec.ofNat 64 (steered * 2 ^ 16 + 2 ^ 8 + pos * 2 ^ 6 + bits c 5 0)⟩]

/-- A handler's waystation as it issues an instruction of its running handler. -/
structure Handling (s : State) (k : Nat) (ev : WsEvent) : Prop where
  cur : s.cur = .ws k
  run : (s.slice k).run = some ev
  ready : (s.ctx (.ws k)).st = .ready
  noChunk : (s.ctx (.ws k)).chunk.run = false
  tpend : (s.regs (.ws k)).tpend = []
  present : ∀ j, j < 32 → (s.regs (.ws k)).present j = true
  infl : (s.ctx (.ws k)).infl = 0
  asked : (s.ctx (.ws k)).asked = none ∧ (s.ctx (.ws k)).reply = none ∧ (s.ctx (.ws k)).got = [] ∧ (s.ctx (.ws k)).waitOn = none
  noInstr : (s.ctx (.ws k)).issued = false ∧ (s.ctx (.ws k)).missed = false ∧ (s.ctx (.ws k)).bankFmt = none

/-- A handler has been aborted with a cause: the waystation is idle, the aborts of its entry step, and a record goes to its domain (R332). -/
def AbortedWith (s t : State) (k : Nat) (ev : WsEvent) (cause : Nat) : Prop :=
  (t.slice k).run = none ∧ (t.ctx (.ws k)).st = .idle ∧
  (bits ((s.slice k).word ev.entry 3) 47 32 < 0xFFFF → (t.slice k).word ev.entry 3 = (s.slice k).word ev.entry 3 + 2 ^ 32) ∧
  (∃ e, t.errs = s.errs ++ [e] ∧ e.dom = ev.dom ∧ e.src = 6 ∧ e.sub = 1 ∧ e.cause = cause ∧ e.pc = (s.regs (.ws k)).pc.toNat ∧ e.w4 = ev.kind * 2 ^ 8 + ev.entry) ∧
  QuietMemory s t

/-- A handler has ended by itself; the next event of the queue is about to start (R330, R338). -/
def EndedItself (s t : State) (k : Nat) : Prop :=
  (t.slice k).run = none ∧ (t.ctx (.ws k)).st = .idle ∧ t.errs = s.errs ∧ (t.slice k).queue = (s.slice k).queue ∧ QuietMemory s t ∧
  ((s.slice k).queue ≠ [] → t.underWay .handlerStart [k] = true)

/-- What WSRD answers for an operand: a word of the descriptor, or 8 bytes of the line as it stood at the event (R333, R334). -/
def eventValue (ev : WsEvent) (x : Nat) : Option Nat :=
  if x = 2 ^ 63 then some (ev.depth * 2 ^ 24 + ev.sectors * 2 ^ 16 + ev.entry * 2 ^ 8 + ev.kind)
  else if x = 2 ^ 63 + 1 then some ev.va
  else if x = 2 ^ 63 + 2 then some ev.req
  else if x = 2 ^ 63 + 3 then some ev.w3.toNat
  else if x = 2 ^ 63 + 4 then some ev.w4.toNat
  else if x < 1024 ∧ x % 8 = 0 ∧ ev.kind ≠ 3 ∧ bit ev.sectors (x / 256) = true ∧ (ev.kind = 2 → ev.holdCopy = true) then some (leNat ((ev.line.drop x).take 8))
  else none

/-- The updates of WSUPD (R336). -/
def updateForm : Instr → Option (Nat × Nat × Nat × (W64 → W64 → W64))
  | .wsupdAdd d a b => some (d, a, b, fun o y => o + y)
  | .wsupdMin d a b => some (d, a, b, fun o y => if y.slt o then y else o)
  | .wsupdMax d a b => some (d, a, b, fun o y => if o.slt y then y else o)
  | .wsupdOr d a b => some (d, a, b, fun o y => o ||| y)
  | _ => none

/-- Whether an entry of a handler table may go live for a writer of a domain (R328). -/
def EntryAllowed (l : Slice) (e dom : Nat) : Prop :=
  let w2 := l.word e 2
  let w3 := l.word e 3
  bits w2 63 48 = dom ∧ bits w3 23 16 ≠ 0 ∧ bits w3 31 24 + bits w3 23 16 ≤ 64 ∧ bits w2 15 0 < bits w3 23 16 * 1024 ∧ bits w2 31 16 ≠ 0 ∧
  ∀ j, j < 16 → j ≠ e → bit (l.word j 0) 0 = true → bits (l.word j 2) 63 48 ≠ dom →
    bits w3 31 24 + bits w3 23 16 ≤ bits (l.word j 3) 31 24 ∨ bits (l.word j 3) 31 24 + bits (l.word j 3) 23 16 ≤ bits w3 31 24

/-- Whether an offset of handler memory lies in a window of an entry of a domain (R328). -/
def OwnWindow (l : Slice) (dom off : Nat) : Prop :=
  ∃ e, e < 16 ∧ bits (l.word e 2) 63 48 = dom ∧ bits (l.word e 3) 31 24 * 1024 ≤ off ∧ off < (bits (l.word e 3) 31 24 + bits (l.word e 3) 23 16) * 1024

end Sys2Proof.Claims

open Sys2Proof Sys2Proof.Machine Sys2Proof.Claims

/-- R342, R343: a TAP whose fields, alignment and rows pass their checks reserves an inbox entry and enters the port, and its rows' bytes are held for its context; a
zero field that is set raises TILE code 4, a misaligned base or stride ALIGN, a row outside the mesh window PAGE, one that fails a check its cause, rows that share a
byte TILE code 8. -/
def Sys2Proof.Claims.TapIssue : Prop :=
  ∀ (i : Instr) (a b pos : Nat), tapForm i = some (a, b, pos) → i.WF → ∀ (s : State) (core n : Nat), Between s core n → Present s core n [a, b] →
    let ag := Agent.ctx core n
    let r := s.regs ag
    let c := (r.S b).toNat
    let x := (r.OX 1).toNat
    let es := if bit c 16 then 2 else 4
    let len := bits x 14 0 * es
    let B := bits c 13 8 + 1
    let va (j : Nat) := tapRow (r.S a).toNat (r.OX 0).toNat j
    let fields := bits c 63 48 = 0 ∧ bits c 31 17 = 0 ∧ bits c 15 14 = 0 ∧ bits c 7 6 = 0 ∧ bits x 63 15 = 0 ∧ 1 ≤ bits x 14 0 ∧ bits x 14 0 ≤ 16384
    let aligned := (r.S a).toNat % es = 0 ∧ (r.OX 0).toNat % es = 0
    let rights : Rights := { r := true, w := true }
    (¬ fields → exec i s = .next (s.takeTrap ag (tileTrap 4 b))) ∧
    (fields → ¬ aligned → exec i s = .next (s.takeTrap ag { cause := 0x03, info := r.S a, addr := true })) ∧
    (∀ j, fields → aligned → j < B → (∀ q, q < j → bits (va q) 63 48 = 0xFF80 ∧ ∃ k o, s.check ag (va q) len rights = .ok (.scratch k o)) →
      (bits (va j) 63 48 ≠ 0xFF80 → exec i s = .next (s.takeTrap ag { cause := 0x05, info := BitVec.ofNat 64 (va j), addr := true })) ∧
      (∀ tr, bits (va j) 63 48 = 0xFF80 → s.check ag (va j) len rights = .error tr → exec i s = .next (s.takeTrap ag tr))) ∧
    (∀ key : Nat → Nat, fields → aligned →
      (∀ q, q < B → bits (va q) 63 48 = 0xFF80 ∧ ∃ k o, s.check ag (va q) len rights = .ok (.scratch k o) ∧ key q = scratchKey k o) →
      ((∃ p q, p < q ∧ q < B ∧ key q < key p + len ∧ key p < key q + len) → exec i s = .next (s.takeTrap ag (tileTrap 8 a))) ∧
      ((∀ p q, p < q → q < B → key p + len ≤ key q ∨ key q + len ≤ key p) → (portOf s core).length < 2 → roomy s core →
        ∃ t m, exec i s = .next t ∧ t.regs ag = r.next 4 ∧ (t.core core).reserved = (s.core core).reserved + 1 ∧ (t.ctx ag).taps = (s.ctx ag).taps + 1 ∧
          portOf t core = portOf s core ++ [m] ∧ m.op = 4 ∧ m.n = pos ∧ m.wa = r.S a ∧ m.wb = r.S b ∧ m.wd = r.OX 0 ∧ m.x1 = r.OX 1 ∧ m.x2 = r.OX 2 ∧ m.pc = r.pc ∧
          (∀ q, q < B → (m.no, key q, len) ∈ (t.ctx ag).tapBytes) ∧ t.underWay .matrixTake [quadOf core] = true ∧ QuietMemory s t))

/-- R239, R349: TAPRD, when the unit comes to it, completes with tap.count, or with the status of the latest TAP; it waits while a TAP of its context has not completed, and raises BOUNDS for selectors 2
and 3. -/
def Sys2Proof.Claims.TapReads : Prop :=
  ∀ (s : State) (core n d a : Nat), Between s core n → Present s core n [a] → d < 32 → a < 32 → (∀ l, look [] (s.quad (quadOf core)).ports l = []) →
    let ag := Agent.ctx core n
    let r := s.regs ag
    let sel := bits (r.S a).toNat 1 0
    ((s.ctx ag).taps = 0 → sel = 0 → ∃ t, exec (.taprd d a) s = .next t ∧ t.regs ag = (r.setS d r.tapCount).next 4 ∧ OnlyContext s t ag) ∧
    ((s.ctx ag).taps = 0 → sel = 1 → ∃ t, exec (.taprd d a) s = .next t ∧ t.regs ag = (r.setS d (look 0 (s.ctx ag).tapStat 0)).next 4 ∧ OnlyContext s t ag) ∧
    ((s.ctx ag).taps = 0 → 2 ≤ sel → ∃ t, exec (.taprd d a) s = .next t ∧ PortTrap s t ag { cause := 0x07, info := r.S a }) ∧
    ((s.ctx ag).taps ≠ 0 → ∃ t, exec (.taprd d a) s = .next t ∧ (t.ctx ag).st = .stalled ∧ t.regs ag = r ∧ QuietMemory s t)

/-- R344 to R348, R354, for a batch of one row. A bank of another format ends the TAP with TILE, a dark column with DARK: no row is written and nothing counted. A table fault evaluates
nothing and raises PROBE for every row. One probe on the row: with no crossing nothing is written; one that steers replaces the elements and both counts step; one that traps
leaves the row and raises PROBE with its number. A probe whose read must come from another module is asked for on its flow, once the flow has credit (R473). -/
def Sys2Proof.Claims.TapOutcome : Prop :=
  ∀ (s : State) (core n id no sa c stride x1 batch pc pos k off : Nat) (m : Msg), TapBatch s core n id no sa c stride x1 batch pc pos k off m →
    let ag := Agent.ctx core n
    let half := bit c 16
    let f := if half then bf16 else fp32
    let d := bits x1 14 0
    let len := d * (if half then 2 else 4)
    let tp := bits c 5 0
    let fits := ∀ o, off ≤ o → o < off + len → s.bankAt k o = 0 ∨ s.bankAt k o = (if half then 3 else 1)
    let x := (digits f.width d (leNat (s.bytes (scratchKey k off) len))).map f.decode
    1 ≤ d → off + len ≤ 2 ^ 17 → s.noBad = true →
    (¬ fits → ∃ t e, exec .tapAccept s = .next t ∧ TapCompletion s t core n 0x0A c pos 0 ∧ (t.regs ag).tapCount = (s.regs ag).tapCount ∧ (t.ctx ag).probes = (s.ctx ag).probes ∧
      t.errs = s.errs ++ [e] ∧ e.dom = s.supDomOf core ∧ e.src = 8 ∧ e.cause = 0x0A ∧ QuietMemory s t) ∧
    (fits → s.darkCols.contains (colOf k) = true →
      ∃ t, exec .tapAccept s = .next t ∧ TapCompletion s t core n 0x06 c pos 0 ∧ (t.regs ag).tapCount = (s.regs ag).tapCount ∧ QuietMemory s t) ∧
    (fits → s.darkCols.contains (colOf k) = false →
      let s1 := s.drop id
      (∀ flow ord va q, s1.readTable core m.stores tp pos d = .error (.peer flow ord va q) → s.credit flow 1 = false → exec .tapAccept s = .next s) ∧
      (∀ flow ord va q, s1.readTable core m.stores tp pos d = .error (.peer flow ord va q) → s.credit flow 1 = true → bit (look 0 s.flows flow).toNat 62 = false →
        ∃ t, exec .tapAccept s = .next t ∧ t.outbox = s.outbox ++ [(0x1000 + flow, [look 0 s.flowSeq flow, 0, if ord then 1 else 0, va, q])] ∧
          (∀ b, t.ctx b = s.ctx b) ∧ (t.core core).inbox = (s.core core).inbox ∧ QuietMemory s t) ∧
      (∀ cause, s1.readTable core m.stores tp pos d = .error (.fault cause []) →
        ∃ t, exec .tapAccept s = .next t ∧ TapCompletion s t core n 0 c pos 0 ∧ QuietMemory s t ∧
          (t.ctx ag).probes = (s.ctx ag).probes ++ [(2 ^ 15 + tp * 2 ^ 8 + 63, 1)] ∧ has (t.ctx ag).pend 0x0F = true) ∧
      (s1.readTable core m.stores tp pos d = .ok ([], 0) →
        ∃ t, exec .tapAccept s = .next t ∧ TapCompletion s t core n 0 c pos 0 ∧ QuietMemory s t ∧ (t.ctx ag).probes = (s.ctx ag).probes ∧
          (t.regs ag).tapCount.toNat % 2 ^ 32 = ((s.regs ag).tapCount.toNat + 1) % 2 ^ 32) ∧
      (∀ p : Probe, s1.readTable core m.stores tp pos d = .ok ([p], 0) → p.p < 64 →
        (crosses p (score p x) = false → ∃ t, exec .tapAccept s = .next t ∧ TapCompletion s t core n 0 c pos 0 ∧ QuietMemory s t ∧ (t.ctx ag).probes = (s.ctx ag).probes) ∧
        (crosses p (score p x) = true → p.act = 2 →
          ∃ t, exec .tapAccept s = .next t ∧ TapCompletion s t core n 0 c pos 1 ∧ (t.ctx ag).probes = (s.ctx ag).probes ∧
            (∀ q, t.byte q = storedByte s (scratchKey k off) len (undigits f.width ((steer f p x).map (fun v => (f.round v).1))) q) ∧
            (t.regs ag).tapCount.toNat / 2 ^ 32 = ((s.regs ag).tapCount.toNat / 2 ^ 32 + 1) % 2 ^ 32) ∧
        (crosses p (score p x) = true → p.act = 3 → bits (s.regs ag).tringSize.toNat 15 0 = 0 →
          ∃ t, exec .tapAccept s = .next t ∧ TapCompletion s t core n 0 c pos 0 ∧ QuietMemory s t ∧
            (t.ctx ag).probes = (s.ctx ag).probes ++ [(tp * 2 ^ 8 + p.p, 1)] ∧ has (t.ctx ag).pend 0x0F = true)))

/-- R345: a score that is not a number crosses; otherwise a probe crosses above its threshold, or, with dir set, below. -/
def Sys2Proof.Claims.Crossing : Prop :=
  ∀ (p : Probe) (v : Nat),
    ((fp32.decode v).isNan = true → crosses p v = true) ∧
    (finite (fp32.decode v) = true → finite (fp32.decode p.thr) = true →
      (crosses p v = true ↔ if p.dir = true then value (fp32.decode v) < value (fp32.decode p.thr) else value (fp32.decode p.thr) < value (fp32.decode v)))

/-- R325, R333, R334: WSRD completes with a descriptor word, or a word of the line as it stood at the event; a must-be-zero bit, an index of 5 to 7, a sector that was not present, any line
offset of a message, or of an eviction that is not held, aborts with BOUNDS, a misaligned offset with ALIGN. -/
def Sys2Proof.Claims.EventReads : Prop :=
  ∀ (s : State) (k d a : Nat) (ev : WsEvent), Handling s k ev → d < 32 → a < 32 →
    let ag := Agent.ws k
    let r := s.regs ag
    let x := (r.S a).toNat
    (∀ v, eventValue ev x = some v → ∃ t, exec (.wsrd d a) s = .next t ∧ t.regs ag = (r.setS d (BitVec.ofNat 64 v)).next 4 ∧ OnlyContext s t ag) ∧
    (x < 1024 → x % 8 ≠ 0 → exec (.wsrd d a) s = .next (s.takeTrap ag { cause := 0x03, info := r.S a })) ∧
    (eventValue ev x = none → 1024 ≤ x ∨ x % 8 = 0 → exec (.wsrd d a) s = .next (s.takeTrap ag { cause := 0x07, info := r.S a }))

/-- R336: WSUPD.ADD, WSUPD.MIN, WSUPD.MAX and WSUPD.OR of a sector of its own domain that is present in its slice complete: S(d) takes the old word and the new one is stored; they abort with ALIGN, PAGE,
PROT or UE otherwise. -/
def Sys2Proof.Claims.EventUpdates : Prop :=
  ∀ (i : Instr) (d a b : Nat) (f : W64 → W64 → W64), updateForm i = some (d, a, b, f) → i.WF → ∀ (s : State) (k : Nat) (ev : WsEvent), Handling s k ev →
    let ag := Agent.ws k
    let r := s.regs ag
    let va := (r.S a).toNat
    let aborts (cause : Nat) : Prop := exec i s = .next (s.takeTrap ag { cause := cause, info := r.S a, addr := true })
    (va % 8 ≠ 0 → aborts 0x03) ∧ (va % 8 = 0 → (s.slice k).find va = none → aborts 0x05) ∧
    (∀ e, va % 8 = 0 → (s.slice k).find va = some e →
      let key := e.tag.key * 256 + va % 256
      (e.tag.own ≠ ev.dom → aborts 0x04) ∧
      (e.tag.own = ev.dom → s.tokenHolder = none → s.pageHeld va = false → NoBankOps s →
        (s.poison.contains (key / 64) = true → s.flaws = [] → ∃ t, exec i s = .next t ∧ AbortedWith s t k ev 0x10) ∧
        (s.bad (key / 64) = false → NoChunks s →
          let old := BitVec.ofNat 64 (s.value key 8)
          ∃ t, exec i s = .next t ∧ t.regs ag = (r.setS d old).next 4 ∧ ∀ q, t.byte q = storedByte s key 8 (f old (r.S b)).toNat q)))

/-- R335, R337, R338: WSPF completes: it does nothing for an address that fails a check, for another's page or a sector that is present, and else raises FILL one level deeper. WSFWD completes, sending its entry on, or
making a record for a core off the grid. WSDONE, WSDONE.KEEP and WSDONE.BYPASS complete, ending the handler; WSDONE.KEEP puts a held line back where its set has room; WSDONE.BYPASS marks the line of an eviction. That the page WSPF asks for must be the handler's own is the model's reading (log 52). -/
def Sys2Proof.Claims.EventActions : Prop :=
  ∀ (s : State) (k a b : Nat) (ev : WsEvent), Handling s k ev → a < 32 → b < 32 →
    let ag := Agent.ws k
    let r := s.regs ag
    let va := (r.S a).toNat
    (s.pageHeld va = false → NoBankOps s → ∃ t, exec (.wspf a) s = .next t ∧ t.regs ag = r.next 4 ∧ QuietMemory s t) ∧
    (∀ tr, s.pageHeld va = false → addrCheck ag va 1 false = .error tr → exec (.wspf a) s = .next (s.modR ag (fun r => r.next 4))) ∧
    (∀ l, s.pageHeld va = false → addrCheck ag va 1 false = .ok none → s.leafFor ag va = .ok l → l.own ≠ ev.dom → exec (.wspf a) s = .next (s.modR ag (fun r => r.next 4))) ∧
    (∀ l, s.pageHeld va = false → NoBankOps s → addrCheck ag va 1 false = .ok none → s.leafFor ag va = .ok l → l.ty < 2 → l.own = ev.dom → bits va 55 48 ≠ 0x81 →
      let home := homeSlice l.stack va
      let t0 : LineTag := ⟨va / 256, l.key va / 256, home, l.ty, l.own⟩
      s.darkLine t0 = false →
      ((s.slice home).find va ≠ none → exec (.wspf a) s = .next (s.modR ag (fun r => r.next 4))) ∧
      ((s.slice home).find va = none → ∃ t, exec (.wspf a) s = .next t ∧ t.regs ag = r.next 4 ∧ QuietMemory s t ∧
        (∀ e, ev.depth < 6 → (s.slice home).handler 1 (va / 256 * 256 / 1024 * 1024) ev.dom = some e → (s.slice home).queue.length ≤ 30 →
          ∃ x ∈ (t.slice home).queue, x.kind = 1 ∧ x.entry = e ∧ x.va = va / 256 * 256 / 1024 * 1024 ∧ x.depth = ev.depth + 1 ∧ x.dom = ev.dom))) ∧
    (∀ core, coreOfId va = some core →
      ∃ t m, exec (.wsfwd a b) s = .next t ∧ t.regs ag = r.next 4 ∧ OnlyContext s t ag ∧ t.flight = s.flight ++ [(s.nextMsg, m)] ∧ m.ev = ⟨.wsfwdArrival, [s.nextMsg]⟩ ∧
        m.src = ag.code ∧ m.words = [core, bits va 21 20, bits va 47 32, (r.S b).toNat, ev.dom, ev.entry, ev.kind]) ∧
    (coreOfId va = none →
      ∃ t e, exec (.wsfwd a b) s = .next t ∧ t.regs ag = r.next 4 ∧ OnlyContext s t ag ∧ t.flight = s.flight ∧ t.errs = s.errs ++ [e] ∧ e.src = 6 ∧ e.sub = 4 ∧ e.dom = ev.dom) ∧
    (∃ t, exec .wsdone s = .next t ∧ EndedItself s t k ∧ (t.slice k).sectors = (s.slice k).sectors) ∧
    (∃ t, exec .wsdoneKeep s = .next t ∧ (ev.kind ≠ 2 ∨ ev.holdCopy = false → EndedItself s t k ∧ (t.slice k).sectors = (s.slice k).sectors) ∧
      (∀ page, ev.kind = 2 → ev.holdCopy = true → ((s.slice k).ways (ev.va / 1024)).length < 16 → (∀ w ∈ (s.slice k).ways (ev.va / 1024), w.1 = ev.va / 1024 → w.2.2 = true) →
        (∀ g ∈ ev.tags, g.va / 4 = ev.va / 1024 ∧ g.key / 4 = page) →
        EndedItself s t k ∧ (t.slice k).sectors = (s.slice k).sectors ++ ev.tags.map (fun g => { tag := g, dirty := false }))) ∧
    (∃ t, exec .wsdoneBypass s = .next t ∧ EndedItself s t k ∧ (ev.kind = 2 → ev.va / 1024 ∈ (t.slice k).noAlloc) ∧
      (ev.kind ≠ 2 → (t.slice k).noAlloc = (s.slice k).noAlloc))

/-- R330, R332, R337: the head of the queue starts at its entry's pc with s3 and s4, every other register zero; a handler past its budget is aborted at its next boundary with cause 0, and any trap aborts it with its
code; a forward reaches the inbox of a context of its domain, or makes a record. That the budget's end in time units is rounded up is the model's reading (log 52). -/
def Sys2Proof.Claims.HandlerRuns : Prop :=
  (∀ (s : State) (k : Nat) (ev : WsEvent) (rest : List WsEvent), s.args = [k] → (s.slice k).run = none → (s.slice k).queue = ev :: rest →
    let w2 := (s.slice k).word ev.entry 2
    let due := s.time + (bits w2 31 16 * 4 + 4) / 5
    ∃ t x, exec .handlerStart s = .next t ∧ (t.slice k).run = some x ∧ x.kind = ev.kind ∧ x.entry = ev.entry ∧ x.dom = bits w2 63 48 ∧ (t.slice k).queue = rest ∧
      (t.ctx (.ws k)).st = .ready ∧ (t.slice k).runEnd = due ∧ (due, ⟨.handlerOverrun, [k]⟩) ∈ t.agenda ∧ QuietMemory s t ∧
      (let r := t.regs (.ws k)
       r.pc = BitVec.ofNat 64 (bits w2 15 1 * 2) ∧ r.S 3 = BitVec.ofNat 64 ev.va ∧
       r.S 4 = BitVec.ofNat 64 (ev.depth * 2 ^ 24 + ev.sectors * 2 ^ 16 + ev.entry * 2 ^ 8 + ev.kind) ∧ (∀ j, j ≠ 3 → j ≠ 4 → r.S j = 0) ∧ r.loop0 = {} ∧ r.loop1 = {})) ∧
  (∀ (s : State) (k : Nat) (ev : WsEvent), s.args = [k] → (s.slice k).run = some ev →
    ((s.slice k).runEnd ≤ s.time → (s.ctx (.ws k)).st = .ready → ∃ t, exec .handlerOverrun s = .next t ∧ AbortedWith s t k ev 0) ∧
    (s.time < (s.slice k).runEnd ∨ (s.ctx (.ws k)).st ≠ .ready → exec .handlerOverrun s = .next s)) ∧
  (∀ (s : State) (k : Nat) (ev : WsEvent) (tr : Trap), Handling s k ev → AbortedWith s (s.takeTrap (.ws k) tr) k ev tr.cause) ∧
  (∀ (s : State) (id k core n tag pay dom entry kind : Nat) (m : Msg), s.args = [id] → s.msg? id = some m → k < 512 → m.src = (Agent.ws k).code →
    m.words = [core, n, tag, pay, dom, entry, kind] → core < 100352 → n < 4 → tag < 2 ^ 16 →
    ((s.regs (.ctx core n)).dom.toNat = dom → roomy s core →
      ∃ t, exec .wsfwdArrival s = .next t ∧ t.errs = s.errs ∧ QuietMemory s t ∧ (t.core core).inbox = (s.core core).inbox ++
        [⟨n, BitVec.ofNat 64 (6 * 2 ^ 56 + tag * 2 ^ 32 + k / 64 * 2 ^ 16 + 0xFF00 + k % 64), BitVec.ofNat 64 pay⟩]) ∧
    ((s.regs (.ctx core n)).dom.toNat ≠ dom ∨ ¬ roomy s core →
      ∃ t e, exec .wsfwdArrival s = .next t ∧ (t.core core).inbox = (s.core core).inbox ∧ t.errs = s.errs ++ [e] ∧ e.src = 6 ∧ e.sub = 4 ∧ e.dom = dom ∧ QuietMemory s t))

/-- R327, R328: a store to words 1 to 3 of an entry is ignored while it is live; one that clears en drops the entry's queued events, whose held copies give their holding entries back; one that sets en takes effect only where the entry is
allowed to its writer, and makes a record otherwise. A store to handler memory reaches the bytes of the writer's own windows, and makes one record for all others. -/
def Sys2Proof.Claims.Registration : Prop :=
  ∀ (s : State) (core n k : Nat), core < 100352 → n < 4 → k < 512 →
    let code := (Agent.ctx core n).code
    let dom := (s.regs (.ctx core n)).dom.toNat
    let l := s.slice k
    (∀ e w v, e < 16 → w < 4 → v < 2 ^ 64 → s.args = [code, 2 ^ 17 * k + 32 * e + 8 * w, v] →
      (w ≠ 0 → bit (l.word e 0) 0 = true → exec .handlerTableWrite s = .next s) ∧
      (w ≠ 0 → bit (l.word e 0) 0 = false → ∃ t, exec .handlerTableWrite s = .next t ∧ QuietMemory s t ∧
        (t.slice k).word e w = (if w = 1 then v &&& 0xFFFFFFFFFFFF000F else if w = 2 then v &&& 0xFFFF0000FFFFFFFF
          else v &&& 0xFFFF0000 ||| l.word e 3 &&& 0xFFFFFFFF00000000)) ∧
      (w = 0 → v % 2 = 0 → ∃ t, exec .handlerTableWrite s = .next t ∧ (t.slice k).word e 0 = v &&& 0xFFFFFFFFFFFF0000 ∧
        (t.slice k).queue = l.queue.filter (fun x => x.entry ≠ e) ∧ (t.slice k).holds = l.holds - (l.queue.filter (fun x => x.entry = e ∧ x.holdCopy = true)).length ∧ t.errs = s.errs ∧ (t.slice k).run = l.run) ∧
      (w = 0 → v % 2 = 1 → EntryAllowed l e dom → ∃ t, exec .handlerTableWrite s = .next t ∧
        (t.slice k).word e 0 = (v &&& 0xFFFFFFFFFFFF0000) + 1 ∧ t.errs = s.errs) ∧
      (w = 0 → v % 2 = 1 → ¬ EntryAllowed l e dom → ∃ t x, exec .handlerTableWrite s = .next t ∧
        (∀ j, (t.slice k).word e j = l.word e j) ∧ t.errs = s.errs ++ [x] ∧ x.src = 6 ∧ x.sub = 2 ∧ x.dom = dom)) ∧
    (∀ off len v, off + len ≤ 2 ^ 16 → s.args = [code, 2 ^ 17 * k + off, len, v] →
      ∃ t, exec .handlerMemoryWrite s = .next t ∧
        (∀ o, off ≤ o → o < off + len → OwnWindow l dom o → t.byte (handlerKey k o) = BitVec.ofNat 8 (v / 2 ^ (8 * (o - off)))) ∧
        (∀ o, off ≤ o → o < off + len → ¬ OwnWindow l dom o → t.byte (handlerKey k o) = s.byte (handlerKey k o)) ∧
        (∀ q, q < handlerKey k off ∨ handlerKey k (off + len) ≤ q → t.byte q = s.byte q) ∧
        ((∀ o, off ≤ o → o < off + len → OwnWindow l dom o) → t.errs = s.errs) ∧
        ((∃ o, off ≤ o ∧ o < off + len ∧ ¬ OwnWindow l dom o) → ∃ x, t.errs = s.errs ++ [x] ∧ x.src = 6 ∧ x.sub = 3 ∧ x.dom = dom))

/-- R341 to R354: taps and probes. -/
def Obligations.Taps : Prop := Claims.TapIssue ∧ Claims.TapReads ∧ Claims.TapOutcome ∧ Claims.Crossing

/-- R324 to R338: waystation handlers (the rounding of the budget and WSPF's own-page test as log 52 reads them). -/
def Obligations.Waystations : Prop := Claims.EventReads ∧ Claims.EventUpdates ∧ Claims.EventActions ∧ Claims.HandlerRuns ∧ Claims.Registration

/-! ## The scheduler -/

namespace Sys2Proof.Claims

open Sys2Proof Sys2Proof.Machine

/-- Whether a shape word keeps its form, in a partition (R405, R406). -/
def ShapeFits (s : State) (p sh : Nat) : Prop :=
  bits sh 31 26 = 0 ∧ bit sh 19 = false ∧ bits sh 15 10 = 0 ∧ bits sh 9 8 ≠ 3 ∧ bits sh 3 0 ≤ 13 ∧ bits sh 7 4 ≤ 13 ∧
  (bits sh 9 8 = 1 → bit (look 0 (s.part p).pcols (bits sh 18 16)).toNat (bits sh 25 20) = true)

/-- Whether the fields of a card of 56 bytes keep their form (R404, R406). -/
def CardFits (c : Nat) : Prop :=
  bits c 191 176 = 0 ∧ bit c 195 = false ∧ bit c 199 = false ∧ bits c 207 206 = 0 ∧ bits c 255 215 = 0 ∧ bit c 0 = false ∧ bits c 175 160 ≠ 0 ∧
  bits c 383 320 % 4096 = 0 ∧ bits c 319 256 % 8 = 0

/-- A job whose key names it alone. -/
structure Keyed (s : State) (p k : Nat) (j : Job) : Prop where
  scheds : (s.scheds.map (·.1)).Nodup
  jobs : ((s.sched p).jobs.map (·.1)).Nodup
  here : s.job? p k = some j

/-- The one thing that a partition's scheduler holds is a manifest. -/
def OnlyJob (s : State) (p k : Nat) (j : Job) : Prop := (s.sched p).jobs = [(k, j)] ∧ (s.sched p).routes = []

/-- A place for a band: a column that its mode admits, with h × w free cores in a rectangle of the column's 14 × 14 (R405, R414). -/
def Place (free : Nat → Bool) (sh : Nat) (b : Band) : Prop :=
  b.h = bits sh 3 0 + 1 ∧ b.w = bits sh 7 4 + 1 ∧ (bits sh 9 8 = 1 → b.col = 64 * bits sh 18 16 + bits sh 25 20) ∧
  14 * (b.col % 64 / 8) ≤ b.y ∧ b.y + b.h ≤ 14 * (b.col % 64 / 8) + 14 ∧ 14 * (b.col % 8) ≤ b.x ∧ b.x + b.w ≤ 14 * (b.col % 8) + 14 ∧
  ∀ dy dx, dy < b.h → dx < b.w → free (coreOf (b.col / 64) (b.y + dy) (b.x + dx)) = true

/-- A record of the scheduler (R417, R428): its kind, the job and the cause. -/
def SchedRecord (s t : State) (sub : Nat) : Prop := ∃ e, t.errs = s.errs ++ [e] ∧ e.src = 7 ∧ e.sub = sub

end Sys2Proof.Claims

open Sys2Proof Sys2Proof.Machine Sys2Proof.Claims

/-- R404 to R406: a card without successors and without a notify word is copied field by field when its fields and shapes keep their form and it could be placed, and is malformed otherwise; a
read that fails its checks fails the post, and one that has to wait keeps it waiting. -/
def Sys2Proof.Claims.Cards : Prop :=
  ∀ (s : State) (p : Nat) (who : Poster) (va : Nat) (hd sb : List Byte),
    (∀ tr, s.postRead who va 0x38 = .error (.trap tr) → s.readCard p who va false = .error (.trap tr)) ∧
    (∀ need, s.postRead who va 0x38 = .error (.wait need) → s.readCard p who va false = .error (.wait need)) ∧
    (s.postRead who va 0x38 = .ok hd →
      let c := leNat hd
      let bands := bits c 205 200 + 1
      s.postRead who (va + 0x38) (4 * bands) = .ok sb → bits c 214 208 = 0 → bits c 447 384 = 0 →
      let shapes := (List.range bands).map (fun b => leNat ((sb.drop (4 * b)).take 4))
      let good := CardFits c ∧ (∀ sh ∈ shapes, ShapeFits s p sh) ∧ s.placeable p shapes = true
      let card : Card := ⟨BitVec.ofNat 64 (bits c 63 0), BitVec.ofNat 64 (bits c 127 64), bits c 159 128, bits c 175 160, bits c 194 192, bits c 198 196, shapes, [], bits c 383 320, 0⟩
      (good → s.readCard p who va false = .ok card) ∧
      (¬ good → s.readCard p who va false = .error .bad))

/-- R165, R403, R406: MPOST completes with 0 for a manifest that enters its queue or a route that becomes active, 1 where the queue holds 64 manifests or 16 routes are active, 2 for a malformed card, a
bit of S(b) that must be zero, or a core of no partition; a failed check traps, a misaligned address raises ALIGN; while bytes of the card have to be waited for, it is Stalled. A store to POST does the
same, with its result and the job id in POSTR. That a reserved bit of S(b) is looked at before the address is the model's reading (log 45). -/
def Sys2Proof.Claims.Posts : Prop :=
  (∀ (s : State) (core n a b c p : Nat), Between s core n → Present s core n [a, b, c] → a < 32 → b < 32 → c < 32 →
    let ag := Agent.ctx core n
    let r := s.regs ag
    let va := (r.S a).toNat
    let x := (r.S b).toNat
    let s1 := s.entered ag (some 14)
    let who : Poster := { s1.posterOf ag.code with tag := [0, ag.code] }
    (s.partOf ag = none → ∃ t, exec (.mpost a b c) s = .next t ∧ t.regs ag = (r.setS c 2).next 4 ∧ OnlyContext s t ag) ∧
    (s.partOf ag = some p →
      (bits x 63 5 ≠ 0 → ∃ t, exec (.mpost a b c) s = .next t ∧ t.regs ag = (r.setS c 2).next 4 ∧ OnlyContext s t ag ∧ t.sched p = s.sched p) ∧
      (bits x 63 5 = 0 → va % 8 ≠ 0 → exec (.mpost a b c) s = .next ((s1.forget who).takeTrap ag { cause := 0x03, info := r.S a, addr := true })) ∧
      (bits x 63 5 = 0 → va % 8 = 0 → bit x 4 = false →
        (∀ tr, s1.readCard p who va false = .error (.trap tr) → exec (.mpost a b c) s = .next (((s1.forget who).postMeet who tr).takeTrap ag tr)) ∧
        (∀ need, s1.readCard p who va false = .error (.wait need) → ∃ t, exec (.mpost a b c) s = .next t ∧ t.regs ag = r ∧ (t.ctx ag).st = .stalled ∧ t.sched p = s.sched p ∧ QuietMemory s t) ∧
        (s1.readCard p who va false = .error .bad → ∃ t, exec (.mpost a b c) s = .next t ∧ t.regs ag = (r.setS c 2).next 4 ∧ OnlyContext s t ag ∧ t.sched p = s.sched p) ∧
        (∀ card, s1.readCard p who va false = .ok card →
          let q := if bit x 3 then bits x 2 0 else card.prio
          (64 ≤ (s.sched p).qlen q → ∃ t, exec (.mpost a b c) s = .next t ∧ t.regs ag = (r.setS c 1).next 4 ∧ OnlyContext s t ag ∧ t.sched p = s.sched p) ∧
          ((s.sched p).qlen q < 64 → ∃ t j, exec (.mpost a b c) s = .next t ∧ t.regs ag = (r.setS c 0).next 4 ∧ OnlyContext s t ag ∧ t.underWay .admissionAttempt [p] = true ∧
            (t.sched p).nextId = (if (s.sched p).nextId + 1 = 2 ^ 32 then 1 else (s.sched p).nextId + 1) ∧
            t.job? p (s.sched p).nextKey = some j ∧ j.id = (s.sched p).nextId ∧ j.card = card ∧ j.queue = q ∧ j.since = s.time ∧ j.st = .waiting))) ∧
      (bits x 63 5 = 0 → va % 8 = 0 → bit x 4 = true → 16 ≤ (s.sched p).routes.length → ∀ route, s1.readRoute p who va = .ok route →
        ∃ t, exec (.mpost a b c) s = .next t ∧ t.regs ag = (r.setS c 1).next 4 ∧ OnlyContext s t ag ∧ t.sched p = s.sched p))) ∧
  (∀ (s : State) (who p v : Nat), s.args = [who, p, v] →
    (bits v 2 1 ≠ 0 → ∃ t, exec .post s = .next t ∧ (t.sched p).postr = 2 ∧ SchedRecord s t 2 ∧ (t.sched p).jobs = (s.sched p).jobs) ∧
    (bits v 2 0 = 0 →
      (∀ tr, s.readCard p (s.storePoster who p v) v false = .error (.trap tr) → tr.cause ≠ 0x10 → ∃ t, exec .post s = .next t ∧ (t.sched p).postr = 2 ∧ SchedRecord s t 2) ∧
      (s.readCard p (s.storePoster who p v) v false = .error .bad → ∃ t, exec .post s = .next t ∧ (t.sched p).postr = 2 ∧ (t.sched p).jobs = (s.sched p).jobs) ∧
      (∀ need, s.readCard p (s.storePoster who p v) v false = .error (.wait need) → ∃ t, exec .post s = .next t ∧ t.underWay .post [who, p, v] = true ∧ t.sched p = s.sched p ∧ QuietMemory s t) ∧
      (∀ card, s.readCard p (s.storePoster who p v) v false = .ok card → (s.sched p).qlen card.prio < 64 → (s.sched p).nextId < 2 ^ 32 →
        ∃ t j, exec .post s = .next t ∧ (t.sched p).postr = BitVec.ofNat 64 ((s.sched p).nextId * 2 ^ 32) ∧ t.job? p (s.sched p).nextKey = some j ∧
          j.id = (s.sched p).nextId ∧ j.card = card ∧ j.queue = card.prio ∧ QuietMemory s t)))

/-- R409, R410: a node with incoming edges none of which is signalled is skipped, and cancels its edges; a join signals them; a conditional reads its predicate once, and signals the true successors and
cancels the false ones, or the reverse; a predicate word that has to be waited for resolves nothing yet; one that fails its checks makes the record of the job's fault. -/
def Sys2Proof.Claims.RouteNodes : Prop :=
  ∀ (s : State) (p k n : Nat) (r : Route) (x : Node), s.route? p k = some r → r.nodes[n]? = some x → x.succ ≠ [] →
    let inc := r.nodes.flatMap (fun y => (y.succ.zip y.edges).filterMap (fun e => if e.1 = n then some e.2 else none))
    let all (f : Nat → Nat) := (List.range x.succ.length).map (fun e => (n, e, f e))
    (inc ≠ [] → 1 ∉ inc → (s.runNode p k n).2 = all (fun _ => 2)) ∧
    (inc = [] ∨ 1 ∈ inc → x.kind = 2 → (s.runNode p k n).2 = all (fun _ => 1)) ∧
    (∀ bs, inc = [] ∨ 1 ∈ inc → x.kind = 1 → s.postRead { r.poster with tag := [2, p, k, n] } x.addr 8 = .ok bs →
      (leNat bs ≠ 0 → (s.runNode p k n).2 = all (fun e => if e < x.nt then 1 else 2)) ∧ (leNat bs = 0 → (s.runNode p k n).2 = all (fun e => if e < x.nt then 2 else 1))) ∧
    (∀ need, inc = [] ∨ 1 ∈ inc → x.kind = 1 → s.postRead { r.poster with tag := [2, p, k, n] } x.addr 8 = .error (.wait need) →
      (s.runNode p k n).2 = [] ∧ (s.runNode p k n).1.errs = s.errs) ∧
    (∀ tr, inc = [] ∨ 1 ∈ inc → x.kind = 1 → s.postRead { r.poster with tag := [2, p, k, n] } x.addr 8 = .error (.trap tr) → tr.cause ≠ 0x10 →
      (s.runNode p k n).2 = [] ∧ ∃ e, (s.runNode p k n).1.errs = s.errs ++ [e] ∧ e.src = 7 ∧ e.sub = 1 ∧ e.cause = tr.cause ∧ e.w4 = r.id ∧ e.w7 = n)

/-- R413, R414: the columns that an attempt considers, with their scores: those of the partition that are cool enough and not dark. A band takes a place in the column of the lowest score, and among those in the
lowest; within it the lowest y, then the lowest x; and there is none only where no column has a place. -/
def Sys2Proof.Claims.Placement : Prop :=
  (∀ (s : State) (p c : Nat) (x : Int), (c, x) ∈ s.scores p ↔
    c < 512 ∧ bit (look 0 (s.part p).pcols (c / 64)).toNat (c % 64) = true ∧ toSigned 16 (s.tzMax c) < toSigned 16 (s.sched p).tlim ∧ s.darkCols.contains c = false ∧
    x = toSigned 16 (s.tzMax c) + (if (s.col c).sample.2 = 0 then (s.sched p).kfill else (s.sched p).kfill * (s.col c).sample.1 / (s.col c).sample.2 : Nat) + 64 * (s.col c).level) ∧
  (∀ (cols : List (Nat × Int)) (kband : Nat) (free : Nat → Bool) (sh : Nat), (cols.map (·.1)).Pairwise (· < ·) → bits sh 3 0 ≤ 13 → bits sh 7 4 ≤ 13 →
    (∀ b, placeBands cols kband free [] [sh] [none] [] = some [b] →
      Place free sh b ∧ ∃ x, (b.col, x) ∈ cols ∧
        (∀ o y, Place free sh o → (o.col, y) ∈ cols → x < y ∨ x = y ∧ b.col ≤ o.col) ∧
        (∀ o, Place free sh o → o.col = b.col → b.y < o.y ∨ b.y = o.y ∧ b.x ≤ o.x)) ∧
    (placeBands cols kband free [] [sh] [none] [] = none ↔ ∀ o y, Place free sh o → (o.col, y) ∉ cols))

/-- R411, R412, R414: an attempt, after the tick of its instant, waits for the reservations of an earlier one; it completes a manifest without records; it sends a reservation to every core of the place it finds; and a manifest of
effective priority 7 without a place becomes blocking. -/
def Sys2Proof.Claims.Attempts : Prop :=
  ∀ (s : State) (p k : Nat) (j : Job), s.args = [p] → OnlyJob s p k j → (∀ e ∈ s.agenda, s.time < e.1 ∨ e.2.row ≠ .reservoirTick) →
    let d := s.sched p
    let eff := if d.age = 0 then j.queue else min 7 (j.queue + (s.time - j.since) / (d.age * 1000))
    let place := placeBands (s.scores p) d.kband s.coreFree [] j.card.shapes (j.parity.map some) []
    (j.st = .reserving → ∃ t, exec .admissionAttempt s = .next t ∧ t.job? p k = some j ∧ (t.sched p).again = true ∧ t.flight = s.flight) ∧
    (j.st = .waiting → j.mask = none →
      (j.card.count = 0 → j.route = none → j.edges = [] → j.card.notify = 0 → ∃ t, exec .admissionAttempt s = .next t ∧ t.job? p k = none ∧ QuietMemory s t) ∧
      (0 < j.card.count →
        (∀ bands, place = some bands → ∃ t x, exec .admissionAttempt s = .next t ∧ t.job? p k = some x ∧ x.st = .reserving ∧ x.bands = bands ∧ x.cores = bands.flatMap Band.cores ∧
          x.asked = x.cores ∧ QuietMemory s t ∧ ∀ c ∈ x.cores, ∃ id m, (id, m) ∈ t.flight ∧ m.ev = ⟨.coreReservation, [id]⟩ ∧ m.words = [p, k, c]) ∧
        (place = none → eff = 7 → ∃ t, exec .admissionAttempt s = .next t ∧ t.job? p k = some { j with blocking := true } ∧ t.flight = s.flight) ∧
        (place = none → eff < 7 → ∃ t, exec .admissionAttempt s = .next t ∧ t.job? p k = some j ∧ t.flight = s.flight)))

/-- R414, R415: a core accepts a reservation while it is free, and is then marked; when the last has accepted, the caravan starts at the next multiple of 1,000 ns; when one has refused, all is
withdrawn. At the start the ids are written to every core, and the first deal is made. -/
def Sys2Proof.Claims.Reserving : Prop :=
  (∀ (s : State) (id p k core : Nat) (m : Msg) (j : Job), s.args = [id] → s.msg? id = some m → m.words = [p, k, core] → Keyed s p k j →
    (∀ c rest, j.asked = core :: c :: rest → s.coreFree core = true → ∃ t, exec .coreReservation s = .next t ∧ (t.core core).mark = true ∧
      t.job? p k = some { j with asked := c :: rest } ∧ QuietMemory s t) ∧
    (j.asked = [core] → OnlyJob s p k j → j.st = .reserving → s.coreFree core = true → j.refused = false → ∃ t x, exec .coreReservation s = .next t ∧ (t.core core).mark = true ∧ t.job? p k = some x ∧ x.st = .starting ∧
      x.cores = j.cores ∧ ((s.time / 1000 + 1) * 1000, ⟨.caravanStart, [p, k]⟩) ∈ t.agenda ∧ (t.sched p).admits = ((s.sched p).admits + 1) % 2 ^ 32) ∧
    (j.asked = [core] → OnlyJob s p k j → j.st = .reserving → s.coreFree core = false → ∃ t x, exec .coreReservation s = .next t ∧ t.job? p k = some x ∧ x.st = .waiting ∧ x.cores = [] ∧ x.since = j.since ∧
      (∀ c ∈ j.cores, (t.core c).mark = false) ∧ (t.sched p).withdrawn = ((s.sched p).withdrawn + 1) % 2 ^ 32)) ∧
  (∀ (s : State) (p k : Nat) (j : Job), s.args = [p, k] → Keyed s p k j → j.st = .starting → j.saved = none → j.live = [] → (j.bands.flatMap Band.cores).Nodup →
    ∃ t x, exec .caravanStart s = .next t ∧ t.job? p k = some x ∧ x.st = .resident ∧ QuietMemory s t ∧
      (∀ b g o c, j.bands[b]? = some g → g.cores[o]? = some c →
        (t.core c).caravanId = BitVec.ofNat 64 (p * 2 ^ 32 + j.id) ∧
        (t.core c).bandId = BitVec.ofNat 64 ((g.w - 1) * 2 ^ 36 + (g.h - 1) * 2 ^ 32 + (j.bands.length - 1) * 2 ^ 24 + b * 2 ^ 16 + o * 2 ^ 8) ∧
        (t.core c).resident = true ∧ (t.core c).mark = false) ∧
      (∀ c, j.cores = [c] → j.dealt = 0 → 0 < j.card.count → c < 100352 →
        let r := t.regs (.ctx c 0)
        (t.ctx (.ctx c 0)).st = .ready ∧ (t.ctx (.ctx c 0)).lvl = .user ∧ r.pc = j.card.entry &&& ~~~1#64 ∧ r.S 3 = j.card.rbase ∧ r.S 4 = BitVec.ofNat 64 ((j.card.count + 1) / 2) ∧
        r.rank = BitVec.ofNat 64 j.card.rank ∧ r.dom = (s.regs (.ctx c 0)).dom ∧ (∀ i, i ≠ 3 → i ≠ 4 → r.S i = 0) ∧ x.live = [0] ∧ x.dealt = (j.card.count + 1) / 2))

/-- R30 to R32: a deal gives the next records, half of what a core's share of the rest is, rounded up; none are left after the last. RETIRE of a control context goes on with the next deal at the entry. -/
def Sys2Proof.Claims.Dealing : Prop :=
  (∀ j : Job, (j.card.count ≤ j.dealt → j.deal = none) ∧
    (j.dealt < j.card.count → j.cores ≠ [] →
      let n := (j.card.count - j.dealt + 2 * j.cores.length - 1) / (2 * j.cores.length)
      j.deal = some (j.card.rbase + BitVec.ofNat 64 (j.dealt * j.card.rsize), BitVec.ofNat 64 n, { j with dealt := j.dealt + n }))) ∧
  (∀ (s : State) (core p k o : Nat) (j j' : Job) (x y : W64), Between s core 0 → (s.regs (.ctx core 0)).act = false → s.jobOf core = some (p, k, j) → o ∈ j.live →
    j.cores[o]? = some core → j.deal = some (x, y, j') →
    ∃ t, exec .retire s = .next t ∧ t.regs (.ctx core 0) = (((s.regs (.ctx core 0)).setS 3 x).setS 4 y).jump j.card.entry ∧ OnlyContext s t (.ctx core 0) ∧ t.job? p k = some j')

/-- R419: a store to PREEMPT is refused for what is not there, not resident, without a save area or frozen; else the request is made at the next multiple of 1,000 ns, when every live context receives it with
its place in the save area. With every live context held the caravan is saved and waits again; a write of a save that fails its checks leaves the request as it is (R374); a frozen context abandons the request. -/
def Sys2Proof.Claims.CaravanPreemption : Prop :=
  (∀ (s : State) (who p v : Nat), s.args = [who, p, v] →
    (bits v 63 32 ≠ p → exec .schedPreempt s = .next (s.record { dom := s.writerDom who, src := 7, sub := 2 })) ∧
    (∀ k j, bits v 63 32 = p → Keyed s p k j → j.id = bits v 31 0 → (∀ e ∈ (s.sched p).jobs, e.2.id = bits v 31 0 → e = (k, j)) →
      (j.st ≠ .resident ∨ j.card.save = 0 ∨ (∃ c ∈ j.cores, ∃ n, n < 4 ∧ (s.ctx (.ctx c n)).st = .waiting ∧ (s.ctx (.ctx c n)).why = 6) →
        ∃ t, exec .schedPreempt s = .next t ∧ SchedRecord s t 3 ∧ t.agenda = s.agenda ∧ t.job? p k = some j) ∧
      (j.st = .resident → j.card.save ≠ 0 → (∀ c ∈ j.cores, ∀ n, n < 4 → ¬ ((s.ctx (.ctx c n)).st = .waiting ∧ (s.ctx (.ctx c n)).why = 6)) → j.preempt = none →
        ∃ t, exec .schedPreempt s = .next t ∧ t.errs = s.errs ∧ t.job? p k = some { j with preempt := some false } ∧
          ((s.time / 1000 + 1) * 1000, ⟨.caravanPreemptTick, [p, k]⟩) ∈ t.agenda))) ∧
  (∀ (s : State) (p k : Nat) (j : Job), s.args = [p, k] → Keyed s p k j → j.st = .resident → j.cores.Nodup →
    (j.preempt = some false →
      ∃ t, exec .caravanPreemptTick s = .next t ∧ t.job? p k = some { j with preempt := some true } ∧ t.underWay .caravanSave [p, k] = true ∧ QuietMemory s t ∧
        ∀ o c n, j.cores[o]? = some c → n < 4 → (s.ctx (.ctx c n)).live = true →
          (t.regs (.ctx c n)).preReq = true ∧ (t.regs (.ctx c n)).save = BitVec.ofNat 64 (j.card.save + 0xA000 * (4 * o + n))) ∧
    (j.preempt = some true → j.saved = none →
      ((∃ c ∈ j.cores, ∃ n, n < 4 ∧ (s.ctx (.ctx c n)).st = .waiting ∧ (s.ctx (.ctx c n)).why = 6) →
        ∃ t, exec .caravanSave s = .next t ∧ SchedRecord s t 3 ∧ t.job? p k = some { j with preempt := none } ∧ (∀ c ∈ j.cores, ∀ n, n < 4 → (t.regs (.ctx c n)).preReq = false) ∧ QuietMemory s t) ∧
      ((∃ c ∈ j.cores, ∃ n, n < 4 ∧ (s.ctx (.ctx c n)).live = true ∧ (s.ctx (.ctx c n)).st ≠ .waiting ∧ (s.ctx (.ctx c n)).parked = false) →
        (∀ c ∈ j.cores, ∀ n, n < 4 → ¬ ((s.ctx (.ctx c n)).st = .waiting ∧ (s.ctx (.ctx c n)).why = 6)) → exec .caravanSave s = .next s) ∧
      (∀ c n s1, j.cores = [c] → n < 4 → (s.ctx (.ctx c n)).live = true → (s.ctx (.ctx c n)).parked = true → (s.ctx (.ctx c n)).st ≠ .waiting → (s.ctx (.ctx c n)).probes = [] →
        (∀ i, i < 4 → i ≠ n → (s.ctx (.ctx c i)).live = false) → s.saveReady c n = true → s.makeSave c n ((s.ctx (.ctx c n)).saving.getD (2, 0)) = .ok s1 →
        ∃ t x, exec .caravanSave s = .next t ∧ t.job? p k = some x ∧ x.st = .waiting ∧ x.saved = some [n] ∧ x.since = j.since ∧ (t.core c).resident = false ∧
          t.ctx (.ctx c n) = s1.ctx (.ctx c n) ∧ ∀ q, t.byte q = s1.byte q) ∧
      (∀ c n tr, j.cores = [c] → n < 4 → (s.ctx (.ctx c n)).live = true → (s.ctx (.ctx c n)).parked = true → (s.ctx (.ctx c n)).st ≠ .waiting → (s.ctx (.ctx c n)).probes = [] →
        (s.ctx (.ctx c n)).lvl = .user → (s.ctx (.ctx c n)).chunk.run = false → (s.regs (.ctx c n)).tpend = [] →
        (∀ i, i < 4 → i ≠ n → (s.ctx (.ctx c i)).live = false) → s.saveReady c n = true → s.makeSave c n ((s.ctx (.ctx c n)).saving.getD (2, 0)) = .error (.trap tr) →
        ∃ t, exec .caravanSave s = .next t ∧ t.job? p k = some j ∧ (t.regs (.ctx c n)).preReq = (s.regs (.ctx c n)).preReq ∧ (t.ctx (.ctx c n)).parked = false ∧
          (t.core c).resident = (s.core c).resident)))

/-- R402, R417, R418, R420: a store to SIGNAL, CANCEL or ENDCAR that names nothing in the right state only makes a record. SIGNAL posts the selected open entries of a faulted job; CANCEL cancels its open entries, and
the job ends with its notify word written; ENDCAR ends waiting contexts at once, others at their next boundary, and the job faults. -/
def Sys2Proof.Claims.SupervisorActs : Prop :=
  ∀ (s : State) (who p v : Nat), s.args = [who, p, v] →
    let d := s.sched p
    let bad := s.record { dom := s.writerDom who, src := 7, sub := 2 }
    let faulted (e : Nat × Job) : Bool := e.2.id = v && e.2.route.isNone && e.2.st = .faulted
    (d.jobs = [] → d.routes = [] → exec .signal s = .next bad ∧ exec .cancel s = .next bad ∧ exec .endcar s = .next bad) ∧
    (∀ k j, Keyed s p k j → d.jobs.find? faulted = some (k, j) → j.mask = none →
      (∀ e card, d.jobs.find? (fun e => faulted e && e.2.edges.contains 0) = some (k, j) → j.edges = [0] → j.card.succ = [e] → e % 8 = 0 → d.sigmask.getLsbD 0 = true → k < d.nextKey →
        (s.setJob p k { j with mask := some d.sigmask.toNat }).readCard p { j.poster with tag := [3, p, k] } e false = .ok card →
        (d.qlen card.prio < 64 → j.card.notify = 0 →
          ∃ t x, exec .signal s = .next t ∧ t.job? p k = none ∧ t.job? p d.nextKey = some x ∧ x.id = d.nextId ∧ x.card = card ∧ t.errs = s.errs) ∧
        (64 ≤ d.qlen card.prio → ∃ t x, exec .signal s = .next t ∧ t.job? p k = some x ∧ x.edges = [0] ∧ x.mask = some d.sigmask.toNat ∧ t.errs = s.errs)) ∧
      (j.card.notify = 0 → ∃ t, exec .cancel s = .next t ∧ t.job? p k = none ∧ t.errs = s.errs ∧ QuietMemory s t) ∧
      (∀ sl tg key, j.card.notify ≠ 0 → j.id < 2 ^ 32 → s.errands = [] → NoChunks s → NoBankOps s → s.tokenHolder = none → s.pageHeld j.card.notify = false →
        s.postCheck j.poster j.card.notify 8 wrR = .ok (.mem sl tg key) →
        ∃ t, exec .cancel s = .next t ∧ t.job? p k = none ∧ ∀ q, t.byte q = storedByte s key 8 (j.id + (if 0 ∈ j.edges ∨ 2 ∈ j.edges then 2 ^ 32 else 0)) q)) ∧
    (∀ k j, bits v 63 32 = p → Keyed s p k j → j.st = .resident → j.id = bits v 31 0 → (∀ e ∈ d.jobs, e.2.id = bits v 31 0 → e = (k, j)) →
      ((∃ c ∈ j.cores, ∃ n, n < 4 ∧ (s.ctx (.ctx c n)).live = true) → j.cores.Nodup →
        (∀ c ∈ j.cores, ∀ n, n < 4 → (s.ctx (.ctx c n)).st ≠ .waiting ∧ (s.ctx (.ctx c n)).parked = false ∧ (s.ctx (.ctx c n)).loading = false) →
        ∃ t, exec .endcar s = .next t ∧ t.job? p k = some { j with ending := true, preempt := none, saved := none } ∧ t.errs = s.errs ∧
          ∀ c ∈ j.cores, ∀ n, n < 4 → (s.ctx (.ctx c n)).live = true → (t.ctx (.ctx c n)).ending = true ∧ (t.ctx (.ctx c n)).live = true) ∧
      (∀ c, j.cores = [c] → j.route = none → s.jobOf c = some (p, k, j) → (s.ctx (.ctx c 0)).st = .waiting → (s.ctx (.ctx c 0)).chunk.run = false → (s.core c).holder ≠ some 0 →
        (∀ i, i < 4 → i ≠ 0 → (s.ctx (.ctx c i)).live = false) →
        ∃ t x e, exec .endcar s = .next t ∧ (t.ctx (.ctx c 0)).st = .idle ∧ t.job? p k = some x ∧ x.st = .faulted ∧ (t.core c).resident = false ∧
          t.errs = s.errs ++ [e] ∧ e.src = 7 ∧ e.sub = 1 ∧ e.w4 = j.id ∧ e.w5 = 2 ^ 64 - 1 ∧ e.w6 = 0 ∧ e.cause = 0))

/-- R29 to R32, R402 to R420: the scheduler (the order of the checks of a post as log 45 reads them). -/
def Obligations.Scheduling : Prop :=
  Claims.Cards ∧ Claims.Posts ∧ Claims.RouteNodes ∧ Claims.Placement ∧ Claims.Attempts ∧ Claims.Reserving ∧ Claims.Dealing ∧ Claims.CaravanPreemption ∧ Claims.SupervisorActs

/-! ## Partitions, dark tiers, snapshots -/

namespace Sys2Proof.Claims

open Sys2Proof Sys2Proof.Machine

/-- Whether a partition has a column (R422). -/
def HasColumn (s : State) (p col : Nat) : Prop := col < 512 ∧ bit (look 0 (s.part p).pcols (col / 64)).toNat (col % 64) = true

/-- A column whose membership may change: no live context, no courier in a slot (R425). -/
def QuietColumn (s : State) (col : Nat) : Prop := ∀ core, colOf core = col → (s.core core).courier = none ∧ ∀ n, n < 4 → (s.ctx (.ctx core n)).live = false

/-- What becomes of the triggers of a snapshot (R437). -/
structure Triggered (s t : State) : Prop where
  held : bit s.snap.ctl.toNat 9 = true ∨ s.snap.due.isSome = true → t.snap = { s.snap with missed := (s.snap.missed + 1) % 2 ^ 32 } ∧ t.agenda = s.agenda
  free : bit s.snap.ctl.toNat 9 = false → s.snap.due = none →
    let at_ := (s.time + 1999) / 1000 * 1000
    t.snap = { s.snap with due := some at_ } ∧ (at_, ⟨.snapshotLatch, []⟩) ∈ t.agenda
  memory : QuietMemory s t

end Sys2Proof.Claims

open Sys2Proof Sys2Proof.Machine Sys2Proof.Claims

/-- R422, R425: a write of PCOLS that would give a column to two partitions, or that changes one in use, changes nothing and makes a record; any other takes effect: a column that joins has its event unit reset and
its cores' PLB entries invalidated. -/
def Sys2Proof.Claims.Membership : Prop :=
  ∀ (s : State) (who p st v : Nat), p < 64 → st < 8 → v < 2 ^ 64 → s.args = [who, 4096 * p + 8 * st, v] → (s.parts.map (·.1)).Nodup →
    let old := (look 0 (s.part p).pcols st).toNat
    let clash := ∃ q c, q ≠ p ∧ c < 64 ∧ HasColumn s q (64 * st + c) ∧ bit v c = true
    let used := ∃ c, c < 64 ∧ bit old c ≠ bit v c ∧ ¬ QuietColumn s (64 * st + c)
    (clash ∨ used → ∃ t e, exec .pcolsWrite s = .next t ∧ t.parts = s.parts ∧ t.cores = s.cores ∧ t.errs = s.errs ++ [e] ∧ e.log = true) ∧
    (¬ clash → ¬ used → ∃ t, exec .pcolsWrite s = .next t ∧ t.errs = s.errs ∧ QuietMemory s t ∧ look 0 (t.part p).pcols st = BitVec.ofNat 64 v ∧
      (∀ q st', q ≠ p ∨ st' ≠ st → look 0 (t.part q).pcols st' = look 0 (s.part q).pcols st') ∧
      ∀ c, c < 64 → bit old c = false → bit v c = true → (t.col (64 * st + c)).ev = {} ∧ ∀ core e, colOf core = 64 * st + c → (look {} (t.core core).plb e).v = false)

/-- R424, R431 to R433: FCLOSE closes a handle. BSTOP of a band that is not there, of an index that its caravan does not have, or that has stopped only makes a record; else the band stops: its waiting contexts freeze at once, its others at their next boundary, one
record is written, and the contexts of the other bands take CARAVAN with the band's word. -/
def Sys2Proof.Claims.BandStops : Prop :=
  ∀ (s : State) (who p v : Nat), s.args = [who, p, v] →
    (∃ t, exec .fclose s = .next t ∧ t.forest? p (v % 16) = none ∧ look 0 (t.part p).eqCount (v % 16) = 0 ∧ (∀ h, h < 16 → h ≠ v % 16 → t.forest? p h = s.forest? p h) ∧ QuietMemory s t) ∧
    ((∀ e ∈ (s.sched p).jobs, e.2.st ≠ .resident ∨ e.2.id ≠ bits v 31 0) ∨ bits v 37 32 ≠ p →
      exec .bstop s = .next (s.record { dom := s.writerDom who, src := 7, sub := 2 })) ∧
    (∀ k j, bits v 37 32 = p → Keyed s p k j → (∀ e ∈ (s.sched p).jobs, e.2.id = bits v 31 0 → e = (k, j)) → j.bands[bits v 53 48]? = none →
      exec .bstop s = .next (s.record { dom := s.writerDom who, src := 7, sub := 2 })) ∧
    (∀ k j g, bits v 37 32 = p → Keyed s p k j → j.st = .resident → j.id = bits v 31 0 → (∀ e ∈ (s.sched p).jobs, e.2.id = bits v 31 0 → e = (k, j)) → j.bands[bits v 53 48]? = some g →
      ((∃ c ∈ g.cores, (s.core c).stopped = true) → exec .bstop s = .next (s.record { dom := s.writerDom who, src := 7, sub := 2 })) ∧
      ((∀ c ∈ g.cores, (s.core c).stopped = false) → j.cores.Nodup →
        let word := BitVec.ofNat 64 ((g.w - 1) * 2 ^ 36 + (g.h - 1) * 2 ^ 32 + (j.bands.length - 1) * 2 ^ 24 + bits v 53 48 * 2 ^ 16)
        ∃ t e, exec .bstop s = .next t ∧ QuietMemory s t ∧ t.errs = s.errs ++ [e] ∧ e.src = 1 ∧ e.sub = 4 ∧ e.dom = p * 2 ^ 10 ∧ e.w4 = p * 2 ^ 32 + j.id ∧ e.w5 = word.toNat ∧
          ∀ c ∈ j.cores, (c ∈ g.cores → (t.core c).stopped = true) ∧ ∀ n, n < 4 → (s.ctx (.ctx c n)).live = true →
            (c ∈ g.cores → (s.ctx (.ctx c n)).st = .waiting → (t.ctx (.ctx c n)).st = .waiting ∧ (t.ctx (.ctx c n)).why = 6) ∧
            (c ∈ g.cores → (s.ctx (.ctx c n)).st ≠ .waiting → (t.ctx (.ctx c n)).freezing = true ∧ (t.ctx (.ctx c n)).st = (s.ctx (.ctx c n)).st) ∧
            (c ∉ g.cores → ¬ ((s.ctx (.ctx c n)).st = .waiting ∧ (s.ctx (.ctx c n)).why = 6) → has (t.ctx (.ctx c n)).pend 0x23 = true ∧ look 0 (t.ctx (.ctx c n)).pend 0x23 = word)))

/-- R434: PRESET ends every context of the partition's cores, empties their inboxes, invalidates their PLB entries, resets the event units of its columns, closes its forests and drops its manifests and routes; memory keeps its
contents, and so do PCOLS and the counts of records; while an engine operation of one of its cores runs, the store is not complete. -/
def Sys2Proof.Claims.PartitionReset : Prop :=
  ∀ (s : State) (who p : Nat) (rest : List Nat), s.args = who :: p :: rest → NoChunks s → (s.cores.map (·.1)).Nodup →
    ∃ t, exec .preset s = .next t ∧ (∀ k, k < 2 ^ 42 → t.byte k = s.byte k) ∧ (t.sched p).jobs = [] ∧ (t.sched p).routes = [] ∧ (∀ h, h < 16 → t.forest? p h = none) ∧
      (t.part p).pcols = (s.part p).pcols ∧ (t.part p).perrRing = (s.part p).perrRing ∧ (t.part p).perrLog = (s.part p).perrLog ∧
      (∀ col, HasColumn s p col → (t.col col).ev = {}) ∧
      (∀ core n k, n < 4 → HasColumn s p (colOf core) → (look {} (s.ctx (.ctx core n)).slots k).st = .running → t.underWay .preset s.args = true) ∧
      ∀ core, HasColumn s p (colOf core) → (t.core core).inbox = [] ∧ (t.core core).courier = none ∧ (t.core core).resident = false ∧ (t.core core).bandId = 0 ∧ (t.core core).caravanId = 0 ∧
        (∀ e, (look {} (t.core core).plb e).v = false) ∧ ∀ n, n < 4 → (t.ctx (.ctx core n)).live = false

/-- R54, R55, R435: the tiers of a column go off only where it belongs to no partition, and its reservoir then reads zero; a DRAM tier goes off, and comes up: what was held for it is written back, and nothing of it stays pinned.
That a tier keeps its contents while it is off is the model's choice (log 50). -/
def Sys2Proof.Claims.DarkTiers : Prop :=
  ∀ (s : State) (kind st x : Nat), s.args = [kind, st, x] →
    (kind = 0 → (∃ t, exec .tierPowerOff s = .next t ∧ (8 * st + x) ∈ t.dark ∧ (∀ k, k ∈ s.dark → k ∈ t.dark) ∧ QuietMemory s t) ∧
      (∃ t, exec .darkTierPowerUp s = .next t ∧ (∀ k, k ∈ t.dark ↔ k ∈ s.dark ∧ k ≠ 8 * st + x) ∧ QuietMemory s t ∧
        (∀ l ∈ t.slices, ∀ e ∈ l.2.sectors, isDram (e.tag.key * 256) = true → tierOf (e.tag.key * 256) = 8 * st + x → e.kept = false ∧ e.pinned = false) ∧
        (∀ l ∈ s.slices, ∀ e ∈ l.2.sectors, e.kept = true → isDram (e.tag.key * 256) = true → tierOf (e.tag.key * 256) = 8 * st + x →
          ∀ o, o < 256 → t.rawByte (e.tag.key * 256 + o) = s.byte (e.tag.key * 256 + o)))) ∧
    (kind = 1 → ((s.partOfCol (64 * st + x)).isSome = true → exec .tierPowerOff s = .next s) ∧
      (s.partOfCol (64 * st + x) = none → s.darkCols.contains (64 * st + x) = false → ∃ t, exec .tierPowerOff s = .next t ∧ (64 * st + x) ∈ t.darkCols ∧ (t.col (64 * st + x)).fill = 0 ∧
        (t.col (64 * st + x)).cap = 0 ∧ QuietMemory s t) ∧
      (∃ t, exec .darkTierPowerUp s = .next t ∧ (∀ k, k ∈ t.darkCols ↔ k ∈ s.darkCols ∧ k ≠ 64 * st + x) ∧ QuietMemory s t))

/-- R436 to R438: a store to SNAP.GO triggers, the timer and the pin where they are armed; a trigger while one is held or pending only counts. At the latch held is set and the count steps; every column latches its registers, its
fill, its capacity and the count, every core its pcs, statuses, retired count, the holder's spent amount and the count; a dark column's fill and capacity read zero. A release clears held. That a TCMP
which has passed triggers at once, and that the latched count includes the snapshot being latched, is the model's reading (log 49). -/
def Sys2Proof.Claims.Snapshots : Prop :=
  ∀ (s : State),
    (∃ t, exec .snapGo s = .next t ∧ Triggered s t) ∧
    (∃ t, exec .snapRelease s = .next t ∧ t.snap = { s.snap with ctl := s.snap.ctl &&& ~~~(0x200#64) } ∧ QuietMemory s t) ∧
    (bit s.snap.ctl.toNat 2 = true → ∃ t, exec .dbgsnapN s = .next t ∧ Triggered s t) ∧ (bit s.snap.ctl.toNat 2 = false → exec .dbgsnapN s = .next s) ∧
    (bit s.snap.ctl.toNat 1 = true → s.snap.tcmp ≠ 0 → s.snap.tcmp.toNat ≤ s.time → ∃ t, exec .snapTimer s = .next t ∧ Triggered s t) ∧
    (bit s.snap.ctl.toNat 1 = false ∨ s.snap.tcmp = 0 ∨ s.time < s.snap.tcmp.toNat → exec .snapTimer s = .next s) ∧
    (s.snap.due = none → exec .snapshotLatch s = .next s) ∧
    (∀ T, s.snap.due = some T → s.snap.latched + 1 < 2 ^ 32 →
      let n := s.snap.latched + 1
      ∃ t, exec .snapshotLatch s = .next t ∧ t.snap.latched = n ∧ t.snap.time = BitVec.ofNat 64 T ∧ t.snap.due = none ∧ bit t.snap.ctl.toNat 9 = true ∧ QuietMemory s t ∧
        (∀ col, col < 512 → (∀ i, i < 15 → t.colLatched col (0x200 + 8 * i) = (s.colRead col (8 * i)).toNat) ∧ t.colLatched col 0x278 = (if s.darkCols.contains col then 0 else (s.col col).fill % 2 ^ 64) ∧
          t.colLatched col 0x280 = (if s.darkCols.contains col then 0 else (s.col col).cap % 2 ^ 64) ∧ t.colLatched col 0x288 = n) ∧
        ∀ core, (∀ k, k < 4 → t.coreLatched core k = (s.regs (.ctx core k)).pc.toNat) ∧ t.coreLatched core 5 = (s.core core).retired % 2 ^ 64 ∧ t.coreLatched core 7 = n ∧
          (∀ k, k < 4 → bits (t.coreLatched core 4) (16 * k + 15) (16 * k) = (s.ctx (.ctx core k)).status % 2 ^ 16) ∧
          (∀ h, (s.core core).holder = some h → t.coreLatched core 6 = (s.ctx (.ctx core h)).rsvSpent % 2 ^ 32) ∧ ((s.core core).holder = none → t.coreLatched core 6 = 0))

/-- R54, R55, R422 to R438: partitions, dark tiers (whose contents log 50 keeps) and snapshots (whose timer and count log 49 reads so). -/
def Obligations.PartitionsAndSnapshots : Prop :=
  Claims.Membership ∧ Claims.BandStops ∧ Claims.PartitionReset ∧ Claims.DarkTiers ∧ Claims.Snapshots

/-! ## Translation, migration, promotion, fills -/

namespace Sys2Proof.Claims

open Sys2Proof Sys2Proof.Machine

/-- Whether an address lies in the aligned range from `base`, of `size` bytes (R395). -/
def InRange (base size va : Nat) : Prop := bits va 55 0 / size = base / size

/-- Whether a value stored to TINV is well formed (R395). -/
def GoodTinv (t : Nat) : Prop :=
  bits t 63 56 = 0 ∧ bits t 15 6 = 0 ∧ 16 ≤ bits t 5 0 ∧ bits t 5 0 ≤ 56 ∧ bits t 55 16 * 2 ^ 16 % 2 ^ bits t 5 0 = 0

/-- Nothing of a range stands in a cache: no L1 or L2 lookup finds it, and a translation of it is walked afresh (R395). -/
structure Dropped (t : State) (base size : Nat) : Prop where
  l1 : ∀ core va, InRange base size (va / 256 * 256) → (t.core core).l1Find va = none
  l2 : ∀ k va, InRange base size (va / 256 * 256) → (t.slice k).find va = none
  icache : ∀ core b, b ∈ (t.core core).icache → ¬ InRange base size (b.va * 64)
  fresh : ∀ tc va, va < 2 ^ 56 → InRange base size va → t.translate tc va = t.walk va

/-- The count of a unit for a stack (R396). -/
def unitCount (s : State) (k u stack : Nat) : Nat := look 0 (look [] (look [] s.xlat.counts k) u) stack

/-- The next entry of a pool ring: its value, and the pointer word once it has been taken (R394). -/
def PoolHead (s : State) (off v ptr : Nat) : Prop :=
  let base := (look 0 s.xlat.rings off).toNat
  let p := (look 0 s.xlat.rings (off + 8)).toNat
  let size := bits p 63 48
  let head := bits p 31 16
  size ≠ 0 ∧ head ≠ bits p 15 0 ∧ (∃ T key, s.devCheck none ((base + 8 * head) % 2 ^ 64) 8 rdR = .ok T ∧ T.key? = some key ∧ v = leNat (s.devRead T 8)) ∧
  ptr = size * 2 ^ 48 + bits p 47 32 * 2 ^ 32 + (head + 1) % size * 2 ^ 16 + bits p 15 0

/-- A pool ring without an entry. -/
def PoolEmpty (s : State) (off : Nat) : Prop :=
  let p := (look 0 s.xlat.rings (off + 8)).toNat
  bits p 63 48 = 0 ∨ bits p 31 16 = bits p 15 0

/-- A message of the migration engine of a page. -/
structure Moving (s : State) (id va st frame k : Nat) (l : Leaf) (m : Msg) : Prop where
  args : s.args = [id]
  msg : s.msg? id = some m
  words : m.words = [va, st, frame, k, 0, bits va 55 0 / 2 ^ l.size * 2 ^ l.size, 2 ^ l.size]
  walk : s.walk va = .ok l
  size : l.size = 16 ∨ l.size = 21
  free : s.tokenHolder = none ∧ NoChunks s ∧ NoBankOps s
  sound : State.sound s

/-- No byte of an entry lies in a range of keys, nor does a cached sector stand above it. -/
def Apart (s : State) (entry key n : Nat) : Prop := ∀ o, o < 8 → (entry + o < key ∨ key + n ≤ entry + o) ∧ has s.under (entry + o) = false

end Sys2Proof.Claims

open Sys2Proof Sys2Proof.Machine Sys2Proof.Claims

/-- R391, R395: a malformed TINV only makes a record. One that a priority chunk holds up waits. Any other leaves nothing of its range in a cache, writes dirty sectors back where their memory is not dark, and squashes the chunks
that hold a granule of it; no byte changes for those who read. -/
def Sys2Proof.Claims.Invalidation : Prop :=
  ∀ (s : State) (who t : Nat), s.args = [who, t] →
    let base := bits t 55 16 * 2 ^ 16
    let size := 2 ^ bits t 5 0
    (¬ GoodTinv t → exec .tinv s = .next (s.record { dom := s.writerDom who, src := 10, sub := 1, w4 := t })) ∧
    (∀ code g, GoodTinv t → s.tokenHolder = some code → (s.ctx (.ofCode code)).token = true → (s.ctx (.ofCode code)).chunk.run = true → g ∈ (s.ctx (.ofCode code)).chunk.vas →
      InRange base size (g * 256) → exec .tinv s = .next s) ∧
    (GoodTinv t → s.tokenHolder = none →
      ∃ r, exec .tinv s = .next r ∧ Dropped r base size ∧ (s.flaws = [] → r.errs = s.errs) ∧ (NoChunks s → QuietMemory s r) ∧
        (∀ l ∈ s.slices, ∀ e ∈ l.2.sectors, NoChunks s → e.dirty = true → e.kept = false → InRange base size (e.tag.va * 256) → s.darkAt (e.tag.key * 256) = false →
          ∀ o, o < 256 → r.rawByte (e.tag.key * 256 + o) = s.byte (e.tag.key * 256 + o)) ∧
        (∀ ag ∈ s.agents, ∀ g ∈ (s.ctx ag).chunk.vas, (s.ctx ag).chunk.run = true → (s.ctx ag).token = false → InRange base size (g * 256) → (r.ctx ag).chunk.run = false))

/-- R396, R397: a count steps the counter of its unit and stack. A migration begins where the threshold and the home stack's count are met and the leaf may move: the page is held and its new frame taken from the pool; without a frame
it is refused and the unit's counters are cleared. Counters are halved at the multiples of 1,000,000 ns. -/
def Sys2Proof.Claims.Counting : Prop :=
  (∀ (s : State) (id va home st thresh : Nat) (m : Msg), s.args = [id] → s.msg? id = some m → m.words = [va, home, st, thresh] →
    let k := 64 * home + bits va 21 16
    let u := bits va 55 16
    let c := min 65535 (unitCount s k u st + 1)
    let hot := thresh ≠ 0 ∧ st ≠ home ∧ thresh ≤ c ∧ unitCount s k u home < c
    (¬ hot → ∃ t, exec .migrationCount s = .next t ∧ unitCount t k u st = c ∧ (∀ x, x ≠ st → unitCount t k u x = unitCount s k u x) ∧ t.msg? id = none ∧ t.xlat.held = s.xlat.held ∧
      t.xlat.refused = s.xlat.refused ∧ QuietMemory s t) ∧
    (∀ l, hot → (s.drop id).walk va = .ok l →
      let base := bits va 55 0 / 2 ^ l.size * 2 ^ l.size
      let off := 0x100 + 16 * (2 * st + (if l.size = 21 then 1 else 0))
      (l.ty ≠ 0 ∨ l.pin = true ∨ l.size = 30 → ∃ t, exec .migrationCount s = .next t ∧ t.xlat.held = s.xlat.held ∧ t.xlat.refused = s.xlat.refused ∧ unitCount t k u st = c ∧ QuietMemory s t) ∧
      (l.ty = 0 → l.pin = false → l.size ≠ 30 → l.stack = home → s.heldOver base (2 ^ l.size) = false →
        (s.darkAt (l.key va) = true ∨ PoolEmpty s off → ∃ t, exec .migrationCount s = .next t ∧ t.xlat.refused = (s.xlat.refused + 1) % 2 ^ 32 ∧ t.xlat.held = s.xlat.held ∧
          (∀ x, unitCount t k u x = 0) ∧ QuietMemory s t) ∧
        (∀ v ptr, s.darkAt (l.key va) = false → PoolHead (s.drop id) off v ptr →
          ∃ t i m', exec .migrationCount s = .next t ∧ t.xlat.held = s.xlat.held ++ [(base, 2 ^ l.size)] ∧ look 0 t.xlat.rings (off + 8) = BitVec.ofNat 64 ptr ∧ (i, m') ∈ t.flight ∧
            m'.ev = ⟨.migrationFinish, [i]⟩ ∧ m'.words = [va, st, v, k, 0, base, 2 ^ l.size] ∧ QuietMemory s t)))) ∧
  (∀ (s : State), ∃ t, exec .counterHalving s = .next t ∧ (∀ k u x, unitCount t k u x = unitCount s k u x / 2) ∧ ((s.time / 1000000 + 1) * 1000000, ⟨.counterHalving, []⟩) ∈ t.agenda ∧ QuietMemory s t)

/-- R398: a migration moves the page: every byte of the new frame is that of the old one, the leaf names the new stack and frame and nothing else of it changes, nothing of the page stands in a cache; the held accesses go on
to it, and the old frame goes to the freed ring, for whose room the migration waits. -/
def Sys2Proof.Claims.Migrations : Prop :=
  (∀ (s : State) (id va st frame k : Nat) (l : Leaf) (m : Msg), Moving s id va st frame k l m →
    let base := bits va 55 0 / 2 ^ l.size * 2 ^ l.size
    let n := 2 ^ l.size
    let src := dramKey l.stack (l.frame * 2 ^ 16)
    let dst := dramKey st (frame * 2 ^ 16)
    st < 8 → frame < 2 ^ 32 → (src + n ≤ dst ∨ dst + n ≤ src) → Apart s l.entry src n → Apart s l.entry dst n → s.freedRoom = 0 →
    ∃ t i m', exec .migrationFinish s = .next t ∧ (∀ o, o < n → t.byte (dst + o) = s.byte (src + o)) ∧
      (∀ q, (q < dst ∨ dst + n ≤ q) → (q < l.entry ∨ l.entry + 8 ≤ q) → t.byte q = s.byte q) ∧
      (let w := t.rawValue l.entry 8
       let v := s.rawValue l.entry 8
       bits w 47 16 = frame ∧ bits w 15 13 = st ∧ bits w 63 48 = bits v 63 48 ∧ bits w 12 0 = bits v 12 0) ∧
      Dropped t base n ∧ t.xlat.held = s.xlat.held.erase (base, n) ∧ t.xlat.migrations = s.xlat.migrations ∧ (i, m') ∈ t.flight ∧ m'.ev = ⟨.migrationFinish, [i]⟩ ∧
      m'.words = [va, st, frame, k, 1, base, n, l.frame]) ∧
  (∀ (s : State) (id va st frame k base n old : Nat) (m : Msg), s.args = [id] → s.msg? id = some m → m.words = [va, st, frame, k, 1, base, n, old] →
    let p := (look 0 s.xlat.rings 0x208).toNat
    let size := bits p 63 48
    let at_ := ((look 0 s.xlat.rings 0x200).toNat + 8 * bits p 15 0) % 2 ^ 64
    (s.freedRoom = 0 → ∃ t i m', exec .migrationFinish s = .next t ∧ (i, m') ∈ t.flight ∧ m'.words = m.words ∧ t.xlat = s.xlat ∧ QuietMemory s t) ∧
    (∀ sl tg key, s.freedRoom ≠ 0 → old < 2 ^ 64 → NoChunks s → NoBankOps s → s.devCheck none at_ 8 wrR = .ok (.mem sl tg key) →
      ∃ t, exec .migrationFinish s = .next t ∧ (∀ q, t.byte q = storedByte s key 8 old q) ∧ look 0 t.xlat.rings 0x208 = BitVec.ofNat 64 (bits p 63 16 * 2 ^ 16 + (bits p 15 0 + 1) % size) ∧
        t.xlat.held = s.xlat.held ∧ t.xlat.migrations = (s.xlat.migrations + 1) % 2 ^ 32 ∧ ∀ x, unitCount t k (bits va 55 16) x = 0))

/-- R399: a store to PROMOTE gives PSTAT: 2 for a malformed value or a range that may not be merged, 3 while the stack runs a promotion, 4 where the freed ring lacks room, else 1, and the range is held. A promotion that still may be made
copies every page to its place in the large frame and writes the large leaf in place of the table pointer; the old frames and the table
enter the freed ring, for whose room it waits. One that may not be made any more ends with 2. That the table enters by its address, after the frames, and that a
promotion waits so or ends so, is the model's reading (log 54). -/
def Sys2Proof.Claims.Promotions : Prop :=
  (∀ (s : State) (who t : Nat), s.args = [who, t] →
    let big := bit t 0
    let base := bits t 55 21 * 2 ^ 21
    let size := if big then 2 ^ 30 else 2 ^ 21
    let good := bits t 63 56 = 0 ∧ bits t 20 1 = 0 ∧ base % size = 0
    (¬ good → exec .promote s = .next (s.modXlat (fun x => { x with pstat := 2 }))) ∧ (∀ e, good → s.walk base = .error e → exec .promote s = .next (s.modXlat (fun x => { x with pstat := 2 }))) ∧
    (∀ f, good → s.walk base = .ok f → (f.ty ≠ 0 ∨ f.stack ∉ s.xlat.promoting) → s.promoteLeaves base big = none → exec .promote s = .next (s.modXlat (fun x => { x with pstat := 2 }))) ∧
    (∀ f, good → s.walk base = .ok f → f.ty = 0 → f.stack ∈ s.xlat.promoting → exec .promote s = .next (s.modXlat (fun x => { x with pstat := 3 }))) ∧
    (∀ f ls, good → s.walk base = .ok f → f.stack ∉ s.xlat.promoting → s.promoteLeaves base big = some ls →
      (s.freedRoom < ls.length + 1 → exec .promote s = .next (s.modXlat (fun x => { x with pstat := 4 }))) ∧
      (ls.length + 1 ≤ s.freedRoom → ∃ r m, exec .promote s = .next r ∧ r.xlat.pstat = 1 ∧ r.xlat.held = s.xlat.held ++ [(base, size)] ∧ r.flight = s.flight ++ [(s.nextMsg, m)] ∧
        m.ev = ⟨.promotionFinish, [s.nextMsg]⟩ ∧ m.words = [t, f.stack] ∧ QuietMemory s r))) ∧
  (∀ (s : State) (base i : Nat) (l f : Leaf) (ls : List Leaf), s.promoteLeaves base false = some ls → s.walk base = .ok f → ls[i]? = some l →
    ls.length = 32 ∧ s.walk (base + i * 2 ^ 16) = .ok l ∧ l.ty = 0 ∧ l.pin = false ∧ l.size = 16 ∧ l.stack = f.stack ∧ l.own = f.own) ∧
  (∀ (s : State) (id t : Nat) (m : Msg) (x : Nat), s.args = [id] → s.msg? id = some m → m.words = [t, x] → s.tokenHolder = none → NoBankOps s → NoChunks s → State.sound s → bit t 0 = false →
    let base := bits t 55 21 * 2 ^ 21
    let n := 2 ^ 21
    (s.unhold base n).heldOver base n = false →
    (s.promoteLeaves base false = none → ∃ r, exec .promotionFinish s = .next r ∧ r.xlat.pstat = 2 ∧ r.xlat.held = s.xlat.held.erase (base, n) ∧
      r.xlat.promotions = s.xlat.promotions ∧ QuietMemory s r) ∧
    (∀ f ls key, s.promoteLeaves base false = some (f :: ls) → s.entryKey base 3 = some key → f.own < 2 ^ 16 → f.stack < 8 → f.frame < 2 ^ 19 →
      let new := f.frame * 2 ^ 16 / n * n
      let u := (s.drop id).mergePages f ls key base n 16
      let freed := (f :: ls).map (·.frame) ++ [bits (s.rawValue key 8) 47 8 * 2 ^ 8]
      (Apart s key (dramKey f.stack new) n → (∀ l ∈ f :: ls, Apart s key (dramKey l.stack (l.frame * 2 ^ 16)) (2 ^ 16)) → Dropped u base n ∧
        (∀ i l o, (f :: ls)[i]? = some l → o < 2 ^ 16 → u.byte (dramKey f.stack (new + i * 2 ^ 16) + o) = s.byte (dramKey l.stack (l.frame * 2 ^ 16) + o)) ∧
        u.rawValue key 8 = f.own * 2 ^ 48 + new / 2 ^ 16 * 2 ^ 16 + f.stack * 2 ^ 13 + 3) ∧
      (u.freeFrames freed = none → exec .promotionFinish s = .next s) ∧
      (∀ v, u.freeFrames freed = some v → ∃ r, exec .promotionFinish s = .next r ∧ r.xlat.pstat = 0 ∧ r.xlat.promotions = (v.xlat.promotions + 1) % 2 ^ 32 ∧
        r.xlat.held = v.xlat.held.erase (base, n) ∧ r.xlat.rings = v.xlat.rings ∧ QuietMemory v r)))

/-- R51, R329, R394: fill data of a sector that the slice homes raises FILL for a handler of its domain, and stands in the slice unless it is delivered without allocation; it changes no byte. Firmware writes tr.root; through a
supervisor's page the store is ignored. -/
def Sys2Proof.Claims.FillsAndRegisters : Prop :=
  (∀ (s : State) (k va : Nat) (l : Leaf), s.args = [k, va] → s.walk va = .ok l → l.ty < 2 → homeSlice l.stack va = k → (s.slice k).find va = none → NoBankOps s →
    s.darkLine ⟨va / 256, l.key va / 256, k, l.ty, l.own⟩ = false →
    ∃ t, exec .l2Fill s = .next t ∧ QuietMemory s t ∧
      (Config.bypass s.seq = false → va / 1024 ∉ (s.slice k).noAlloc → (State.makeRoom 17 s k (va / 256 / 4) (l.key va / 256 / 4)).2 = true → ((t.slice k).find va).isSome = true) ∧
      (∀ e, (s.slice k).handler 1 (va / 256 * 256 / 1024 * 1024) l.own = some e → (s.slice k).queue.length ≤ 30 → ∃ x ∈ (t.slice k).queue, x.kind = 1 ∧ x.entry = e ∧ x.depth = 0)) ∧
  (∀ (s : State) (who v : Nat), v < 2 ^ 64 → (s.args = [who, 0xFF02 * 2 ^ 48, v] → exec .registerWrite s = .next { s with trRoot := BitVec.ofNat 64 v }) ∧ s.xlatWrite who false 0 v = s) ∧
  (∀ (s : State) (who p v : Nat), v < 2 ^ 64 → p < 64 → s.args = [who, 0xFF04 * 2 ^ 48 + 4096 * p + 0x48, v] →
    ∃ t, exec .registerWrite s = .next t ∧ (t.part p).prsv = v % 2 ^ 32 ∧ (∀ q, q ≠ p → t.part q = s.part q) ∧ QuietMemory s t)

/-- R391 to R399: translation, migration, promotion (the table's entry in the freed ring, the wait for it and a late refusal as log 54 reads them), fills. -/
def Obligations.TranslationAndPages : Prop :=
  Claims.Invalidation ∧ Claims.Counting ∧ Claims.Migrations ∧ Claims.Promotions ∧ Claims.FillsAndRegisters

/-! ## Start-up, attestation, checkpoints and the host -/

namespace Sys2Proof.Claims

open Sys2Proof Sys2Proof.Machine

/-- The bound of each step of a start, in ns (R478). -/
def stepBounds : List (Nat × Nat) :=
  [(1, 5000000000), (2, 100000000), (3, 2000000000), (4, 3000000000), (5, 2000000000), (6, 1000000), (7, 10000000000)]

/-- Step `k` of a start is in progress, and exceeds its bound one ns after it (R478). -/
structure InStep (s t : State) (k : Nat) : Prop where
  stage : t.boot.stage = k
  bound : ∀ ns, (k, ns) ∈ stepBounds → (t.time + ns + 1, ⟨.startStageTimeout, [t.boot.no]⟩) ∈ t.agenda

/-- The first step of a start does its work where the boot ROM takes the image: its key hashes to the fuses and its signature verifies (R480); when it ends is free (log 4). -/
def Verifies (s t : State) : Prop :=
  let bytes (m : List (Nat × BitVec 8)) (n : Nat) : List (BitVec 8) := (List.range n).map (fun i => look 0 m i)
  let good := Config.sha256 (bytes s.rom.key 64) = s.rom.fused ∧ Config.verifies (bytes s.rom.key 64) (bytes s.rom.sig 29792) (bytes s.rom.image s.rom.imageLen) = true
  t.rom = s.rom ∧ ∃ at_, (good → (at_, ⟨.startStepEnd, [t.boot.no, 1]⟩) ∈ t.agenda) ∧ (¬ good → (at_, ⟨.startStepEnd, [t.boot.no, 0]⟩) ∈ t.agenda)

/-- A start, warm or cold, has begun with its first step; what ran has ended, and left no byte of a chunk that had not committed. -/
structure Begun (s t : State) (warm : Bool) : Prop where
  step : InStep s t 1
  image : Verifies s t
  kind : t.boot.isWarm = (warm && decide (s.boot.fails < 3))
  clear : t.boot.fail = false ∧ t.boot.done = false
  fails : t.boot.fails = s.boot.fails
  ended : ∀ ag ∈ s.agents, (t.ctx ag).chunk.run = false
  memory : NoChunks s → NoBankOps s → QuietMemory s t

/-- A start has failed in its present step (R477, R478). -/
structure Failed (s t : State) : Prop where
  fail : t.boot.fail = true
  stage : t.boot.stage = s.boot.stage
  fails : t.boot.fails = if s.boot.isWarm then min 3 (s.boot.fails + 1) else s.boot.fails
  memory : NoBankOps s → QuietMemory s t
  silent : t.issues = false

/-- The byte of a checkpoint image at which a byte of the module stands, from the start of the image: the header, the lit tiers of each stack's DRAM
in order, the scratchpads in order (R482). -/
def imageByte (s : State) (key o : Nat) : Prop :=
  let lit (n : Nat) : Nat := ((List.range n).filter (fun t => decide (t ∉ s.dark))).length
  (∃ tier, tier < 64 ∧ tier ∉ s.dark ∧ tier * 2 ^ 32 ≤ key ∧ key < (tier + 1) * 2 ^ 32 ∧ o = 4096 + lit tier * 2 ^ 32 + (key - tier * 2 ^ 32)) ∨
  (∃ core off, core < 100352 ∧ off < 2 ^ 17 ∧ key = scratchKey core off ∧ o = 4096 + lit 64 * 2 ^ 32 + core * 2 ^ 17 + off)

/-- The number in 8 little-endian bytes of memory. -/
def wordAt (s : State) (key : Nat) : Nat := s.value key 8

/-- A message that the host has sent stands first on its channel. -/
def HostMsg (s : State) (words : List Nat) : Prop := ∃ id m, s.args = [id] ∧ s.msg? id = some m ∧ m.words = words

/-- A refused access of the host latches its address and does nothing else (R464, R466). -/
def Latched (s t : State) (port addr : Nat) : Prop :=
  (t.hostPort port).err = BitVec.ofNat 64 (2 ^ 63 + addr) ∧ t.errs = s.errs ∧ QuietMemory s t ∧ (∀ q, q ≠ port → t.hostPort q = s.hostPort q) ∧ t.boot = s.boot ∧ t.cores = s.cores

/-- No sector of a granule stands in a slice. -/
def Unheld (t : State) (g : Nat) : Prop := ∀ l ∈ t.slices, ∀ e ∈ l.2.sectors, e.tag.key = g → e.kept = true

end Sys2Proof.Claims

open Sys2Proof Sys2Proof.Machine Sys2Proof.Claims

/-- R477, R478, R480: power-on starts cold with memory that holds nothing; a store of go and PERST# start with the kind held, but cold when three warm starts in a row have failed; the first step does its work
where the image is the one that the fuses name. That `time` is 0 and which fields stand at their reset values after a power-on is log 39's reading, that scratchpads and handler memory are zero then is log 2's choice. -/
def Sys2Proof.Claims.Starts : Prop :=
  (∀ s : State, ∃ t, exec .powerOn s = .next t ∧ InStep s t 1 ∧ Verifies s t ∧ t.boot.isWarm = false ∧ t.boot.fails = 0 ∧ t.boot.done = false ∧ t.boot.fail = false ∧ t.boot.warm = false ∧
    t.boot.keep = true ∧ t.time = 0 ∧ t.poison = [] ∧ ∀ k, k < 2 ^ 64 → t.byte k = 0) ∧
  (∀ (s : State) (v : Nat), s.args = [v] → v < 2 ^ 64 → ∃ t, exec .startGo s = .next t ∧ Begun s t (bit v 48) ∧ t.boot.warm = bit v 48 ∧ t.boot.keep = bit v 49) ∧
  (∀ s : State, ∃ t, exec .perst s = .next t ∧ Begun s t s.boot.warm ∧ t.boot.warm = s.boot.warm ∧ t.boot.keep = s.boot.keep)

/-- R477, R478: the steps of a start in their order, what each leaves, its bound and its failure; done completes the last. That a step ends, and whether one after the first does its work, is free (log 10); `time` 0, warm and keep
after the sixth are log 39's reading, scratchpads and handler memory of zeros log 2's choice. -/
def Sys2Proof.Claims.StartSteps : Prop :=
  (∀ (s : State) (no ok : Nat), s.args = [no, ok] →
    let b := s.boot
    (no ≠ b.no ∨ b.fail = true → exec .startStepEnd s = .next s) ∧
    (no = b.no → b.fail = false → 1 ≤ b.stage → b.stage ≤ 6 →
      (ok = 0 → ∃ t, exec .startStepEnd s = .next t ∧ Failed s t) ∧
      (ok = 1 →
        (b.stage = 1 → ∃ t, exec .startStepEnd s = .next t ∧ InStep s t (if b.isWarm then 4 else 2) ∧ QuietMemory s t) ∧
        (b.stage = 2 ∨ b.stage = 3 ∨ b.stage = 4 → ∃ t, exec .startStepEnd s = .next t ∧ InStep s t (b.stage + 1) ∧ QuietMemory s t) ∧
        (b.stage = 5 → ∃ t, exec .startStepEnd s = .next t ∧ InStep s t 6 ∧ (∀ k, 2 ^ 64 ≤ k → t.byte k = s.byte k) ∧
          (b.isWarm = true → b.keep = true → QuietMemory s t ∧ t.poison = s.poison) ∧
          (¬ (b.isWarm = true ∧ b.keep = true) → t.poison = [] ∧ ∀ k, k < 2 ^ 64 → t.byte k = 0)) ∧
        (b.stage = 6 → ∃ t, exec .startStepEnd s = .next t ∧ InStep s t 7 ∧ (∀ core n, (t.ctx (.ctx core n)).st = .idle) ∧ (∀ core e, (look {} (t.core core).plb e).v = false) ∧
          (∀ col, (t.col col).ev = {}) ∧ (∀ k, (t.slice k).sectors = [] ∧ (t.slice k).queue = []) ∧ (t.ctx .iluet).st = .ready ∧ (∀ n, (t.regs .iluet).S n = 0) ∧ t.fw.fstat = 0 ∧ t.time = 0 ∧ t.boot.warm = false ∧ t.boot.keep = true ∧
          (∀ k, k < 2 ^ 42 ∨ 2 ^ 64 ≤ k → t.byte k = s.byte k) ∧ (∀ g, 64 * g < 2 ^ 42 ∨ 2 ^ 64 ≤ 64 * g → (g ∈ t.poison ↔ g ∈ s.poison)))))) ∧
  (∀ (s : State) (no : Nat), s.args = [no] →
    (no = s.boot.no → s.boot.fail = false → s.boot.done = false → ∃ t, exec .startStageTimeout s = .next t ∧ Failed s t) ∧
    (no ≠ s.boot.no ∨ s.boot.fail = true ∨ s.boot.done = true → exec .startStageTimeout s = .next s)) ∧
  (∀ s : State, (s.boot.stage = 7 → s.boot.fail = false → s.boot.done = false →
      ∃ t, exec .startDone s = .next t ∧ t = { s with boot := t.boot } ∧ t.boot = { s.boot with done := true, fails := 0 }) ∧
    (s.boot.stage ≠ 7 ∨ s.boot.fail = true ∨ s.boot.done = true → exec .startDone s = .next s)) ∧
  (∀ s : State, s.boot.stage ≠ 7 ∨ s.boot.fail = true → (∀ ag, Turn.run ag ∉ s.turns) ∧ ∀ id m, Turn.msg id m ∈ s.turns → m.ofHost = true)

/-- R481: the mailbox runs one request at a time, for a doorbell of 1; the report begins with the nonce, and says the same of one start each time. Its time is free, within 2 s (log 4), and so are the digests (log 16). -/
def Sys2Proof.Claims.Attestation : Prop :=
  (∀ (s : State) (v : Nat), s.args = [v] →
    (v ≠ 1 ∨ s.boot.mrun = true → exec .attestDoorbell s = .next s) ∧
    (v = 1 → s.boot.mrun = false → ∃ t at_, exec .attestDoorbell s = .next t ∧ t.boot.mrun = true ∧ t.boot.mdone = false ∧ at_ ≤ s.time + 2000000000 ∧ (at_, ⟨.attestReport, []⟩) ∈ t.agenda ∧
      (∀ i, i < 32 → t.boot.nonce[i]? = some (s.mailByte i)) ∧ t.cores = s.cores ∧ QuietMemory s t)) ∧
  (∀ s : State, (s.boot.mrun = false → exec .attestReport s = .next s) ∧
    (s.boot.mrun = true → ∃ t, exec .attestReport s = .next t ∧ t.boot.mrun = false ∧ t.boot.mdone = true ∧ t.mailByte 0xFFF0 = 1 ∧
      (∀ i b, i < 32 → s.boot.nonce[i]? = some b → t.mailByte (0x100 + i) = b) ∧
        (∀ i, i < 8 → s.boot.stages ≤ 64 → t.mailByte (0x100 + 56 + 32 * s.boot.stages + i) = BitVec.ofNat 8 (s.boot.stages / 2 ^ (8 * i))) ∧ QuietMemory s t)) ∧
  (∀ s u t v : State, s.boot.mrun = true → u.boot.mrun = true → s.boot.count = u.boot.count → s.boot.isWarm = u.boot.isWarm → s.boot.stages = u.boot.stages →
    exec .attestReport s = .next t → exec .attestReport u = .next v → ∀ o, 32 ≤ o → o < 64 + 32 * s.boot.stages → t.mailByte (0x100 + o) = v.mailByte (0x100 + o))

/-- R482 to R484: a checkpoint pauses issue, and its end writes the image of one moment: DRAM of lit tiers and scratchpads at their places, poisoned granules as zeros. Dirty sectors have been written back then. One that runs is not
started again; with no link it ends at once with an error. Whether a write of the image fails is free (log 10); that the header's time word is that of the pause, and the image that of the checkpoint's end, is log 58's reading. -/
def Sys2Proof.Claims.Checkpoints : Prop :=
  (∀ (s : State) (p : Nat), s.args = [p] →
    (s.boot.ckRun = true → exec .checkpointGo s = .next s) ∧
    (s.boot.ckRun = false → (s.hostPort 0).up = false → (s.hostPort 1).up = false →
      ∃ t, exec .checkpointGo s = .next t ∧ t = { s with ports := t.ports } ∧ ∀ q, t.hostPort q = if q < 2 then { s.hostPort q with ckDone := true, ckErr := true } else s.hostPort q) ∧
    (s.boot.ckRun = false → (s.hostPort 0).up = true ∨ (s.hostPort 1).up = true →
      ∃ t, exec .checkpointGo s = .next t ∧ t.boot.ckRun = true ∧ (∀ q, q < 2 → (t.hostPort q).ckDone = false ∧ (t.hostPort q).ckErr = false) ∧ t.boot.ckPort = (if p = 1 then 1 else 0) ∧
        t.boot.ckTime = s.time ∧ (∃ e ∈ t.flight, e.2.ev = ⟨.checkpointEnd, []⟩) ∧ (s.time + 1500000000, ⟨.checkpointEnd, []⟩) ∈ t.agenda ∧ (NoChunks s → QuietMemory s t))) ∧
  (∀ s : State, s.boot.ckRun = true → ∀ ag, Turn.run ag ∉ s.turns) ∧
  (∀ s : State,
    (s.boot.ckRun = true → s.unitsBusy = true → ∃ t, exec .checkpointEnd s = .next t ∧ t.boot = s.boot ∧ QuietMemory s t ∧ ∃ e ∈ t.flight, e.2.ev = ⟨.checkpointEnd, []⟩) ∧
    (∀ ag ∈ s.agents, s.boot.ckRun = true → s.unitsBusy = false → (s.ctx ag).chunk.run = true →
      ∃ t, exec .checkpointEnd s = .next t ∧ t.boot = s.boot ∧ ∃ e ∈ t.flight, e.2.ev = ⟨.checkpointEnd, []⟩) ∧
    (s.boot.ckRun = true → s.unitsBusy = false → NoChunks s → NoBankOps s → State.sound s → s.dark.Nodup → (∀ t ∈ s.dark, t < 64) →
      let base := hostKey (s.hostPort s.boot.ckPort).ckaddr.toNat
      ∃ t, exec .checkpointEnd s = .next t ∧ t.boot.ckRun = false ∧ (∀ q, q < 2 → (t.hostPort q).ckDone = true ∧ (s.boot.ckBad = true → (t.hostPort q).ckErr = true)) ∧
        (∀ l ∈ t.slices, ∀ e ∈ l.2.sectors, e.dirty = true → s.darkAt (e.tag.key * 256) = true) ∧
        (∀ k o, imageByte s k o → t.byte (base + o) = if k / 64 ∈ s.poison then 0 else s.byte k) ∧ wordAt t base = s.boot.ckTime % 2 ^ 64 ∧
        (∀ k, k < 2 ^ 64 → t.byte k = s.byte k)))

/-- R468, R484: a link of a port comes up or goes down; with the last link a running checkpoint's writes are lost. -/
def Sys2Proof.Claims.PortLinks : Prop :=
  ∀ (s : State) (p : Nat), s.args = [p] →
    (∃ t, exec .hostLinkUp s = .next t ∧ t.hostPort p = { s.hostPort p with up := true } ∧ (∀ q, q ≠ p → t.hostPort q = s.hostPort q) ∧ QuietMemory s t ∧ t.boot = s.boot) ∧
    (∃ t, exec .hostLinkDown s = .next t ∧ t.hostPort p = { s.hostPort p with up := false } ∧ (∀ q, q ≠ p → t.hostPort q = s.hostPort q) ∧ QuietMemory s t ∧
      (s.boot.ckRun = true → (t.hostPort 0).up = false → (t.hostPort 1).up = false → t.boot.ckBad = true) ∧ (s.boot.ckRun = false → t.boot = s.boot))

/-- R469, R470: a doorbell whose bits or target do not pass writes an entry with why into the completion ring, and starts nothing; one that passes sends a courier in HC.DOM; with no room in the ring, behind the entries
of the couriers of the port that are not answered yet, it is refused and nothing tells of it. That a dark column is looked at before the partition, and that a ring of size 0 has no room, is the model's reading (log 37). -/
def Sys2Proof.Claims.Doorbells : Prop :=
  ∀ (s : State) (p w0 pc x y : Nat), w0 < 2 ^ 64 → pc < 2 ^ 64 → x < 2 ^ 64 → y < 2 ^ 64 → s.args = [p, w0 + 2 ^ 64 * pc + 2 ^ 128 * x + 2 ^ 192 * y] →
    let h := s.hostPort p
    let size := bits h.cptr.toNat 63 48
    let wr := bits h.cptr.toNat 47 32
    let room := size ≠ 0 ∧ ∀ i, i ≤ s.couriersOf p → (wr + 1 + i) % size ≠ bits h.cptr.toNat 15 0
    let core := coreOf (bits w0 46 44) (bits w0 43 36) (bits w0 35 28)
    let formed := bit w0 47 = false ∧ bits w0 27 0 = 0 ∧ bits w0 43 36 < 112 ∧ bits w0 35 28 < 112
    let told (t : State) (status : Nat) : Prop :=
      let ring := hostKey (h.cring.toNat / 16 * 16 + 16 * wr)
      t.rawValue ring 8 = bits w0 63 48 * 2 ^ 48 + status ∧ t.rawValue (ring + 8) 8 = w0 ∧ bits (t.hostPort p).cptr.toNat 47 32 = (wr + 1) % size ∧
      bits (t.hostPort p).cptr.toNat 63 48 = size ∧ bits (t.hostPort p).cptr.toNat 15 0 = bits h.cptr.toNat 15 0 ∧ (∀ k, k < ring ∨ ring + 16 ≤ k → t.byte k = s.byte k) ∧
      t.flight = s.flight ∧ t.cores = s.cores
    h.cring.toNat / 16 * 16 + 16 * wr + 16 ≤ 2 ^ 64 → (∀ k, 2 ^ 64 ≤ k → has s.under k = false) →
    (¬ room → exec .courierDoorbell s = .next s) ∧
    (room → ¬ formed → ∃ t, exec .courierDoorbell s = .next t ∧ told t 0x07) ∧
    (room → formed → colOf core ∈ s.darkCols → ∃ t, exec .courierDoorbell s = .next t ∧ told t 0x06) ∧
    (room → formed → colOf core ∉ s.darkCols → s.partOfCol (colOf core) ≠ some (h.dom.toNat / 2 ^ 10) → ∃ t, exec .courierDoorbell s = .next t ∧ told t 0x04) ∧
    (room → formed → colOf core ∉ s.darkCols → s.partOfCol (colOf core) = some (h.dom.toNat / 2 ^ 10) →
      ∃ t m, exec .courierDoorbell s = .next t ∧ t.flight = s.flight ++ [(s.nextMsg, m)] ∧ m.ev = ⟨.courierArrival, [s.nextMsg]⟩ ∧
        m.words = [core, pc, x, y, 1, bits w0 63 48, w0, h.dom.toNat] ∧ QuietMemory s t ∧ t.ports = s.ports)

/-- R464, R465: BAR0. An access of another size than 8 bytes, unaligned, or at an offset that is not listed is refused and latched; a read of a register gives its value; a write of one that is the firmware's is ignored; a
partition whose bit of HC.PMASK is clear is closed; done and err of HC.CK are cleared for the port alone (R484). The form of HC.ERR is the model's choice (log 37). -/
def Sys2Proof.Claims.ControlBlock : Prop :=
  ∀ (s : State) (p off n v : Nat), v < 2 ^ 64 →
    let h := s.hostPort p
    let window := 0x400000 ≤ off ∧ off < 0x800000
    let listed := off < 0x48 ∨ (0x100 ≤ off ∧ off < 0x200) ∨ (window ∧ bit h.pmask.toNat ((off - 0x400000) / 2 ^ 16) = true) ∨ (0x800000 ≤ off ∧ off < 0x801000) ∨ (0x900000 ≤ off ∧ off < 0x910000)
    let good := n = 8 ∧ off % 8 = 0 ∧ listed
    (HostMsg s [p, 0, off, n, v] → ¬ good → ¬ (off = 0x10000 ∧ n = 32) → off < 2 ^ 63 → ∃ t, exec .hostWrite s = .next t ∧ Latched s t p off) ∧
    (HostMsg s [p, 0, off, n] → ¬ good → off < 2 ^ 63 → ∃ t, exec .hostRead s = .next t ∧ Latched s t p off ∧ t.outbox = s.outbox ++ [(p, [off, n, 1])]) ∧
    (∀ value, (off, value) ∈ [(0x000, h.abase), (0x008, h.dom), (0x010, h.pmask), (0x018, h.cring), (0x020, h.cptr), (0x028, h.err), (0x040, h.ckaddr)] → n = 8 → HostMsg s [p, 0, off, n] →
      ∃ t, exec .hostRead s = .next t ∧ t.outbox = s.outbox ++ [(p, [off, 8, 0, value.toNat])] ∧ t.ports = s.ports ∧ t.boot = s.boot ∧ QuietMemory s t) ∧
    (n = 8 → HostMsg s [p, 0, off, n, v] →
      (off = 0x000 ∨ off = 0x008 ∨ off = 0x010 ∨ (0x100 ≤ off ∧ off < 0x200 ∧ off % 8 = 0) → ∃ t, exec .hostWrite s = .next t ∧ t.hostPort p = h ∧ t.boot = s.boot ∧ QuietMemory s t) ∧
      (off = 0x018 → ∃ t, exec .hostWrite s = .next t ∧ t.hostPort p = { h with cring := BitVec.ofNat 64 (v / 16 * 16) } ∧ QuietMemory s t) ∧
      (off = 0x020 → ∃ t, exec .hostWrite s = .next t ∧ t.hostPort p = { h with cptr := (t.hostPort p).cptr } ∧ bits (t.hostPort p).cptr.toNat 63 48 = bits v 63 48 ∧
        bits (t.hostPort p).cptr.toNat 47 32 = bits h.cptr.toNat 47 32 ∧ bits (t.hostPort p).cptr.toNat 15 0 = bits v 15 0 ∧ QuietMemory s t) ∧
      (off = 0x028 → ∃ t, exec .hostWrite s = .next t ∧ t.hostPort p = { h with err := h.err &&& ~~~(BitVec.ofNat 64 v) } ∧ QuietMemory s t) ∧
      (off = 0x040 → ∃ t, exec .hostWrite s = .next t ∧ t.hostPort p = { h with ckaddr := BitVec.ofNat 64 (v / 4096 * 4096) } ∧ QuietMemory s t) ∧
      (off = 0x038 → bit v 0 = false → ∃ t, exec .hostWrite s = .next t ∧ t.hostPort p = { h with ckDone := h.ckDone && !bit v 63, ckErr := h.ckErr && !bit v 62 } ∧
        (∀ q, q ≠ p → t.hostPort q = s.hostPort q) ∧ t.boot = s.boot ∧ QuietMemory s t) ∧
      (off = 0x030 → bit v 63 = true → ∃ t, exec .hostWrite s = .next t ∧ Begun s t (bit v 48)) ∧
      (off = 0x030 → bit v 63 = false → ∃ t, exec .hostWrite s = .next t ∧ t.boot = { s.boot with warm := bit v 48, keep := bit v 49 }))

/-- R466: an access through BAR2 addresses HC.ABASE + offset. With no valid entry of HC.DOM in HC.RIGHTS it is refused: a read is an Unsupported Request, a write is discarded, and the address is latched. One that passes reads or writes the
bytes of DRAM; while a checkpoint runs it waits. -/
def Sys2Proof.Claims.HostMemory : Prop :=
  ∀ (s : State) (p off n v : Nat),
    let h := s.hostPort p
    let va := h.abase.toNat + off
    va < 2 ^ 63 →
    ((∀ e ∈ h.rights, e.2.v = true → e.2.dom ≠ h.dom.toNat) → 1 ≤ n →
      (HostMsg s [p, 2, off, n] → ∃ t, exec .hostRead s = .next t ∧ Latched s t p va ∧ t.outbox = s.outbox ++ [(p, [off, n, 1])]) ∧
      (HostMsg s [p, 2, off, n, v] → ∃ t, exec .hostWrite s = .next t ∧ Latched s t p va)) ∧
    (∀ k tag key, HostMsg s [p, 2, off, n] → s.hostTargets p off n rdR = .ok [(va, n, .mem k tag key)] →
      (s.boot.ckRun = true → exec .hostRead s = .next s) ∧
      (s.boot.ckRun = false → s.pageHeld va = false → s.noBad = true → NoBankOps s → ∃ t, exec .hostRead s = .next t ∧ t.outbox = s.outbox ++ [(p, [off, n, 0, s.value key n])] ∧ QuietMemory s t)) ∧
    (∀ k tag key, HostMsg s [p, 2, off, n, v] → s.hostTargets p off n wrR = .ok [(va, n, .mem k tag key)] →
      (s.boot.ckRun = true → exec .hostWrite s = .next s) ∧
      (s.boot.ckRun = false → s.tokenHolder = none → s.pageHeld va = false → NoChunks s → NoBankOps s → State.sound s →
        ∃ t, exec .hostWrite s = .next t ∧ (∀ q, t.byte q = storedByte s key n v q) ∧ t.hostPort p = h)) ∧
    (∀ need ts, s.hostTargets p off n need = .ok ts → ∀ a l x, (a, l, x) ∈ ts → ∃ k tag key, x = .mem k tag key ∧ tag.ty = 0)

/-- R467: a snoop that the host makes takes its line from the slices and brings the host's bytes; a line of DRAM that is invalidated from outside leaves the slices with its data written back. Chunks that read or wrote a granule of it are squashed, whether a slice held it or not. That the host's bytes come with the snoop is the model's choice (log 61). -/
def Sys2Proof.Claims.Snoops : Prop :=
  (∀ (s : State) (p pa n v : Nat), HostMsg s [p, pa, n, v] → s.tokenHolder = none → 1 ≤ n → State.sound s →
    ∃ t, exec .hostSnoop s = .next t ∧ (∀ g, hostKey pa / 256 ≤ g → g ≤ (hostKey pa + n - 1) / 256 → Unheld t g) ∧
      (NoChunks s → NoBankOps s → ∀ q, t.byte q = storedByte s (hostKey pa) n v q) ∧
      (∀ g, hostKey pa / 256 ≤ g → g ≤ (hostKey pa + n - 1) / 256 → (∀ c ∈ t.cores, ∀ l ∈ c.2.l1, l.key ≠ g) ∧
        ∀ ag ∈ s.agents, (s.ctx ag).chunk.run = true → (s.ctx ag).token = false → g ∈ (s.ctx ag).chunk.reads ∨ g ∈ (s.ctx ag).chunk.writes → (t.ctx ag).chunk.run = false)) ∧
  (∀ (s : State) (p off : Nat) (va k key : Nat) (tag : LineTag), HostMsg s [p, off] → s.hostTargets p off 1 {} = .ok [(va, 1, .mem k tag key)] → s.outsideWaits [(va, 1, .mem k tag key)] = false →
    s.tokenHolder = none →
    ∃ t, exec .backInvalidate s = .next t ∧ Unheld t (key / 256) ∧ (∀ c ∈ t.cores, ∀ l ∈ c.2.l1, l.key ≠ key / 256) ∧ (NoChunks s → NoBankOps s → QuietMemory s t) ∧
      (∀ ag ∈ s.agents, (s.ctx ag).chunk.run = true → (s.ctx ag).token = false → key / 256 ∈ (s.ctx ag).chunk.reads ∨ key / 256 ∈ (s.ctx ag).chunk.writes → (t.ctx ag).chunk.run = false))

/-- R477 to R481: starts and attestation (what a start clears as log 39 reads it, scratchpads and handler memory at power-on as log 2 chooses them). -/
def Obligations.StartsAndAttestation : Prop := Claims.Starts ∧ Claims.StartSteps ∧ Claims.Attestation

/-- R482 to R484: checkpoints (the moment of the image and its time word as log 58 reads them) and the links of the ports. -/
def Obligations.CheckpointsAndPortLinks : Prop := Claims.Checkpoints ∧ Claims.PortLinks

/-- R464 to R470: what the host does through its ports (HC.ERR and the refusal without a ring as log 37 chooses them, the bytes of a snoop as log 61). -/
def Obligations.HostAccesses : Prop := Claims.Doorbells ∧ Claims.ControlBlock ∧ Claims.HostMemory ∧ Claims.Snoops

/-! ## Trail links and other modules -/

namespace Sys2Proof.Claims

open Sys2Proof Sys2Proof.Machine

/-- A message stands first on its channel. -/
def Arrived (s : State) (id : Nat) (words : List Nat) : Prop := s.args = [id] ∧ ∃ m, s.msg? id = some m ∧ m.words = words

/-- What an access that goes on after its reorder buffer becomes. -/
def GoesOn (s t : State) (words : List Nat) : Prop :=
  ∃ i m, (i, m) ∈ t.flight ∧ s.nextMsg ≤ i ∧ m.words = words ∧ m.ev = ⟨(if words.getD 2 0 = 0 then .peerLoadArrival else .peerWriteArrival), [i]⟩

/-- The 256 bytes of a flit (R472). -/
def Flit (b : List Nat) : Prop := b.length = 256 ∧ ∀ x ∈ b, x < 256

/-- The little-endian field of `n` bytes of a flit, from byte `lo` on. -/
def fieldAt (b : List Nat) (lo n : Nat) : Nat := ((List.range n).map (fun i => b.getD (lo + i) 0 * 256 ^ i)).sum

/-- The check of a flit: the CRC of bytes 0 to 247 stands in bytes 248 to 255 (R472). Its polynomial is not given, and is free (log 59). -/
def GoodCrc (b : List Nat) : Prop := Config.crc64 ((b.take 248).map (BitVec.ofNat 8)) % 2 ^ 64 = fieldAt b 248 8

/-- The words of the access that a request or a data flit brings: flow, sequence number, kind, class, address, length and what follows. Data are stored, as many bytes as the length says. Where the class stands, and
how a request tells what it asks, is the model's choice (log 59). -/
def accessWords (b : List Nat) : List Nat :=
  let head (kind len : Nat) : List Nat := [fieldAt b 1 1 % 32, fieldAt b 4 4, kind, fieldAt b 1 1 / 32 % 2, fieldAt b 8 8, len]
  if fieldAt b 0 1 = 2 then head 1 (min 224 (fieldAt b 2 2)) ++ [fieldAt b 16 (min 224 (fieldAt b 2 2))]
  else head (fieldAt b 16 1) (fieldAt b 18 2) ++ [fieldAt b 17 1, fieldAt b 24 8, fieldAt b 32 8]

/-- An access is refused: a negative acknowledgement leaves, a record for the flow's domain is made, and nothing else is done (R474, R475). -/
def RefusedAccess (s t : State) (flow seq va cause : Nat) : Prop :=
  t.outbox = s.outbox ++ [(0x1000 + flow, [seq, 4])] ∧ QuietMemory s t ∧ t.cores = s.cores ∧
  ∃ e, t.errs = s.errs ++ [e] ∧ e.src = 11 ∧ e.sub = 1 ∧ e.dom = bits (look 0 s.flows flow).toNat 31 16 ∧ e.cause = cause ∧ e.addr = va

/-- A flow is broken, in a state of the links: it has links and none of them is up (R473). -/
def broken (s : State) (f : Nat) : Bool := decide (bits (look 0 s.flows f).toNat 47 32 ≠ 0) && decide (bits (look 0 s.flows f).toNat 47 32 &&& s.tlUp.toNat = 0)

/-- brk of every flow says whether it is broken, and the rest of the flow table is as it was (R473). -/
structure BrkShows (s t : State) : Prop where
  brk : ∀ f, has s.flows f = true → bit (look 0 t.flows f).toNat 62 = broken t f
  rest : ∀ f b, b ≠ 62 → (look 0 t.flows f).getLsbD b = (look 0 s.flows f).getLsbD b

end Sys2Proof.Claims

open Sys2Proof Sys2Proof.Machine Sys2Proof.Claims

/-- R473, R474: a store to TL.TRAIN trains the links of its set bits; one that has trained comes up, and brk of every flow that uses it reads 0. That a link comes up is an input, which does nothing for a
link that is not in training, and a flow without links is never broken: the model's reading (log 59). -/
def Sys2Proof.Claims.Links : Prop :=
  (∀ (s : State) (who v : Nat), s.args = [who, v] → exec .tlTrain s = .next { s with tlTrain := s.tlTrain ||| v % 2 ^ 16 }) ∧
  (∀ (s : State) (l : Nat), s.args = [l] → l < 16 →
    (bit s.tlTrain l = false → exec .trailLinkUp s = .next s) ∧
    (bit s.tlTrain l = true → ∃ t, exec .trailLinkUp s = .next t ∧ t.tlUp = s.tlUp ||| BitVec.ofNat 64 (2 ^ l) ∧ bit t.tlTrain l = false ∧ BrkShows s t ∧
      (∀ f, bit (look 0 s.flows f).toNat (32 + l) = true → bit (look 0 t.flows f).toNat 62 = false) ∧ QuietMemory s t ∧ t.cores = s.cores))

/-- R472, R473, R475: a flit whose CRC fails is replayed and counted; when its eighth replay fails the link goes down, flows that lose their last link are broken, and what a context has outstanding on one is marked with reason 3. A link that is down
delivers nothing. A good flit is delivered: an access of the unordered class goes on at once, one of the ordered class when all before it have, and one for which the reorder buffer of its flow has no entry of the 256 comes later; acknowledgements
end what they answer; idle and credit flits, and kinds from 7 on, do nothing. -/
def Sys2Proof.Claims.Flits : Prop :=
  ∀ (s : State) (id l : Nat) (b : List Nat), l < 16 → Arrived s id (l :: b) → Flit b →
    let u : State := { s.drop id with tlFails := del l s.tlFails }
    let flow := fieldAt b 1 1 % 32
    let ord := fieldAt b 1 1 / 32 % 2
    let seq := fieldAt b 4 4
    let r := look {} s.robs flow
    let body := accessWords b
    let kind := fieldAt b 0 1
    (bit s.tlUp.toNat l = false → exec .trailFlitReceive s = .next (s.drop id)) ∧
    (¬ GoodCrc b → bit s.tlUp.toNat l = true →
      (look 0 s.tlFails l < 8 → ∃ t, exec .trailFlitReceive s = .next t ∧ look 0 t.tlFails l = look 0 s.tlFails l + 1 ∧ t.tlReplay = min (s.tlReplay + 1) (2 ^ 32 - 1) ∧
        t.tlUp = s.tlUp ∧ t.robs = s.robs ∧ t.cores = s.cores ∧ QuietMemory s t) ∧
      (look 0 s.tlFails l = 8 → ∃ t, exec .trailFlitReceive s = .next t ∧ t.tlUp = s.tlUp &&& ~~~(BitVec.ofNat 64 (2 ^ l)) ∧ BrkShows s t ∧ QuietMemory s t ∧ t.robs = s.robs ∧
        (∀ core n f q, core < 100352 → n < 4 → (f, q) ∈ (s.ctx (.ctx core n)).unackedPeer → f < 32 → q < 2 ^ 32 → has s.flows f = true → bit (look 0 s.flows f).toNat 62 = false → broken t f = true →
          s.agents.Nodup → Agent.ctx core n ∈ s.agents → (s.flows.map (·.1)).Nodup → (s.ctx (.ctx core n)).asked = none → (f, 3) ∈ (t.ctx (.ctx core n)).flowMarks))) ∧
    (GoodCrc b → bit s.tlUp.toNat l = true →
      (kind = 1 ∨ kind = 2 →
        ((seq + 2 ^ 32 - r.next) % 2 ^ 32 < 256 →
          (ord = 0 → ∃ t, exec .trailFlitReceive s = .next t ∧ GoesOn s t body ∧ t.cores = s.cores ∧ QuietMemory s t) ∧
          (ord = 1 → seq = r.next → ∃ t, exec .trailFlitReceive s = .next t ∧ GoesOn s t body ∧ t.cores = s.cores ∧ QuietMemory s t) ∧
          (ord = 1 → seq ≠ r.next → r.next ∉ r.seen →
            ∃ t, exec .trailFlitReceive s = .next t ∧ t.flight = (s.drop id).flight ∧ (seq, body) ∈ (look {} t.robs flow).held ∧ t.cores = s.cores ∧ QuietMemory s t)) ∧
        (256 ≤ (seq + 2 ^ 32 - r.next) % 2 ^ 32 →
          ∃ t i m, exec .trailFlitReceive s = .next t ∧ t.robs = s.robs ∧ (i, m) ∈ t.flight ∧ m.ev = ⟨.trailFlitReceive, [i]⟩ ∧ m.words = l :: b ∧ t.cores = s.cores ∧ QuietMemory s t)) ∧
      (kind = 3 → exec .trailFlitReceive s = .next (u.peerAck flow seq 0 ((b.drop 16).take (min 224 (fieldAt b 2 2))))) ∧
      (kind = 4 → exec .trailFlitReceive s = .next (u.peerAck flow seq 4 [])) ∧
      (kind = 5 → exec .trailFlitReceive s = .next (u.tmReceive l (fieldAt b 17 1) (fieldAt b 16 1) (fieldAt b 18 2) (fieldAt b 24 10))) ∧
      (kind = 0 ∨ 6 ≤ kind → exec .trailFlitReceive s = .next u))

/-- R217, R474, R475: an access of another module is performed as this module's own address, by the rights of TL.RIGHTS for the flow's domain: a load answers with the bytes, a store and an atomic change them. On a closed flow, and where no
entry is of the flow's domain, it is refused. While a checkpoint runs it waits. That it is this module's own entry of the flow table that judges it is the model's reading (log 59). -/
def Sys2Proof.Claims.PeerAccesses : Prop :=
  ∀ (s : State) (id flow seq ord va n : Nat), va < 2 ^ 55 →
    let w := (look 0 s.flows flow).toNat
    let dom := bits w 31 16
    let hit (k : Nat) (tag : LineTag) (key len : Nat) (need : Rights) : Prop := bit w 63 = true ∧ s.outsideTargets s.tlRights dom va len need [0, 1] = .ok [(va, len, .mem k tag key)] ∧
      s.boot.ckRun = false ∧ s.tokenHolder = none ∧ s.pageHeld va = false ∧ s.noBad = true ∧ NoChunks s ∧ NoBankOps s
    let stranger : Prop := ∀ e ∈ s.tlRights, e.2.v = true → e.2.dom ≠ dom
    let answered (t : State) (bs : List Byte) : Prop := t.outbox = s.outbox ++ [(0x1000 + flow, seq :: 3 :: bs.map (·.toNat))]
    (∀ rest, Arrived s id (flow :: seq :: 0 :: ord :: va :: n :: rest) →
      (s.boot.ckRun = true → exec .peerLoadArrival s = .next s) ∧
      (s.boot.ckRun = false → bit w 63 = false → ∃ t, exec .peerLoadArrival s = .next t ∧ RefusedAccess s t flow seq va 0x13) ∧
      (s.boot.ckRun = false → bit w 63 = true → 1 ≤ n → stranger → ∃ t cause, exec .peerLoadArrival s = .next t ∧ RefusedAccess s t flow seq va cause) ∧
      (∀ k tag key, hit k tag key n rdR → ∃ t, exec .peerLoadArrival s = .next t ∧ answered t (s.bytes key n) ∧ QuietMemory s t ∧ t.msg? id = none)) ∧
    (∀ v, Arrived s id [flow, seq, 1, ord, va, n, v] →
      (s.boot.ckRun = true → exec .peerWriteArrival s = .next s) ∧
      (s.boot.ckRun = false → bit w 63 = false → ∃ t, exec .peerWriteArrival s = .next t ∧ RefusedAccess s t flow seq va 0x13) ∧
      (s.boot.ckRun = false → bit w 63 = true → 1 ≤ n → stranger → ∃ t cause, exec .peerWriteArrival s = .next t ∧ RefusedAccess s t flow seq va cause) ∧
      (∀ k tag key, hit k tag key n wrR → ∃ t, exec .peerWriteArrival s = .next t ∧ answered t [] ∧ (∀ q, t.byte q = storedByte s key n v q))) ∧
    (∀ op y e, Arrived s id [flow, seq, 2, ord, va, n, op, y, e] → s.boot.ckRun = false →
      let z := if n = 4 then 4 else 8
      (bit w 63 = true → va % z ≠ 0 → ∃ t, exec .peerWriteArrival s = .next t ∧ RefusedAccess s t flow seq va 0x03) ∧
      (∀ k tag key, va % z = 0 → op = 0 ∨ op = 8 ∨ op = 9 → hit k tag key z amoR →
        let old := s.value key z
        let new := if op = 0 then old + y else if op = 8 then y else if old = e then y else old
        ∃ t, exec .peerWriteArrival s = .next t ∧ answered t (leBytes z old) ∧ ∀ q, t.byte q = storedByte s key z new q))

/-- R137, R217, R475: an acknowledgement ends what it answers: a waiting load or atomic gets its answer, a store is no longer outstanding and, when it was refused, marks its flow; a piece of an engine learns of it. -/
def Sys2Proof.Claims.Acknowledgements : Prop :=
  ∀ (s : State) (id flow seq reason : Nat) (data : List Nat) (core n : Nat), Arrived s id (flow :: seq :: reason :: data) → s.agents.Nodup → core < 100352 → n < 4 → Agent.ctx core n ∈ s.agents →
    let ag := Agent.ctx core n
    let c := s.ctx ag
    ((c.slots.map (·.1)).Nodup) →
    ∃ t, exec .peerAck s = .next t ∧ QuietMemory s t ∧ (∀ e ∈ t.flight, e.1 = id → s.nextMsg ≤ id) ∧
      (c.asked = some (peerAsk flow seq) → (t.ctx ag).reply = some (reason :: data) ∧ (t.ctx ag).flowMarks = c.flowMarks ∧ (c.st = .stalled → (t.ctx ag).st = .ready)) ∧
      (c.asked ≠ some (peerAsk flow seq) → (flow, seq) ∈ c.unackedPeer →
        (t.ctx ag).unackedPeer = c.unackedPeer.erase (flow, seq) ∧ (t.ctx ag).flowMarks = c.flowMarks ++ (if reason = 0 then [] else [(flow, reason)]) ∧ (t.ctx ag).reply = c.reply) ∧
      (∀ k x, (k, x) ∈ c.slots → (∃ q ∈ x.peer, q.flow = flow ∧ q.seq = seq ∧ q.ack = none) →
        look {} (t.ctx ag).slots k = { x with peer := x.peer.map (fun q => if q.flow = flow ∧ q.seq = seq then { q with ack := some (reason, data) } else q) } ∧
        ∃ e ∈ t.flight, e.2.ev = ⟨.enginePieceDone, [ag.code, k]⟩) ∧
      (c.asked ≠ some (peerAsk flow seq) → (flow, seq) ∉ c.unackedPeer → (∀ k x, (k, x) ∈ c.slots → ∀ q ∈ x.peer, q.flow = flow → q.seq ≠ seq) → t.ctx ag = c)

/-- R217, R472 to R475: trail links, accesses of other modules, acknowledgements (the entry of the flow table, flows without links, the training of links and the coding of flits as log 59 reads or chooses them). -/
def Obligations.Peers : Prop := Claims.Links ∧ Claims.Flits ∧ Claims.PeerAccesses ∧ Claims.Acknowledgements
end

