-- ==== Sys2Proof/Laws/Tab.lean ====
section
/-!
SUPPORT. What can be read from a table after a write to it.
-/

namespace Sys2Proof.Machine

open Sys2Proof

@[simp] theorem look_put_self {α : Type} (d : α) (k : Nat) (v : α) (t : Tab α) : look d (put k v t) k = v := by
  induction t with
  | nil => simp [put, look]
  | cons e t ih =>
    obtain ⟨j, u⟩ := e
    simp only [put]
    split
    · simp [look]
    · split
      · simp [look]
      · simp [look, *]

theorem look_put_ne {α : Type} (d : α) {k j : Nat} (v : α) (t : Tab α) (h : j ≠ k) : look d (put k v t) j = look d t j := by
  induction t with
  | nil => simp [put, look, Ne.symm h]
  | cons e t ih =>
    obtain ⟨i, u⟩ := e
    simp only [put]
    split
    · simp [look, Ne.symm h]
    · split
      · subst_vars
        simp [look, Ne.symm h]
      · simp [look, ih]

theorem look_put {α : Type} (d : α) (k j : Nat) (v : α) (t : Tab α) :
    look d (put k v t) j = if j = k then v else look d t j := by
  split
  · subst_vars; simp
  · exact look_put_ne d v t ‹_›

/-- A second write of a number hides the first. -/
@[simp] theorem put_put_self {α : Type} (k : Nat) (v w : α) (t : Tab α) : put k v (put k w t) = put k v t := by
  induction t with
  | nil => simp [put]
  | cons e t ih =>
    obtain ⟨j, u⟩ := e
    simp only [put]
    by_cases h1 : k < j
    · simp [h1, put]
    · by_cases h2 : j = k
      · subst h2; simp [put]
      · simp [h1, h2, put, ih]

theorem look_del_ne {α : Type} (d : α) {k j : Nat} (t : Tab α) (h : j ≠ k) : look d (del k t) j = look d t j := by
  induction t with
  | nil => rfl
  | cons e t ih =>
    obtain ⟨i, u⟩ := e
    by_cases h1 : i = k
    · subst h1
      simp only [del, List.filter, look, Ne.symm h, ne_eq, not_true_eq_false, decide_false, if_false] at *
      exact ih
    · by_cases h2 : i = j
      · subst h2; simp [del, List.filter, look, h1]
      · simp only [del, List.filter, look, h1, ne_eq, not_false_eq_true, decide_true, h2, if_false] at *
        exact ih

theorem look_del_self {α : Type} (d : α) (k : Nat) (t : Tab α) : look d (del k t) k = d := by
  induction t with
  | nil => rfl
  | cons e t ih =>
    obtain ⟨i, u⟩ := e
    by_cases h1 : i = k
    · subst h1
      simpa [del, List.filter] using ih
    · simpa [del, List.filter, look, h1] using ih

end Sys2Proof.Machine
end

