-- ==== Sys2Proof/Laws/State.lean ====
section
/-!
SUPPORT. What each basic update of the state leaves as it was, one lemma for each field, and what a record reads as after an update.
-/

namespace Sys2Proof.Machine

open Sys2Proof

/-! ## setCore -/

@[simp] theorem State.setCore_cur (s : State) (k : Nat) (c : Core) : (s.setCore k c).cur = s.cur := rfl
@[simp] theorem State.setCore_args (s : State) (k : Nat) (c : Core) : (s.setCore k c).args = s.args := rfl
@[simp] theorem State.setCore_seq (s : State) (k : Nat) (c : Core) : (s.setCore k c).seq = s.seq := rfl
@[simp] theorem State.setCore_time (s : State) (k : Nat) (c : Core) : (s.setCore k c).time = s.time := rfl
@[simp] theorem State.setCore_agenda (s : State) (k : Nat) (c : Core) : (s.setCore k c).agenda = s.agenda := rfl
@[simp] theorem State.setCore_flight (s : State) (k : Nat) (c : Core) : (s.setCore k c).flight = s.flight := rfl
@[simp] theorem State.setCore_nextMsg (s : State) (k : Nat) (c : Core) : (s.setCore k c).nextMsg = s.nextMsg := rfl
@[simp] theorem State.setCore_inputs (s : State) (k : Nat) (c : Core) : (s.setCore k c).inputs = s.inputs := rfl
@[simp] theorem State.setCore_outbox (s : State) (k : Nat) (c : Core) : (s.setCore k c).outbox = s.outbox := rfl
@[simp] theorem State.setCore_mem (s : State) (k : Nat) (c : Core) : (s.setCore k c).mem = s.mem := rfl
@[simp] theorem State.setCore_under (s : State) (k : Nat) (c : Core) : (s.setCore k c).under = s.under := rfl
@[simp] theorem State.setCore_poison (s : State) (k : Nat) (c : Core) : (s.setCore k c).poison = s.poison := rfl
@[simp] theorem State.setCore_flaws (s : State) (k : Nat) (c : Core) : (s.setCore k c).flaws = s.flaws := rfl
@[simp] theorem State.setCore_errs (s : State) (k : Nat) (c : Core) : (s.setCore k c).errs = s.errs := rfl
@[simp] theorem State.setCore_errands (s : State) (k : Nat) (c : Core) : (s.setCore k c).errands = s.errands := rfl
@[simp] theorem State.setCore_cols (s : State) (k : Nat) (c : Core) : (s.setCore k c).cols = s.cols := rfl
@[simp] theorem State.setCore_quads (s : State) (k : Nat) (c : Core) : (s.setCore k c).quads = s.quads := rfl
@[simp] theorem State.setCore_ports (s : State) (k : Nat) (c : Core) : (s.setCore k c).ports = s.ports := rfl
@[simp] theorem State.setCore_flows (s : State) (k : Nat) (c : Core) : (s.setCore k c).flows = s.flows := rfl
@[simp] theorem State.setCore_tlUp (s : State) (k : Nat) (c : Core) : (s.setCore k c).tlUp = s.tlUp := rfl
@[simp] theorem State.setCore_tlReplay (s : State) (k : Nat) (c : Core) : (s.setCore k c).tlReplay = s.tlReplay := rfl
@[simp] theorem State.setCore_tlRights (s : State) (k : Nat) (c : Core) : (s.setCore k c).tlRights = s.tlRights := rfl
@[simp] theorem State.setCore_tlTrain (s : State) (k : Nat) (c : Core) : (s.setCore k c).tlTrain = s.tlTrain := rfl
@[simp] theorem State.setCore_tlFails (s : State) (k : Nat) (c : Core) : (s.setCore k c).tlFails = s.tlFails := rfl
@[simp] theorem State.setCore_robs (s : State) (k : Nat) (c : Core) : (s.setCore k c).robs = s.robs := rfl
@[simp] theorem State.setCore_flowSeq (s : State) (k : Nat) (c : Core) : (s.setCore k c).flowSeq = s.flowSeq := rfl
@[simp] theorem State.setCore_slices (s : State) (k : Nat) (c : Core) : (s.setCore k c).slices = s.slices := rfl
@[simp] theorem State.setCore_iluet (s : State) (k : Nat) (c : Core) : (s.setCore k c).iluet = s.iluet := rfl
@[simp] theorem State.setCore_fw (s : State) (k : Nat) (c : Core) : (s.setCore k c).fw = s.fw := rfl
@[simp] theorem State.setCore_iluetPlb (s : State) (k : Nat) (c : Core) : (s.setCore k c).iluetPlb = s.iluetPlb := rfl
@[simp] theorem State.setCore_iluetMig (s : State) (k : Nat) (c : Core) : (s.setCore k c).iluetMig = s.iluetMig := rfl
@[simp] theorem State.setCore_parts (s : State) (k : Nat) (c : Core) : (s.setCore k c).parts = s.parts := rfl
@[simp] theorem State.setCore_snap (s : State) (k : Nat) (c : Core) : (s.setCore k c).snap = s.snap := rfl
@[simp] theorem State.setCore_trRoot (s : State) (k : Nat) (c : Core) : (s.setCore k c).trRoot = s.trRoot := rfl
@[simp] theorem State.setCore_tcs (s : State) (k : Nat) (c : Core) : (s.setCore k c).tcs = s.tcs := rfl
@[simp] theorem State.setCore_power (s : State) (k : Nat) (c : Core) : (s.setCore k c).power = s.power := rfl
@[simp] theorem State.setCore_tm (s : State) (k : Nat) (c : Core) : (s.setCore k c).tm = s.tm := rfl
@[simp] theorem State.setCore_forests (s : State) (k : Nat) (c : Core) : (s.setCore k c).forests = s.forests := rfl
@[simp] theorem State.setCore_scheds (s : State) (k : Nat) (c : Core) : (s.setCore k c).scheds = s.scheds := rfl
@[simp] theorem State.setCore_xlat (s : State) (k : Nat) (c : Core) : (s.setCore k c).xlat = s.xlat := rfl
@[simp] theorem State.setCore_boot (s : State) (k : Nat) (c : Core) : (s.setCore k c).boot = s.boot := rfl
@[simp] theorem State.setCore_rom (s : State) (k : Nat) (c : Core) : (s.setCore k c).rom = s.rom := rfl
@[simp] theorem State.setCore_sampled (s : State) (k : Nat) (c : Core) : (s.setCore k c).sampled = s.sampled := rfl
@[simp] theorem State.setCore_shown (s : State) (k : Nat) (c : Core) : (s.setCore k c).shown = s.shown := rfl
@[simp] theorem State.setCore_dark (s : State) (k : Nat) (c : Core) : (s.setCore k c).dark = s.dark := rfl
@[simp] theorem State.setCore_darkCols (s : State) (k : Nat) (c : Core) : (s.setCore k c).darkCols = s.darkCols := rfl
@[simp] theorem State.setCore_tokenQ (s : State) (k : Nat) (c : Core) : (s.setCore k c).tokenQ = s.tokenQ := rfl
@[simp] theorem State.setCore_tokenHolder (s : State) (k : Nat) (c : Core) : (s.setCore k c).tokenHolder = s.tokenHolder := rfl

/-! ## setCol -/

@[simp] theorem State.setCol_cur (s : State) (k : Nat) (c : Column) : (s.setCol k c).cur = s.cur := rfl
@[simp] theorem State.setCol_args (s : State) (k : Nat) (c : Column) : (s.setCol k c).args = s.args := rfl
@[simp] theorem State.setCol_seq (s : State) (k : Nat) (c : Column) : (s.setCol k c).seq = s.seq := rfl
@[simp] theorem State.setCol_time (s : State) (k : Nat) (c : Column) : (s.setCol k c).time = s.time := rfl
@[simp] theorem State.setCol_agenda (s : State) (k : Nat) (c : Column) : (s.setCol k c).agenda = s.agenda := rfl
@[simp] theorem State.setCol_flight (s : State) (k : Nat) (c : Column) : (s.setCol k c).flight = s.flight := rfl
@[simp] theorem State.setCol_nextMsg (s : State) (k : Nat) (c : Column) : (s.setCol k c).nextMsg = s.nextMsg := rfl
@[simp] theorem State.setCol_inputs (s : State) (k : Nat) (c : Column) : (s.setCol k c).inputs = s.inputs := rfl
@[simp] theorem State.setCol_outbox (s : State) (k : Nat) (c : Column) : (s.setCol k c).outbox = s.outbox := rfl
@[simp] theorem State.setCol_mem (s : State) (k : Nat) (c : Column) : (s.setCol k c).mem = s.mem := rfl
@[simp] theorem State.setCol_under (s : State) (k : Nat) (c : Column) : (s.setCol k c).under = s.under := rfl
@[simp] theorem State.setCol_poison (s : State) (k : Nat) (c : Column) : (s.setCol k c).poison = s.poison := rfl
@[simp] theorem State.setCol_flaws (s : State) (k : Nat) (c : Column) : (s.setCol k c).flaws = s.flaws := rfl
@[simp] theorem State.setCol_errs (s : State) (k : Nat) (c : Column) : (s.setCol k c).errs = s.errs := rfl
@[simp] theorem State.setCol_errands (s : State) (k : Nat) (c : Column) : (s.setCol k c).errands = s.errands := rfl
@[simp] theorem State.setCol_cores (s : State) (k : Nat) (c : Column) : (s.setCol k c).cores = s.cores := rfl
@[simp] theorem State.setCol_quads (s : State) (k : Nat) (c : Column) : (s.setCol k c).quads = s.quads := rfl
@[simp] theorem State.setCol_ports (s : State) (k : Nat) (c : Column) : (s.setCol k c).ports = s.ports := rfl
@[simp] theorem State.setCol_flows (s : State) (k : Nat) (c : Column) : (s.setCol k c).flows = s.flows := rfl
@[simp] theorem State.setCol_tlUp (s : State) (k : Nat) (c : Column) : (s.setCol k c).tlUp = s.tlUp := rfl
@[simp] theorem State.setCol_tlReplay (s : State) (k : Nat) (c : Column) : (s.setCol k c).tlReplay = s.tlReplay := rfl
@[simp] theorem State.setCol_tlRights (s : State) (k : Nat) (c : Column) : (s.setCol k c).tlRights = s.tlRights := rfl
@[simp] theorem State.setCol_tlTrain (s : State) (k : Nat) (c : Column) : (s.setCol k c).tlTrain = s.tlTrain := rfl
@[simp] theorem State.setCol_tlFails (s : State) (k : Nat) (c : Column) : (s.setCol k c).tlFails = s.tlFails := rfl
@[simp] theorem State.setCol_robs (s : State) (k : Nat) (c : Column) : (s.setCol k c).robs = s.robs := rfl
@[simp] theorem State.setCol_flowSeq (s : State) (k : Nat) (c : Column) : (s.setCol k c).flowSeq = s.flowSeq := rfl
@[simp] theorem State.setCol_slices (s : State) (k : Nat) (c : Column) : (s.setCol k c).slices = s.slices := rfl
@[simp] theorem State.setCol_iluet (s : State) (k : Nat) (c : Column) : (s.setCol k c).iluet = s.iluet := rfl
@[simp] theorem State.setCol_fw (s : State) (k : Nat) (c : Column) : (s.setCol k c).fw = s.fw := rfl
@[simp] theorem State.setCol_iluetPlb (s : State) (k : Nat) (c : Column) : (s.setCol k c).iluetPlb = s.iluetPlb := rfl
@[simp] theorem State.setCol_iluetMig (s : State) (k : Nat) (c : Column) : (s.setCol k c).iluetMig = s.iluetMig := rfl
@[simp] theorem State.setCol_parts (s : State) (k : Nat) (c : Column) : (s.setCol k c).parts = s.parts := rfl
@[simp] theorem State.setCol_snap (s : State) (k : Nat) (c : Column) : (s.setCol k c).snap = s.snap := rfl
@[simp] theorem State.setCol_trRoot (s : State) (k : Nat) (c : Column) : (s.setCol k c).trRoot = s.trRoot := rfl
@[simp] theorem State.setCol_tcs (s : State) (k : Nat) (c : Column) : (s.setCol k c).tcs = s.tcs := rfl
@[simp] theorem State.setCol_power (s : State) (k : Nat) (c : Column) : (s.setCol k c).power = s.power := rfl
@[simp] theorem State.setCol_tm (s : State) (k : Nat) (c : Column) : (s.setCol k c).tm = s.tm := rfl
@[simp] theorem State.setCol_forests (s : State) (k : Nat) (c : Column) : (s.setCol k c).forests = s.forests := rfl
@[simp] theorem State.setCol_scheds (s : State) (k : Nat) (c : Column) : (s.setCol k c).scheds = s.scheds := rfl
@[simp] theorem State.setCol_xlat (s : State) (k : Nat) (c : Column) : (s.setCol k c).xlat = s.xlat := rfl
@[simp] theorem State.setCol_boot (s : State) (k : Nat) (c : Column) : (s.setCol k c).boot = s.boot := rfl
@[simp] theorem State.setCol_rom (s : State) (k : Nat) (c : Column) : (s.setCol k c).rom = s.rom := rfl
@[simp] theorem State.setCol_sampled (s : State) (k : Nat) (c : Column) : (s.setCol k c).sampled = s.sampled := rfl
@[simp] theorem State.setCol_shown (s : State) (k : Nat) (c : Column) : (s.setCol k c).shown = s.shown := rfl
@[simp] theorem State.setCol_dark (s : State) (k : Nat) (c : Column) : (s.setCol k c).dark = s.dark := rfl
@[simp] theorem State.setCol_darkCols (s : State) (k : Nat) (c : Column) : (s.setCol k c).darkCols = s.darkCols := rfl
@[simp] theorem State.setCol_tokenQ (s : State) (k : Nat) (c : Column) : (s.setCol k c).tokenQ = s.tokenQ := rfl
@[simp] theorem State.setCol_tokenHolder (s : State) (k : Nat) (c : Column) : (s.setCol k c).tokenHolder = s.tokenHolder := rfl

/-! ## setQuad -/

@[simp] theorem State.setQuad_cur (s : State) (k : Nat) (c : Quad) : (s.setQuad k c).cur = s.cur := rfl
@[simp] theorem State.setQuad_args (s : State) (k : Nat) (c : Quad) : (s.setQuad k c).args = s.args := rfl
@[simp] theorem State.setQuad_seq (s : State) (k : Nat) (c : Quad) : (s.setQuad k c).seq = s.seq := rfl
@[simp] theorem State.setQuad_time (s : State) (k : Nat) (c : Quad) : (s.setQuad k c).time = s.time := rfl
@[simp] theorem State.setQuad_agenda (s : State) (k : Nat) (c : Quad) : (s.setQuad k c).agenda = s.agenda := rfl
@[simp] theorem State.setQuad_flight (s : State) (k : Nat) (c : Quad) : (s.setQuad k c).flight = s.flight := rfl
@[simp] theorem State.setQuad_nextMsg (s : State) (k : Nat) (c : Quad) : (s.setQuad k c).nextMsg = s.nextMsg := rfl
@[simp] theorem State.setQuad_inputs (s : State) (k : Nat) (c : Quad) : (s.setQuad k c).inputs = s.inputs := rfl
@[simp] theorem State.setQuad_outbox (s : State) (k : Nat) (c : Quad) : (s.setQuad k c).outbox = s.outbox := rfl
@[simp] theorem State.setQuad_mem (s : State) (k : Nat) (c : Quad) : (s.setQuad k c).mem = s.mem := rfl
@[simp] theorem State.setQuad_under (s : State) (k : Nat) (c : Quad) : (s.setQuad k c).under = s.under := rfl
@[simp] theorem State.setQuad_poison (s : State) (k : Nat) (c : Quad) : (s.setQuad k c).poison = s.poison := rfl
@[simp] theorem State.setQuad_flaws (s : State) (k : Nat) (c : Quad) : (s.setQuad k c).flaws = s.flaws := rfl
@[simp] theorem State.setQuad_errs (s : State) (k : Nat) (c : Quad) : (s.setQuad k c).errs = s.errs := rfl
@[simp] theorem State.setQuad_errands (s : State) (k : Nat) (c : Quad) : (s.setQuad k c).errands = s.errands := rfl
@[simp] theorem State.setQuad_cores (s : State) (k : Nat) (c : Quad) : (s.setQuad k c).cores = s.cores := rfl
@[simp] theorem State.setQuad_cols (s : State) (k : Nat) (c : Quad) : (s.setQuad k c).cols = s.cols := rfl
@[simp] theorem State.setQuad_ports (s : State) (k : Nat) (c : Quad) : (s.setQuad k c).ports = s.ports := rfl
@[simp] theorem State.setQuad_flows (s : State) (k : Nat) (c : Quad) : (s.setQuad k c).flows = s.flows := rfl
@[simp] theorem State.setQuad_tlUp (s : State) (k : Nat) (c : Quad) : (s.setQuad k c).tlUp = s.tlUp := rfl
@[simp] theorem State.setQuad_tlReplay (s : State) (k : Nat) (c : Quad) : (s.setQuad k c).tlReplay = s.tlReplay := rfl
@[simp] theorem State.setQuad_tlRights (s : State) (k : Nat) (c : Quad) : (s.setQuad k c).tlRights = s.tlRights := rfl
@[simp] theorem State.setQuad_tlTrain (s : State) (k : Nat) (c : Quad) : (s.setQuad k c).tlTrain = s.tlTrain := rfl
@[simp] theorem State.setQuad_tlFails (s : State) (k : Nat) (c : Quad) : (s.setQuad k c).tlFails = s.tlFails := rfl
@[simp] theorem State.setQuad_robs (s : State) (k : Nat) (c : Quad) : (s.setQuad k c).robs = s.robs := rfl
@[simp] theorem State.setQuad_flowSeq (s : State) (k : Nat) (c : Quad) : (s.setQuad k c).flowSeq = s.flowSeq := rfl
@[simp] theorem State.setQuad_slices (s : State) (k : Nat) (c : Quad) : (s.setQuad k c).slices = s.slices := rfl
@[simp] theorem State.setQuad_iluet (s : State) (k : Nat) (c : Quad) : (s.setQuad k c).iluet = s.iluet := rfl
@[simp] theorem State.setQuad_fw (s : State) (k : Nat) (c : Quad) : (s.setQuad k c).fw = s.fw := rfl
@[simp] theorem State.setQuad_iluetPlb (s : State) (k : Nat) (c : Quad) : (s.setQuad k c).iluetPlb = s.iluetPlb := rfl
@[simp] theorem State.setQuad_iluetMig (s : State) (k : Nat) (c : Quad) : (s.setQuad k c).iluetMig = s.iluetMig := rfl
@[simp] theorem State.setQuad_parts (s : State) (k : Nat) (c : Quad) : (s.setQuad k c).parts = s.parts := rfl
@[simp] theorem State.setQuad_snap (s : State) (k : Nat) (c : Quad) : (s.setQuad k c).snap = s.snap := rfl
@[simp] theorem State.setQuad_trRoot (s : State) (k : Nat) (c : Quad) : (s.setQuad k c).trRoot = s.trRoot := rfl
@[simp] theorem State.setQuad_tcs (s : State) (k : Nat) (c : Quad) : (s.setQuad k c).tcs = s.tcs := rfl
@[simp] theorem State.setQuad_power (s : State) (k : Nat) (c : Quad) : (s.setQuad k c).power = s.power := rfl
@[simp] theorem State.setQuad_tm (s : State) (k : Nat) (c : Quad) : (s.setQuad k c).tm = s.tm := rfl
@[simp] theorem State.setQuad_forests (s : State) (k : Nat) (c : Quad) : (s.setQuad k c).forests = s.forests := rfl
@[simp] theorem State.setQuad_scheds (s : State) (k : Nat) (c : Quad) : (s.setQuad k c).scheds = s.scheds := rfl
@[simp] theorem State.setQuad_xlat (s : State) (k : Nat) (c : Quad) : (s.setQuad k c).xlat = s.xlat := rfl
@[simp] theorem State.setQuad_boot (s : State) (k : Nat) (c : Quad) : (s.setQuad k c).boot = s.boot := rfl
@[simp] theorem State.setQuad_rom (s : State) (k : Nat) (c : Quad) : (s.setQuad k c).rom = s.rom := rfl
@[simp] theorem State.setQuad_sampled (s : State) (k : Nat) (c : Quad) : (s.setQuad k c).sampled = s.sampled := rfl
@[simp] theorem State.setQuad_shown (s : State) (k : Nat) (c : Quad) : (s.setQuad k c).shown = s.shown := rfl
@[simp] theorem State.setQuad_dark (s : State) (k : Nat) (c : Quad) : (s.setQuad k c).dark = s.dark := rfl
@[simp] theorem State.setQuad_darkCols (s : State) (k : Nat) (c : Quad) : (s.setQuad k c).darkCols = s.darkCols := rfl
@[simp] theorem State.setQuad_tokenQ (s : State) (k : Nat) (c : Quad) : (s.setQuad k c).tokenQ = s.tokenQ := rfl
@[simp] theorem State.setQuad_tokenHolder (s : State) (k : Nat) (c : Quad) : (s.setQuad k c).tokenHolder = s.tokenHolder := rfl

/-! ## setSlice -/

@[simp] theorem State.setSlice_cur (s : State) (k : Nat) (c : Slice) : (s.setSlice k c).cur = s.cur := rfl
@[simp] theorem State.setSlice_args (s : State) (k : Nat) (c : Slice) : (s.setSlice k c).args = s.args := rfl
@[simp] theorem State.setSlice_seq (s : State) (k : Nat) (c : Slice) : (s.setSlice k c).seq = s.seq := rfl
@[simp] theorem State.setSlice_time (s : State) (k : Nat) (c : Slice) : (s.setSlice k c).time = s.time := rfl
@[simp] theorem State.setSlice_agenda (s : State) (k : Nat) (c : Slice) : (s.setSlice k c).agenda = s.agenda := rfl
@[simp] theorem State.setSlice_flight (s : State) (k : Nat) (c : Slice) : (s.setSlice k c).flight = s.flight := rfl
@[simp] theorem State.setSlice_nextMsg (s : State) (k : Nat) (c : Slice) : (s.setSlice k c).nextMsg = s.nextMsg := rfl
@[simp] theorem State.setSlice_inputs (s : State) (k : Nat) (c : Slice) : (s.setSlice k c).inputs = s.inputs := rfl
@[simp] theorem State.setSlice_outbox (s : State) (k : Nat) (c : Slice) : (s.setSlice k c).outbox = s.outbox := rfl
@[simp] theorem State.setSlice_mem (s : State) (k : Nat) (c : Slice) : (s.setSlice k c).mem = s.mem := rfl
@[simp] theorem State.setSlice_under (s : State) (k : Nat) (c : Slice) : (s.setSlice k c).under = s.under := rfl
@[simp] theorem State.setSlice_poison (s : State) (k : Nat) (c : Slice) : (s.setSlice k c).poison = s.poison := rfl
@[simp] theorem State.setSlice_flaws (s : State) (k : Nat) (c : Slice) : (s.setSlice k c).flaws = s.flaws := rfl
@[simp] theorem State.setSlice_errs (s : State) (k : Nat) (c : Slice) : (s.setSlice k c).errs = s.errs := rfl
@[simp] theorem State.setSlice_errands (s : State) (k : Nat) (c : Slice) : (s.setSlice k c).errands = s.errands := rfl
@[simp] theorem State.setSlice_cores (s : State) (k : Nat) (c : Slice) : (s.setSlice k c).cores = s.cores := rfl
@[simp] theorem State.setSlice_cols (s : State) (k : Nat) (c : Slice) : (s.setSlice k c).cols = s.cols := rfl
@[simp] theorem State.setSlice_quads (s : State) (k : Nat) (c : Slice) : (s.setSlice k c).quads = s.quads := rfl
@[simp] theorem State.setSlice_ports (s : State) (k : Nat) (c : Slice) : (s.setSlice k c).ports = s.ports := rfl
@[simp] theorem State.setSlice_flows (s : State) (k : Nat) (c : Slice) : (s.setSlice k c).flows = s.flows := rfl
@[simp] theorem State.setSlice_tlUp (s : State) (k : Nat) (c : Slice) : (s.setSlice k c).tlUp = s.tlUp := rfl
@[simp] theorem State.setSlice_tlReplay (s : State) (k : Nat) (c : Slice) : (s.setSlice k c).tlReplay = s.tlReplay := rfl
@[simp] theorem State.setSlice_tlRights (s : State) (k : Nat) (c : Slice) : (s.setSlice k c).tlRights = s.tlRights := rfl
@[simp] theorem State.setSlice_tlTrain (s : State) (k : Nat) (c : Slice) : (s.setSlice k c).tlTrain = s.tlTrain := rfl
@[simp] theorem State.setSlice_tlFails (s : State) (k : Nat) (c : Slice) : (s.setSlice k c).tlFails = s.tlFails := rfl
@[simp] theorem State.setSlice_robs (s : State) (k : Nat) (c : Slice) : (s.setSlice k c).robs = s.robs := rfl
@[simp] theorem State.setSlice_flowSeq (s : State) (k : Nat) (c : Slice) : (s.setSlice k c).flowSeq = s.flowSeq := rfl
@[simp] theorem State.setSlice_iluet (s : State) (k : Nat) (c : Slice) : (s.setSlice k c).iluet = s.iluet := rfl
@[simp] theorem State.setSlice_fw (s : State) (k : Nat) (c : Slice) : (s.setSlice k c).fw = s.fw := rfl
@[simp] theorem State.setSlice_iluetPlb (s : State) (k : Nat) (c : Slice) : (s.setSlice k c).iluetPlb = s.iluetPlb := rfl
@[simp] theorem State.setSlice_iluetMig (s : State) (k : Nat) (c : Slice) : (s.setSlice k c).iluetMig = s.iluetMig := rfl
@[simp] theorem State.setSlice_parts (s : State) (k : Nat) (c : Slice) : (s.setSlice k c).parts = s.parts := rfl
@[simp] theorem State.setSlice_snap (s : State) (k : Nat) (c : Slice) : (s.setSlice k c).snap = s.snap := rfl
@[simp] theorem State.setSlice_trRoot (s : State) (k : Nat) (c : Slice) : (s.setSlice k c).trRoot = s.trRoot := rfl
@[simp] theorem State.setSlice_tcs (s : State) (k : Nat) (c : Slice) : (s.setSlice k c).tcs = s.tcs := rfl
@[simp] theorem State.setSlice_power (s : State) (k : Nat) (c : Slice) : (s.setSlice k c).power = s.power := rfl
@[simp] theorem State.setSlice_tm (s : State) (k : Nat) (c : Slice) : (s.setSlice k c).tm = s.tm := rfl
@[simp] theorem State.setSlice_forests (s : State) (k : Nat) (c : Slice) : (s.setSlice k c).forests = s.forests := rfl
@[simp] theorem State.setSlice_scheds (s : State) (k : Nat) (c : Slice) : (s.setSlice k c).scheds = s.scheds := rfl
@[simp] theorem State.setSlice_xlat (s : State) (k : Nat) (c : Slice) : (s.setSlice k c).xlat = s.xlat := rfl
@[simp] theorem State.setSlice_boot (s : State) (k : Nat) (c : Slice) : (s.setSlice k c).boot = s.boot := rfl
@[simp] theorem State.setSlice_rom (s : State) (k : Nat) (c : Slice) : (s.setSlice k c).rom = s.rom := rfl
@[simp] theorem State.setSlice_sampled (s : State) (k : Nat) (c : Slice) : (s.setSlice k c).sampled = s.sampled := rfl
@[simp] theorem State.setSlice_shown (s : State) (k : Nat) (c : Slice) : (s.setSlice k c).shown = s.shown := rfl
@[simp] theorem State.setSlice_dark (s : State) (k : Nat) (c : Slice) : (s.setSlice k c).dark = s.dark := rfl
@[simp] theorem State.setSlice_darkCols (s : State) (k : Nat) (c : Slice) : (s.setSlice k c).darkCols = s.darkCols := rfl
@[simp] theorem State.setSlice_tokenQ (s : State) (k : Nat) (c : Slice) : (s.setSlice k c).tokenQ = s.tokenQ := rfl
@[simp] theorem State.setSlice_tokenHolder (s : State) (k : Nat) (c : Slice) : (s.setSlice k c).tokenHolder = s.tokenHolder := rfl

/-! ## writeBytes -/

@[simp] theorem State.writeBytes_cur (s : State) (k : Nat) (bs : List Byte) : (s.writeBytes k bs).cur = s.cur := rfl
@[simp] theorem State.writeBytes_args (s : State) (k : Nat) (bs : List Byte) : (s.writeBytes k bs).args = s.args := rfl
@[simp] theorem State.writeBytes_seq (s : State) (k : Nat) (bs : List Byte) : (s.writeBytes k bs).seq = s.seq := rfl
@[simp] theorem State.writeBytes_time (s : State) (k : Nat) (bs : List Byte) : (s.writeBytes k bs).time = s.time := rfl
@[simp] theorem State.writeBytes_agenda (s : State) (k : Nat) (bs : List Byte) : (s.writeBytes k bs).agenda = s.agenda := rfl
@[simp] theorem State.writeBytes_flight (s : State) (k : Nat) (bs : List Byte) : (s.writeBytes k bs).flight = s.flight := rfl
@[simp] theorem State.writeBytes_nextMsg (s : State) (k : Nat) (bs : List Byte) : (s.writeBytes k bs).nextMsg = s.nextMsg := rfl
@[simp] theorem State.writeBytes_inputs (s : State) (k : Nat) (bs : List Byte) : (s.writeBytes k bs).inputs = s.inputs := rfl
@[simp] theorem State.writeBytes_outbox (s : State) (k : Nat) (bs : List Byte) : (s.writeBytes k bs).outbox = s.outbox := rfl
@[simp] theorem State.writeBytes_under (s : State) (k : Nat) (bs : List Byte) : (s.writeBytes k bs).under = s.under := rfl
@[simp] theorem State.writeBytes_poison (s : State) (k : Nat) (bs : List Byte) : (s.writeBytes k bs).poison = s.poison := rfl
@[simp] theorem State.writeBytes_flaws (s : State) (k : Nat) (bs : List Byte) : (s.writeBytes k bs).flaws = s.flaws := rfl
@[simp] theorem State.writeBytes_errs (s : State) (k : Nat) (bs : List Byte) : (s.writeBytes k bs).errs = s.errs := rfl
@[simp] theorem State.writeBytes_errands (s : State) (k : Nat) (bs : List Byte) : (s.writeBytes k bs).errands = s.errands := rfl
@[simp] theorem State.writeBytes_cores (s : State) (k : Nat) (bs : List Byte) : (s.writeBytes k bs).cores = s.cores := rfl
@[simp] theorem State.writeBytes_cols (s : State) (k : Nat) (bs : List Byte) : (s.writeBytes k bs).cols = s.cols := rfl
@[simp] theorem State.writeBytes_quads (s : State) (k : Nat) (bs : List Byte) : (s.writeBytes k bs).quads = s.quads := rfl
@[simp] theorem State.writeBytes_ports (s : State) (k : Nat) (bs : List Byte) : (s.writeBytes k bs).ports = s.ports := rfl
@[simp] theorem State.writeBytes_flows (s : State) (k : Nat) (bs : List Byte) : (s.writeBytes k bs).flows = s.flows := rfl
@[simp] theorem State.writeBytes_tlUp (s : State) (k : Nat) (bs : List Byte) : (s.writeBytes k bs).tlUp = s.tlUp := rfl
@[simp] theorem State.writeBytes_tlReplay (s : State) (k : Nat) (bs : List Byte) : (s.writeBytes k bs).tlReplay = s.tlReplay := rfl
@[simp] theorem State.writeBytes_tlRights (s : State) (k : Nat) (bs : List Byte) : (s.writeBytes k bs).tlRights = s.tlRights := rfl
@[simp] theorem State.writeBytes_tlTrain (s : State) (k : Nat) (bs : List Byte) : (s.writeBytes k bs).tlTrain = s.tlTrain := rfl
@[simp] theorem State.writeBytes_tlFails (s : State) (k : Nat) (bs : List Byte) : (s.writeBytes k bs).tlFails = s.tlFails := rfl
@[simp] theorem State.writeBytes_robs (s : State) (k : Nat) (bs : List Byte) : (s.writeBytes k bs).robs = s.robs := rfl
@[simp] theorem State.writeBytes_flowSeq (s : State) (k : Nat) (bs : List Byte) : (s.writeBytes k bs).flowSeq = s.flowSeq := rfl
@[simp] theorem State.writeBytes_slices (s : State) (k : Nat) (bs : List Byte) : (s.writeBytes k bs).slices = s.slices := rfl
@[simp] theorem State.writeBytes_iluet (s : State) (k : Nat) (bs : List Byte) : (s.writeBytes k bs).iluet = s.iluet := rfl
@[simp] theorem State.writeBytes_fw (s : State) (k : Nat) (bs : List Byte) : (s.writeBytes k bs).fw = s.fw := rfl
@[simp] theorem State.writeBytes_iluetPlb (s : State) (k : Nat) (bs : List Byte) : (s.writeBytes k bs).iluetPlb = s.iluetPlb := rfl
@[simp] theorem State.writeBytes_iluetMig (s : State) (k : Nat) (bs : List Byte) : (s.writeBytes k bs).iluetMig = s.iluetMig := rfl
@[simp] theorem State.writeBytes_parts (s : State) (k : Nat) (bs : List Byte) : (s.writeBytes k bs).parts = s.parts := rfl
@[simp] theorem State.writeBytes_snap (s : State) (k : Nat) (bs : List Byte) : (s.writeBytes k bs).snap = s.snap := rfl
@[simp] theorem State.writeBytes_trRoot (s : State) (k : Nat) (bs : List Byte) : (s.writeBytes k bs).trRoot = s.trRoot := rfl
@[simp] theorem State.writeBytes_tcs (s : State) (k : Nat) (bs : List Byte) : (s.writeBytes k bs).tcs = s.tcs := rfl
@[simp] theorem State.writeBytes_power (s : State) (k : Nat) (bs : List Byte) : (s.writeBytes k bs).power = s.power := rfl
@[simp] theorem State.writeBytes_tm (s : State) (k : Nat) (bs : List Byte) : (s.writeBytes k bs).tm = s.tm := rfl
@[simp] theorem State.writeBytes_forests (s : State) (k : Nat) (bs : List Byte) : (s.writeBytes k bs).forests = s.forests := rfl
@[simp] theorem State.writeBytes_scheds (s : State) (k : Nat) (bs : List Byte) : (s.writeBytes k bs).scheds = s.scheds := rfl
@[simp] theorem State.writeBytes_xlat (s : State) (k : Nat) (bs : List Byte) : (s.writeBytes k bs).xlat = s.xlat := rfl
@[simp] theorem State.writeBytes_boot (s : State) (k : Nat) (bs : List Byte) : (s.writeBytes k bs).boot = s.boot := rfl
@[simp] theorem State.writeBytes_rom (s : State) (k : Nat) (bs : List Byte) : (s.writeBytes k bs).rom = s.rom := rfl
@[simp] theorem State.writeBytes_sampled (s : State) (k : Nat) (bs : List Byte) : (s.writeBytes k bs).sampled = s.sampled := rfl
@[simp] theorem State.writeBytes_shown (s : State) (k : Nat) (bs : List Byte) : (s.writeBytes k bs).shown = s.shown := rfl
@[simp] theorem State.writeBytes_dark (s : State) (k : Nat) (bs : List Byte) : (s.writeBytes k bs).dark = s.dark := rfl
@[simp] theorem State.writeBytes_darkCols (s : State) (k : Nat) (bs : List Byte) : (s.writeBytes k bs).darkCols = s.darkCols := rfl
@[simp] theorem State.writeBytes_tokenQ (s : State) (k : Nat) (bs : List Byte) : (s.writeBytes k bs).tokenQ = s.tokenQ := rfl
@[simp] theorem State.writeBytes_tokenHolder (s : State) (k : Nat) (bs : List Byte) : (s.writeBytes k bs).tokenHolder = s.tokenHolder := rfl

/-! ## send -/

@[simp] theorem State.send_cur (s : State) (m : Msg) : (s.send m).cur = s.cur := rfl
@[simp] theorem State.send_args (s : State) (m : Msg) : (s.send m).args = s.args := rfl
@[simp] theorem State.send_seq (s : State) (m : Msg) : (s.send m).seq = s.seq := rfl
@[simp] theorem State.send_time (s : State) (m : Msg) : (s.send m).time = s.time := rfl
@[simp] theorem State.send_agenda (s : State) (m : Msg) : (s.send m).agenda = s.agenda := rfl
@[simp] theorem State.send_inputs (s : State) (m : Msg) : (s.send m).inputs = s.inputs := rfl
@[simp] theorem State.send_outbox (s : State) (m : Msg) : (s.send m).outbox = s.outbox := rfl
@[simp] theorem State.send_mem (s : State) (m : Msg) : (s.send m).mem = s.mem := rfl
@[simp] theorem State.send_under (s : State) (m : Msg) : (s.send m).under = s.under := rfl
@[simp] theorem State.send_poison (s : State) (m : Msg) : (s.send m).poison = s.poison := rfl
@[simp] theorem State.send_flaws (s : State) (m : Msg) : (s.send m).flaws = s.flaws := rfl
@[simp] theorem State.send_errs (s : State) (m : Msg) : (s.send m).errs = s.errs := rfl
@[simp] theorem State.send_errands (s : State) (m : Msg) : (s.send m).errands = s.errands := rfl
@[simp] theorem State.send_cores (s : State) (m : Msg) : (s.send m).cores = s.cores := rfl
@[simp] theorem State.send_cols (s : State) (m : Msg) : (s.send m).cols = s.cols := rfl
@[simp] theorem State.send_quads (s : State) (m : Msg) : (s.send m).quads = s.quads := rfl
@[simp] theorem State.send_ports (s : State) (m : Msg) : (s.send m).ports = s.ports := rfl
@[simp] theorem State.send_flows (s : State) (m : Msg) : (s.send m).flows = s.flows := rfl
@[simp] theorem State.send_tlUp (s : State) (m : Msg) : (s.send m).tlUp = s.tlUp := rfl
@[simp] theorem State.send_tlReplay (s : State) (m : Msg) : (s.send m).tlReplay = s.tlReplay := rfl
@[simp] theorem State.send_tlRights (s : State) (m : Msg) : (s.send m).tlRights = s.tlRights := rfl
@[simp] theorem State.send_tlTrain (s : State) (m : Msg) : (s.send m).tlTrain = s.tlTrain := rfl
@[simp] theorem State.send_tlFails (s : State) (m : Msg) : (s.send m).tlFails = s.tlFails := rfl
@[simp] theorem State.send_robs (s : State) (m : Msg) : (s.send m).robs = s.robs := rfl
@[simp] theorem State.send_flowSeq (s : State) (m : Msg) : (s.send m).flowSeq = s.flowSeq := rfl
@[simp] theorem State.send_slices (s : State) (m : Msg) : (s.send m).slices = s.slices := rfl
@[simp] theorem State.send_iluet (s : State) (m : Msg) : (s.send m).iluet = s.iluet := rfl
@[simp] theorem State.send_fw (s : State) (m : Msg) : (s.send m).fw = s.fw := rfl
@[simp] theorem State.send_iluetPlb (s : State) (m : Msg) : (s.send m).iluetPlb = s.iluetPlb := rfl
@[simp] theorem State.send_iluetMig (s : State) (m : Msg) : (s.send m).iluetMig = s.iluetMig := rfl
@[simp] theorem State.send_parts (s : State) (m : Msg) : (s.send m).parts = s.parts := rfl
@[simp] theorem State.send_snap (s : State) (m : Msg) : (s.send m).snap = s.snap := rfl
@[simp] theorem State.send_trRoot (s : State) (m : Msg) : (s.send m).trRoot = s.trRoot := rfl
@[simp] theorem State.send_tcs (s : State) (m : Msg) : (s.send m).tcs = s.tcs := rfl
@[simp] theorem State.send_power (s : State) (m : Msg) : (s.send m).power = s.power := rfl
@[simp] theorem State.send_tm (s : State) (m : Msg) : (s.send m).tm = s.tm := rfl
@[simp] theorem State.send_forests (s : State) (m : Msg) : (s.send m).forests = s.forests := rfl
@[simp] theorem State.send_scheds (s : State) (m : Msg) : (s.send m).scheds = s.scheds := rfl
@[simp] theorem State.send_xlat (s : State) (m : Msg) : (s.send m).xlat = s.xlat := rfl
@[simp] theorem State.send_boot (s : State) (m : Msg) : (s.send m).boot = s.boot := rfl
@[simp] theorem State.send_rom (s : State) (m : Msg) : (s.send m).rom = s.rom := rfl
@[simp] theorem State.send_sampled (s : State) (m : Msg) : (s.send m).sampled = s.sampled := rfl
@[simp] theorem State.send_shown (s : State) (m : Msg) : (s.send m).shown = s.shown := rfl
@[simp] theorem State.send_dark (s : State) (m : Msg) : (s.send m).dark = s.dark := rfl
@[simp] theorem State.send_darkCols (s : State) (m : Msg) : (s.send m).darkCols = s.darkCols := rfl
@[simp] theorem State.send_tokenQ (s : State) (m : Msg) : (s.send m).tokenQ = s.tokenQ := rfl
@[simp] theorem State.send_tokenHolder (s : State) (m : Msg) : (s.send m).tokenHolder = s.tokenHolder := rfl

/-! ## drop -/

@[simp] theorem State.drop_cur (s : State) (id : Nat) : (s.drop id).cur = s.cur := rfl
@[simp] theorem State.drop_args (s : State) (id : Nat) : (s.drop id).args = s.args := rfl
@[simp] theorem State.drop_seq (s : State) (id : Nat) : (s.drop id).seq = s.seq := rfl
@[simp] theorem State.drop_time (s : State) (id : Nat) : (s.drop id).time = s.time := rfl
@[simp] theorem State.drop_agenda (s : State) (id : Nat) : (s.drop id).agenda = s.agenda := rfl
@[simp] theorem State.drop_nextMsg (s : State) (id : Nat) : (s.drop id).nextMsg = s.nextMsg := rfl
@[simp] theorem State.drop_inputs (s : State) (id : Nat) : (s.drop id).inputs = s.inputs := rfl
@[simp] theorem State.drop_outbox (s : State) (id : Nat) : (s.drop id).outbox = s.outbox := rfl
@[simp] theorem State.drop_mem (s : State) (id : Nat) : (s.drop id).mem = s.mem := rfl
@[simp] theorem State.drop_under (s : State) (id : Nat) : (s.drop id).under = s.under := rfl
@[simp] theorem State.drop_poison (s : State) (id : Nat) : (s.drop id).poison = s.poison := rfl
@[simp] theorem State.drop_flaws (s : State) (id : Nat) : (s.drop id).flaws = s.flaws := rfl
@[simp] theorem State.drop_errs (s : State) (id : Nat) : (s.drop id).errs = s.errs := rfl
@[simp] theorem State.drop_errands (s : State) (id : Nat) : (s.drop id).errands = s.errands := rfl
@[simp] theorem State.drop_cores (s : State) (id : Nat) : (s.drop id).cores = s.cores := rfl
@[simp] theorem State.drop_cols (s : State) (id : Nat) : (s.drop id).cols = s.cols := rfl
@[simp] theorem State.drop_quads (s : State) (id : Nat) : (s.drop id).quads = s.quads := rfl
@[simp] theorem State.drop_ports (s : State) (id : Nat) : (s.drop id).ports = s.ports := rfl
@[simp] theorem State.drop_flows (s : State) (id : Nat) : (s.drop id).flows = s.flows := rfl
@[simp] theorem State.drop_tlUp (s : State) (id : Nat) : (s.drop id).tlUp = s.tlUp := rfl
@[simp] theorem State.drop_tlReplay (s : State) (id : Nat) : (s.drop id).tlReplay = s.tlReplay := rfl
@[simp] theorem State.drop_tlRights (s : State) (id : Nat) : (s.drop id).tlRights = s.tlRights := rfl
@[simp] theorem State.drop_tlTrain (s : State) (id : Nat) : (s.drop id).tlTrain = s.tlTrain := rfl
@[simp] theorem State.drop_tlFails (s : State) (id : Nat) : (s.drop id).tlFails = s.tlFails := rfl
@[simp] theorem State.drop_robs (s : State) (id : Nat) : (s.drop id).robs = s.robs := rfl
@[simp] theorem State.drop_flowSeq (s : State) (id : Nat) : (s.drop id).flowSeq = s.flowSeq := rfl
@[simp] theorem State.drop_slices (s : State) (id : Nat) : (s.drop id).slices = s.slices := rfl
@[simp] theorem State.drop_iluet (s : State) (id : Nat) : (s.drop id).iluet = s.iluet := rfl
@[simp] theorem State.drop_fw (s : State) (id : Nat) : (s.drop id).fw = s.fw := rfl
@[simp] theorem State.drop_iluetPlb (s : State) (id : Nat) : (s.drop id).iluetPlb = s.iluetPlb := rfl
@[simp] theorem State.drop_iluetMig (s : State) (id : Nat) : (s.drop id).iluetMig = s.iluetMig := rfl
@[simp] theorem State.drop_parts (s : State) (id : Nat) : (s.drop id).parts = s.parts := rfl
@[simp] theorem State.drop_snap (s : State) (id : Nat) : (s.drop id).snap = s.snap := rfl
@[simp] theorem State.drop_trRoot (s : State) (id : Nat) : (s.drop id).trRoot = s.trRoot := rfl
@[simp] theorem State.drop_tcs (s : State) (id : Nat) : (s.drop id).tcs = s.tcs := rfl
@[simp] theorem State.drop_power (s : State) (id : Nat) : (s.drop id).power = s.power := rfl
@[simp] theorem State.drop_tm (s : State) (id : Nat) : (s.drop id).tm = s.tm := rfl
@[simp] theorem State.drop_forests (s : State) (id : Nat) : (s.drop id).forests = s.forests := rfl
@[simp] theorem State.drop_scheds (s : State) (id : Nat) : (s.drop id).scheds = s.scheds := rfl
@[simp] theorem State.drop_xlat (s : State) (id : Nat) : (s.drop id).xlat = s.xlat := rfl
@[simp] theorem State.drop_boot (s : State) (id : Nat) : (s.drop id).boot = s.boot := rfl
@[simp] theorem State.drop_rom (s : State) (id : Nat) : (s.drop id).rom = s.rom := rfl
@[simp] theorem State.drop_sampled (s : State) (id : Nat) : (s.drop id).sampled = s.sampled := rfl
@[simp] theorem State.drop_shown (s : State) (id : Nat) : (s.drop id).shown = s.shown := rfl
@[simp] theorem State.drop_dark (s : State) (id : Nat) : (s.drop id).dark = s.dark := rfl
@[simp] theorem State.drop_darkCols (s : State) (id : Nat) : (s.drop id).darkCols = s.darkCols := rfl
@[simp] theorem State.drop_tokenQ (s : State) (id : Nat) : (s.drop id).tokenQ = s.tokenQ := rfl
@[simp] theorem State.drop_tokenHolder (s : State) (id : Nat) : (s.drop id).tokenHolder = s.tokenHolder := rfl

/-! ## at -/

@[simp] theorem State.at_cur (s : State) (t : Nat) (row : Instr) (args : List Nat) : (s.at t row args).cur = s.cur := rfl
@[simp] theorem State.at_args (s : State) (t : Nat) (row : Instr) (args : List Nat) : (s.at t row args).args = s.args := rfl
@[simp] theorem State.at_seq (s : State) (t : Nat) (row : Instr) (args : List Nat) : (s.at t row args).seq = s.seq := rfl
@[simp] theorem State.at_time (s : State) (t : Nat) (row : Instr) (args : List Nat) : (s.at t row args).time = s.time := rfl
@[simp] theorem State.at_flight (s : State) (t : Nat) (row : Instr) (args : List Nat) : (s.at t row args).flight = s.flight := rfl
@[simp] theorem State.at_nextMsg (s : State) (t : Nat) (row : Instr) (args : List Nat) : (s.at t row args).nextMsg = s.nextMsg := rfl
@[simp] theorem State.at_inputs (s : State) (t : Nat) (row : Instr) (args : List Nat) : (s.at t row args).inputs = s.inputs := rfl
@[simp] theorem State.at_outbox (s : State) (t : Nat) (row : Instr) (args : List Nat) : (s.at t row args).outbox = s.outbox := rfl
@[simp] theorem State.at_mem (s : State) (t : Nat) (row : Instr) (args : List Nat) : (s.at t row args).mem = s.mem := rfl
@[simp] theorem State.at_under (s : State) (t : Nat) (row : Instr) (args : List Nat) : (s.at t row args).under = s.under := rfl
@[simp] theorem State.at_poison (s : State) (t : Nat) (row : Instr) (args : List Nat) : (s.at t row args).poison = s.poison := rfl
@[simp] theorem State.at_flaws (s : State) (t : Nat) (row : Instr) (args : List Nat) : (s.at t row args).flaws = s.flaws := rfl
@[simp] theorem State.at_errs (s : State) (t : Nat) (row : Instr) (args : List Nat) : (s.at t row args).errs = s.errs := rfl
@[simp] theorem State.at_errands (s : State) (t : Nat) (row : Instr) (args : List Nat) : (s.at t row args).errands = s.errands := rfl
@[simp] theorem State.at_cores (s : State) (t : Nat) (row : Instr) (args : List Nat) : (s.at t row args).cores = s.cores := rfl
@[simp] theorem State.at_cols (s : State) (t : Nat) (row : Instr) (args : List Nat) : (s.at t row args).cols = s.cols := rfl
@[simp] theorem State.at_quads (s : State) (t : Nat) (row : Instr) (args : List Nat) : (s.at t row args).quads = s.quads := rfl
@[simp] theorem State.at_ports (s : State) (t : Nat) (row : Instr) (args : List Nat) : (s.at t row args).ports = s.ports := rfl
@[simp] theorem State.at_flows (s : State) (t : Nat) (row : Instr) (args : List Nat) : (s.at t row args).flows = s.flows := rfl
@[simp] theorem State.at_tlUp (s : State) (t : Nat) (row : Instr) (args : List Nat) : (s.at t row args).tlUp = s.tlUp := rfl
@[simp] theorem State.at_tlReplay (s : State) (t : Nat) (row : Instr) (args : List Nat) : (s.at t row args).tlReplay = s.tlReplay := rfl
@[simp] theorem State.at_tlRights (s : State) (t : Nat) (row : Instr) (args : List Nat) : (s.at t row args).tlRights = s.tlRights := rfl
@[simp] theorem State.at_tlTrain (s : State) (t : Nat) (row : Instr) (args : List Nat) : (s.at t row args).tlTrain = s.tlTrain := rfl
@[simp] theorem State.at_tlFails (s : State) (t : Nat) (row : Instr) (args : List Nat) : (s.at t row args).tlFails = s.tlFails := rfl
@[simp] theorem State.at_robs (s : State) (t : Nat) (row : Instr) (args : List Nat) : (s.at t row args).robs = s.robs := rfl
@[simp] theorem State.at_flowSeq (s : State) (t : Nat) (row : Instr) (args : List Nat) : (s.at t row args).flowSeq = s.flowSeq := rfl
@[simp] theorem State.at_slices (s : State) (t : Nat) (row : Instr) (args : List Nat) : (s.at t row args).slices = s.slices := rfl
@[simp] theorem State.at_iluet (s : State) (t : Nat) (row : Instr) (args : List Nat) : (s.at t row args).iluet = s.iluet := rfl
@[simp] theorem State.at_fw (s : State) (t : Nat) (row : Instr) (args : List Nat) : (s.at t row args).fw = s.fw := rfl
@[simp] theorem State.at_iluetPlb (s : State) (t : Nat) (row : Instr) (args : List Nat) : (s.at t row args).iluetPlb = s.iluetPlb := rfl
@[simp] theorem State.at_iluetMig (s : State) (t : Nat) (row : Instr) (args : List Nat) : (s.at t row args).iluetMig = s.iluetMig := rfl
@[simp] theorem State.at_parts (s : State) (t : Nat) (row : Instr) (args : List Nat) : (s.at t row args).parts = s.parts := rfl
@[simp] theorem State.at_snap (s : State) (t : Nat) (row : Instr) (args : List Nat) : (s.at t row args).snap = s.snap := rfl
@[simp] theorem State.at_trRoot (s : State) (t : Nat) (row : Instr) (args : List Nat) : (s.at t row args).trRoot = s.trRoot := rfl
@[simp] theorem State.at_tcs (s : State) (t : Nat) (row : Instr) (args : List Nat) : (s.at t row args).tcs = s.tcs := rfl
@[simp] theorem State.at_power (s : State) (t : Nat) (row : Instr) (args : List Nat) : (s.at t row args).power = s.power := rfl
@[simp] theorem State.at_tm (s : State) (t : Nat) (row : Instr) (args : List Nat) : (s.at t row args).tm = s.tm := rfl
@[simp] theorem State.at_forests (s : State) (t : Nat) (row : Instr) (args : List Nat) : (s.at t row args).forests = s.forests := rfl
@[simp] theorem State.at_scheds (s : State) (t : Nat) (row : Instr) (args : List Nat) : (s.at t row args).scheds = s.scheds := rfl
@[simp] theorem State.at_xlat (s : State) (t : Nat) (row : Instr) (args : List Nat) : (s.at t row args).xlat = s.xlat := rfl
@[simp] theorem State.at_boot (s : State) (t : Nat) (row : Instr) (args : List Nat) : (s.at t row args).boot = s.boot := rfl
@[simp] theorem State.at_rom (s : State) (t : Nat) (row : Instr) (args : List Nat) : (s.at t row args).rom = s.rom := rfl
@[simp] theorem State.at_sampled (s : State) (t : Nat) (row : Instr) (args : List Nat) : (s.at t row args).sampled = s.sampled := rfl
@[simp] theorem State.at_shown (s : State) (t : Nat) (row : Instr) (args : List Nat) : (s.at t row args).shown = s.shown := rfl
@[simp] theorem State.at_dark (s : State) (t : Nat) (row : Instr) (args : List Nat) : (s.at t row args).dark = s.dark := rfl
@[simp] theorem State.at_darkCols (s : State) (t : Nat) (row : Instr) (args : List Nat) : (s.at t row args).darkCols = s.darkCols := rfl
@[simp] theorem State.at_tokenQ (s : State) (t : Nat) (row : Instr) (args : List Nat) : (s.at t row args).tokenQ = s.tokenQ := rfl
@[simp] theorem State.at_tokenHolder (s : State) (t : Nat) (row : Instr) (args : List Nat) : (s.at t row args).tokenHolder = s.tokenHolder := rfl

/-! ## out -/

@[simp] theorem State.out_cur (s : State) (p : Nat) (ws : List Nat) : (s.out p ws).cur = s.cur := rfl
@[simp] theorem State.out_args (s : State) (p : Nat) (ws : List Nat) : (s.out p ws).args = s.args := rfl
@[simp] theorem State.out_seq (s : State) (p : Nat) (ws : List Nat) : (s.out p ws).seq = s.seq := rfl
@[simp] theorem State.out_time (s : State) (p : Nat) (ws : List Nat) : (s.out p ws).time = s.time := rfl
@[simp] theorem State.out_agenda (s : State) (p : Nat) (ws : List Nat) : (s.out p ws).agenda = s.agenda := rfl
@[simp] theorem State.out_flight (s : State) (p : Nat) (ws : List Nat) : (s.out p ws).flight = s.flight := rfl
@[simp] theorem State.out_nextMsg (s : State) (p : Nat) (ws : List Nat) : (s.out p ws).nextMsg = s.nextMsg := rfl
@[simp] theorem State.out_inputs (s : State) (p : Nat) (ws : List Nat) : (s.out p ws).inputs = s.inputs := rfl
@[simp] theorem State.out_mem (s : State) (p : Nat) (ws : List Nat) : (s.out p ws).mem = s.mem := rfl
@[simp] theorem State.out_under (s : State) (p : Nat) (ws : List Nat) : (s.out p ws).under = s.under := rfl
@[simp] theorem State.out_poison (s : State) (p : Nat) (ws : List Nat) : (s.out p ws).poison = s.poison := rfl
@[simp] theorem State.out_flaws (s : State) (p : Nat) (ws : List Nat) : (s.out p ws).flaws = s.flaws := rfl
@[simp] theorem State.out_errs (s : State) (p : Nat) (ws : List Nat) : (s.out p ws).errs = s.errs := rfl
@[simp] theorem State.out_errands (s : State) (p : Nat) (ws : List Nat) : (s.out p ws).errands = s.errands := rfl
@[simp] theorem State.out_cores (s : State) (p : Nat) (ws : List Nat) : (s.out p ws).cores = s.cores := rfl
@[simp] theorem State.out_cols (s : State) (p : Nat) (ws : List Nat) : (s.out p ws).cols = s.cols := rfl
@[simp] theorem State.out_quads (s : State) (p : Nat) (ws : List Nat) : (s.out p ws).quads = s.quads := rfl
@[simp] theorem State.out_ports (s : State) (p : Nat) (ws : List Nat) : (s.out p ws).ports = s.ports := rfl
@[simp] theorem State.out_flows (s : State) (p : Nat) (ws : List Nat) : (s.out p ws).flows = s.flows := rfl
@[simp] theorem State.out_tlUp (s : State) (p : Nat) (ws : List Nat) : (s.out p ws).tlUp = s.tlUp := rfl
@[simp] theorem State.out_tlReplay (s : State) (p : Nat) (ws : List Nat) : (s.out p ws).tlReplay = s.tlReplay := rfl
@[simp] theorem State.out_tlRights (s : State) (p : Nat) (ws : List Nat) : (s.out p ws).tlRights = s.tlRights := rfl
@[simp] theorem State.out_tlTrain (s : State) (p : Nat) (ws : List Nat) : (s.out p ws).tlTrain = s.tlTrain := rfl
@[simp] theorem State.out_tlFails (s : State) (p : Nat) (ws : List Nat) : (s.out p ws).tlFails = s.tlFails := rfl
@[simp] theorem State.out_robs (s : State) (p : Nat) (ws : List Nat) : (s.out p ws).robs = s.robs := rfl
@[simp] theorem State.out_flowSeq (s : State) (p : Nat) (ws : List Nat) : (s.out p ws).flowSeq = s.flowSeq := rfl
@[simp] theorem State.out_slices (s : State) (p : Nat) (ws : List Nat) : (s.out p ws).slices = s.slices := rfl
@[simp] theorem State.out_iluet (s : State) (p : Nat) (ws : List Nat) : (s.out p ws).iluet = s.iluet := rfl
@[simp] theorem State.out_fw (s : State) (p : Nat) (ws : List Nat) : (s.out p ws).fw = s.fw := rfl
@[simp] theorem State.out_iluetPlb (s : State) (p : Nat) (ws : List Nat) : (s.out p ws).iluetPlb = s.iluetPlb := rfl
@[simp] theorem State.out_iluetMig (s : State) (p : Nat) (ws : List Nat) : (s.out p ws).iluetMig = s.iluetMig := rfl
@[simp] theorem State.out_parts (s : State) (p : Nat) (ws : List Nat) : (s.out p ws).parts = s.parts := rfl
@[simp] theorem State.out_snap (s : State) (p : Nat) (ws : List Nat) : (s.out p ws).snap = s.snap := rfl
@[simp] theorem State.out_trRoot (s : State) (p : Nat) (ws : List Nat) : (s.out p ws).trRoot = s.trRoot := rfl
@[simp] theorem State.out_tcs (s : State) (p : Nat) (ws : List Nat) : (s.out p ws).tcs = s.tcs := rfl
@[simp] theorem State.out_power (s : State) (p : Nat) (ws : List Nat) : (s.out p ws).power = s.power := rfl
@[simp] theorem State.out_tm (s : State) (p : Nat) (ws : List Nat) : (s.out p ws).tm = s.tm := rfl
@[simp] theorem State.out_forests (s : State) (p : Nat) (ws : List Nat) : (s.out p ws).forests = s.forests := rfl
@[simp] theorem State.out_scheds (s : State) (p : Nat) (ws : List Nat) : (s.out p ws).scheds = s.scheds := rfl
@[simp] theorem State.out_xlat (s : State) (p : Nat) (ws : List Nat) : (s.out p ws).xlat = s.xlat := rfl
@[simp] theorem State.out_boot (s : State) (p : Nat) (ws : List Nat) : (s.out p ws).boot = s.boot := rfl
@[simp] theorem State.out_rom (s : State) (p : Nat) (ws : List Nat) : (s.out p ws).rom = s.rom := rfl
@[simp] theorem State.out_sampled (s : State) (p : Nat) (ws : List Nat) : (s.out p ws).sampled = s.sampled := rfl
@[simp] theorem State.out_shown (s : State) (p : Nat) (ws : List Nat) : (s.out p ws).shown = s.shown := rfl
@[simp] theorem State.out_dark (s : State) (p : Nat) (ws : List Nat) : (s.out p ws).dark = s.dark := rfl
@[simp] theorem State.out_darkCols (s : State) (p : Nat) (ws : List Nat) : (s.out p ws).darkCols = s.darkCols := rfl
@[simp] theorem State.out_tokenQ (s : State) (p : Nat) (ws : List Nat) : (s.out p ws).tokenQ = s.tokenQ := rfl
@[simp] theorem State.out_tokenHolder (s : State) (p : Nat) (ws : List Nat) : (s.out p ws).tokenHolder = s.tokenHolder := rfl

/-! ## setCtx -/

@[simp] theorem State.setCtx_cur (s : State) (ag : Agent) (c : Ctx) : (s.setCtx ag c).cur = s.cur := by cases ag <;> rfl
@[simp] theorem State.setCtx_args (s : State) (ag : Agent) (c : Ctx) : (s.setCtx ag c).args = s.args := by cases ag <;> rfl
@[simp] theorem State.setCtx_seq (s : State) (ag : Agent) (c : Ctx) : (s.setCtx ag c).seq = s.seq := by cases ag <;> rfl
@[simp] theorem State.setCtx_time (s : State) (ag : Agent) (c : Ctx) : (s.setCtx ag c).time = s.time := by cases ag <;> rfl
@[simp] theorem State.setCtx_agenda (s : State) (ag : Agent) (c : Ctx) : (s.setCtx ag c).agenda = s.agenda := by cases ag <;> rfl
@[simp] theorem State.setCtx_flight (s : State) (ag : Agent) (c : Ctx) : (s.setCtx ag c).flight = s.flight := by cases ag <;> rfl
@[simp] theorem State.setCtx_nextMsg (s : State) (ag : Agent) (c : Ctx) : (s.setCtx ag c).nextMsg = s.nextMsg := by cases ag <;> rfl
@[simp] theorem State.setCtx_inputs (s : State) (ag : Agent) (c : Ctx) : (s.setCtx ag c).inputs = s.inputs := by cases ag <;> rfl
@[simp] theorem State.setCtx_outbox (s : State) (ag : Agent) (c : Ctx) : (s.setCtx ag c).outbox = s.outbox := by cases ag <;> rfl
@[simp] theorem State.setCtx_mem (s : State) (ag : Agent) (c : Ctx) : (s.setCtx ag c).mem = s.mem := by cases ag <;> rfl
@[simp] theorem State.setCtx_under (s : State) (ag : Agent) (c : Ctx) : (s.setCtx ag c).under = s.under := by cases ag <;> rfl
@[simp] theorem State.setCtx_poison (s : State) (ag : Agent) (c : Ctx) : (s.setCtx ag c).poison = s.poison := by cases ag <;> rfl
@[simp] theorem State.setCtx_flaws (s : State) (ag : Agent) (c : Ctx) : (s.setCtx ag c).flaws = s.flaws := by cases ag <;> rfl
@[simp] theorem State.setCtx_errs (s : State) (ag : Agent) (c : Ctx) : (s.setCtx ag c).errs = s.errs := by cases ag <;> rfl
@[simp] theorem State.setCtx_errands (s : State) (ag : Agent) (c : Ctx) : (s.setCtx ag c).errands = s.errands := by cases ag <;> rfl
@[simp] theorem State.setCtx_cols (s : State) (ag : Agent) (c : Ctx) : (s.setCtx ag c).cols = s.cols := by cases ag <;> rfl
@[simp] theorem State.setCtx_quads (s : State) (ag : Agent) (c : Ctx) : (s.setCtx ag c).quads = s.quads := by cases ag <;> rfl
@[simp] theorem State.setCtx_ports (s : State) (ag : Agent) (c : Ctx) : (s.setCtx ag c).ports = s.ports := by cases ag <;> rfl
@[simp] theorem State.setCtx_flows (s : State) (ag : Agent) (c : Ctx) : (s.setCtx ag c).flows = s.flows := by cases ag <;> rfl
@[simp] theorem State.setCtx_tlUp (s : State) (ag : Agent) (c : Ctx) : (s.setCtx ag c).tlUp = s.tlUp := by cases ag <;> rfl
@[simp] theorem State.setCtx_tlReplay (s : State) (ag : Agent) (c : Ctx) : (s.setCtx ag c).tlReplay = s.tlReplay := by cases ag <;> rfl
@[simp] theorem State.setCtx_tlRights (s : State) (ag : Agent) (c : Ctx) : (s.setCtx ag c).tlRights = s.tlRights := by cases ag <;> rfl
@[simp] theorem State.setCtx_tlTrain (s : State) (ag : Agent) (c : Ctx) : (s.setCtx ag c).tlTrain = s.tlTrain := by cases ag <;> rfl
@[simp] theorem State.setCtx_tlFails (s : State) (ag : Agent) (c : Ctx) : (s.setCtx ag c).tlFails = s.tlFails := by cases ag <;> rfl
@[simp] theorem State.setCtx_robs (s : State) (ag : Agent) (c : Ctx) : (s.setCtx ag c).robs = s.robs := by cases ag <;> rfl
@[simp] theorem State.setCtx_flowSeq (s : State) (ag : Agent) (c : Ctx) : (s.setCtx ag c).flowSeq = s.flowSeq := by cases ag <;> rfl
@[simp] theorem State.setCtx_fw (s : State) (ag : Agent) (c : Ctx) : (s.setCtx ag c).fw = s.fw := by cases ag <;> rfl
@[simp] theorem State.setCtx_iluetPlb (s : State) (ag : Agent) (c : Ctx) : (s.setCtx ag c).iluetPlb = s.iluetPlb := by cases ag <;> rfl
@[simp] theorem State.setCtx_iluetMig (s : State) (ag : Agent) (c : Ctx) : (s.setCtx ag c).iluetMig = s.iluetMig := by cases ag <;> rfl
@[simp] theorem State.setCtx_parts (s : State) (ag : Agent) (c : Ctx) : (s.setCtx ag c).parts = s.parts := by cases ag <;> rfl
@[simp] theorem State.setCtx_snap (s : State) (ag : Agent) (c : Ctx) : (s.setCtx ag c).snap = s.snap := by cases ag <;> rfl
@[simp] theorem State.setCtx_trRoot (s : State) (ag : Agent) (c : Ctx) : (s.setCtx ag c).trRoot = s.trRoot := by cases ag <;> rfl
@[simp] theorem State.setCtx_tcs (s : State) (ag : Agent) (c : Ctx) : (s.setCtx ag c).tcs = s.tcs := by cases ag <;> rfl
@[simp] theorem State.setCtx_power (s : State) (ag : Agent) (c : Ctx) : (s.setCtx ag c).power = s.power := by cases ag <;> rfl
@[simp] theorem State.setCtx_tm (s : State) (ag : Agent) (c : Ctx) : (s.setCtx ag c).tm = s.tm := by cases ag <;> rfl
@[simp] theorem State.setCtx_forests (s : State) (ag : Agent) (c : Ctx) : (s.setCtx ag c).forests = s.forests := by cases ag <;> rfl
@[simp] theorem State.setCtx_scheds (s : State) (ag : Agent) (c : Ctx) : (s.setCtx ag c).scheds = s.scheds := by cases ag <;> rfl
@[simp] theorem State.setCtx_xlat (s : State) (ag : Agent) (c : Ctx) : (s.setCtx ag c).xlat = s.xlat := by cases ag <;> rfl
@[simp] theorem State.setCtx_boot (s : State) (ag : Agent) (c : Ctx) : (s.setCtx ag c).boot = s.boot := by cases ag <;> rfl
@[simp] theorem State.setCtx_rom (s : State) (ag : Agent) (c : Ctx) : (s.setCtx ag c).rom = s.rom := by cases ag <;> rfl
@[simp] theorem State.setCtx_sampled (s : State) (ag : Agent) (c : Ctx) : (s.setCtx ag c).sampled = s.sampled := by cases ag <;> rfl
@[simp] theorem State.setCtx_shown (s : State) (ag : Agent) (c : Ctx) : (s.setCtx ag c).shown = s.shown := by cases ag <;> rfl
@[simp] theorem State.setCtx_dark (s : State) (ag : Agent) (c : Ctx) : (s.setCtx ag c).dark = s.dark := by cases ag <;> rfl
@[simp] theorem State.setCtx_darkCols (s : State) (ag : Agent) (c : Ctx) : (s.setCtx ag c).darkCols = s.darkCols := by cases ag <;> rfl
@[simp] theorem State.setCtx_tokenQ (s : State) (ag : Agent) (c : Ctx) : (s.setCtx ag c).tokenQ = s.tokenQ := by cases ag <;> rfl
@[simp] theorem State.setCtx_tokenHolder (s : State) (ag : Agent) (c : Ctx) : (s.setCtx ag c).tokenHolder = s.tokenHolder := by cases ag <;> rfl

/-! ## Records -/

@[simp] theorem State.core_setCore (s : State) (k : Nat) (c : Core) : (s.setCore k c).core k = c := look_put_self ..
theorem State.core_setCore_ne (s : State) {k j : Nat} (c : Core) (h : j ≠ k) : (s.setCore k c).core j = s.core j := look_put_ne _ _ _ h
@[simp] theorem State.col_setCol (s : State) (k : Nat) (c : Column) : (s.setCol k c).col k = c := look_put_self ..
theorem State.col_setCol_ne (s : State) {k j : Nat} (c : Column) (h : j ≠ k) : (s.setCol k c).col j = s.col j := look_put_ne _ _ _ h
@[simp] theorem State.quad_setQuad (s : State) (k : Nat) (c : Quad) : (s.setQuad k c).quad k = c := look_put_self ..
theorem State.quad_setQuad_ne (s : State) {k j : Nat} (c : Quad) (h : j ≠ k) : (s.setQuad k c).quad j = s.quad j := look_put_ne _ _ _ h
@[simp] theorem State.slice_setSlice (s : State) (k : Nat) (c : Slice) : (s.setSlice k c).slice k = c := look_put_self ..
theorem State.slice_setSlice_ne (s : State) {k j : Nat} (c : Slice) (h : j ≠ k) : (s.setSlice k c).slice j = s.slice j := look_put_ne _ _ _ h
@[simp] theorem State.core_setCol (s : State) (k j : Nat) (c : Column) : (s.setCol k c).core j = s.core j := rfl
@[simp] theorem State.core_setQuad (s : State) (k j : Nat) (c : Quad) : (s.setQuad k c).core j = s.core j := rfl
@[simp] theorem State.core_setSlice (s : State) (k j : Nat) (c : Slice) : (s.setSlice k c).core j = s.core j := rfl
@[simp] theorem State.col_setCore (s : State) (k j : Nat) (c : Core) : (s.setCore k c).col j = s.col j := rfl
@[simp] theorem State.quad_setCore (s : State) (k j : Nat) (c : Core) : (s.setCore k c).quad j = s.quad j := rfl
@[simp] theorem State.slice_setCore (s : State) (k j : Nat) (c : Core) : (s.setCore k c).slice j = s.slice j := rfl
@[simp] theorem State.setCore_setCore (s : State) (k : Nat) (c d : Core) : (s.setCore k c).setCore k d = s.setCore k d := by
  simp [State.setCore]

/-! ## Contexts -/

@[simp] theorem State.ctx_setCtx (s : State) (ag : Agent) (c : Ctx) : (s.setCtx ag c).ctx ag = c := by
  cases ag <;> simp [State.ctx, State.setCtx, State.modCore, State.modSlice]

theorem State.ctx_setCtx_ne (s : State) {ag b : Agent} (c : Ctx) (h : b ≠ ag) : (s.setCtx ag c).ctx b = s.ctx b := by
  cases ag with
  | ctx k n =>
    cases b with
    | ctx j m =>
      by_cases hk : j = k
      · subst hk
        have : m ≠ n := fun e => h (by rw [e])
        simp [State.ctx, State.setCtx, State.modCore, look_put_ne _ _ _ this]
      · simp [State.ctx, State.setCtx, State.modCore, State.core_setCore_ne _ _ hk]
    | iluet => rfl
    | ws j => rfl
  | iluet =>
    cases b with
    | ctx j m => rfl
    | iluet => exact absurd rfl h
    | ws j => rfl
  | ws k =>
    cases b with
    | ctx j m => rfl
    | iluet => rfl
    | ws j =>
      have : j ≠ k := fun e => h (by rw [e])
      simp [State.ctx, State.setCtx, State.modSlice, State.slice_setSlice_ne _ _ this]

@[simp] theorem State.setCtx_setCtx (s : State) (ag : Agent) (c d : Ctx) : (s.setCtx ag c).setCtx ag d = s.setCtx ag d := by
  cases ag <;> simp [State.setCtx, State.modCore, State.modSlice, State.setCore, State.setSlice, State.core, State.slice]

@[simp] theorem State.ctx_modCtx (s : State) (ag : Agent) (f : Ctx → Ctx) : (s.modCtx ag f).ctx ag = f (s.ctx ag) := State.ctx_setCtx ..
theorem State.ctx_modCtx_ne (s : State) {ag b : Agent} (f : Ctx → Ctx) (h : b ≠ ag) : (s.modCtx ag f).ctx b = s.ctx b := State.ctx_setCtx_ne _ _ h
@[simp] theorem State.modCtx_modCtx (s : State) (ag : Agent) (f g : Ctx → Ctx) : (s.modCtx ag f).modCtx ag g = s.modCtx ag (fun c => g (f c)) := by
  simp [State.modCtx]
@[simp] theorem State.regs_modR (s : State) (ag : Agent) (f : Regs → Regs) : (s.modR ag f).regs ag = f (s.regs ag) := by
  simp [State.regs, State.modR]
@[simp] theorem State.mem_modCtx (s : State) (ag : Agent) (f : Ctx → Ctx) : (s.modCtx ag f).mem = s.mem := State.setCtx_mem ..
@[simp] theorem State.byte_modCtx (s : State) (ag : Agent) (f : Ctx → Ctx) (k : Nat) : (s.modCtx ag f).byte k = s.byte k := by
  simp [State.byte]

/-! ## Registers -/

@[simp] theorem Regs.S_zero (r : Regs) : r.S 0 = 0 := rfl
theorem Regs.S_setS (r : Regs) (n m : Nat) (v : W64) : (r.setS n v).S m = if n ≠ 0 ∧ m = n then v else r.S m := by
  unfold Regs.setS Regs.S
  by_cases hn : n = 0
  · simp [hn]
  · by_cases hm : m = n
    · subst hm; simp [hn]
    · by_cases h0 : m = 0
      · simp [h0, hn, Ne.symm hn]
      · simp [hn, hm, h0, look_put_ne]
@[simp] theorem Regs.setS_zero (r : Regs) (v : W64) : r.setS 0 v = r := rfl
@[simp] theorem Regs.pc_setS (r : Regs) (n : Nat) (v : W64) : (r.setS n v).pc = r.pc := by unfold Regs.setS; split <;> rfl

end Sys2Proof.Machine
end

