-- ==== Sys2Proof/Laws/Issue.lean ====
section
/-!
SUPPORT. What issue, completion and the shared form of an instruction do for a context that is plain: one lemma each, which says everything.
-/

namespace Sys2Proof.Machine

open Sys2Proof

/-- Where an instruction leaves its registers. -/
def Next.regs (nx : Next) (i : Instr) (r : Regs) : Regs :=
  match nx with
  | .fall => r.next i.size
  | .goto pc => r.jump pc
  | .thru pc => let x := r.loopCheck pc; { x.1 with pc := x.2 }
  | .done => r
  | .over => r

@[simp] theorem Next.regs_fall (i : Instr) (r : Regs) : Next.fall.regs i r = r.next i.size := rfl
@[simp] theorem Next.regs_goto (i : Instr) (r : Regs) (pc : W64) : (Next.goto pc).regs i r = r.jump pc := rfl
@[simp] theorem Next.regs_done (i : Instr) (r : Regs) : Next.done.regs i r = r := rfl

@[simp] theorem State.regs_beginChunk (s : State) (ag : Agent) : (s.beginChunk ag).regs ag = s.regs ag := by
  simp only [State.regs, State.beginChunk, State.ctx_modCtx]
  split <;> rfl

/-- The cycles of a stall are a column's alone. -/
@[simp] theorem State.ctx_addStall (s : State) (ag b : Agent) : (s.addStall ag).ctx b = s.ctx b := by cases ag <;> cases b <;> rfl
@[simp] theorem State.core_addStall (s : State) (ag : Agent) (k : Nat) : (s.addStall ag).core k = s.core k := by cases ag <;> rfl

theorem State.stallMem_ne (s : State) (ag : Agent) (cls : Option Nat) (h : memoryClass cls = false) : s.stallMem ag cls = s := by
  simp [State.stallMem, h]

/-- Where no reservation of its core charges it, an instruction of a sprint class has issued, and at no charge. -/
theorem State.issueCharge_none (s : State) (core n : Nat) (cls : Option Nat) (h : (s.core core).holder = none)
    (hi : (s.ctx (.ctx core n)).issued = false) :
    s.issueCharge (.ctx core n) cls =
      .ok (if cls.isSome then s.modCtx (.ctx core n) (fun c => { c with issued := true, infl := 0 }) else s) := by
  cases cls with
  | none => rfl
  | some k => simp [State.issueCharge, h, hi]

@[simp] theorem State.ctx_modCore_retired (s : State) (core : Nat) (b : Agent) :
    (s.modCore core (fun k => { k with retired := k.retired + 1 })).ctx b = s.ctx b := by
  cases b with
  | ctx k n =>
    by_cases hk : k = core
    · subst hk; simp [State.ctx, State.modCore]
    · simp [State.ctx, State.modCore, State.core_setCore_ne _ _ hk]
  | iluet => rfl
  | ws k => rfl

theorem Plain.quiet {s : State} {core n : Nat} (h : Plain s core n) : Quiet (s.ctx (.ctx core n)) := ⟨h.ready, h.infl, fun _ => ⟨h.count, h.writes⟩⟩

/-- Completion: the next address and the counts follow, and nothing is under way any more; here no limit of a chunk is reached. -/
theorem retire_quiet {s : State} {core n : Nat} {i : Instr} {nx : Next} (h : Quiet (s.ctx (.ctx core n))) (hn : nx ≠ .over) :
    retire i (.ctx core n) s nx = s.completed core n (nx.regs i) := by
  obtain ⟨hst, hi, hc⟩ := h
  have hch : s.charge (.ctx core n) = s := by simp [State.charge, hi]
  have key : ∀ c : Ctx, c.st = .ready → ∀ r' : Regs, r' = nx.regs i c.r →
      { c.noInstr with
        r := r', st := (if c.st = .stalled then .ready else c.st), held := (if c.st = .stalled then false else c.held),
        chunk := if c.chunk.run then { c.chunk with count := c.chunk.count + 1 } else c.chunk } =
      { c.noInstr with r := nx.regs i c.r, chunk := if c.chunk.run then { c.chunk with count := c.chunk.count + 1 } else c.chunk } := by
    intro c hst r' hr'
    subst hr'
    cases c; simp_all [Ctx.noInstr]
  unfold retire
  simp only [hch, hn, if_false]
  rw [State.modCtx, key _ hst _ (by cases nx <;> rfl)]
  simp only [State.ctx_setCtx, State.ctx_modCore_retired]
  rw [if_neg]
  · rfl
  · by_cases hrun : (s.ctx (.ctx core n)).chunk.run
    · have := hc hrun; simp [hrun]; omega
    · simp [hrun]

theorem State.ctx_stallMem (s : State) (ag : Agent) (cls : Option Nat) (b : Agent) : (s.stallMem ag cls).ctx b = s.ctx b := by
  unfold State.stallMem; split <;> simp

@[simp] theorem State.regs_stallMem (s : State) (ag : Agent) (cls : Option Nat) (b : Agent) : (s.stallMem ag cls).regs b = s.regs b := by
  simp [State.regs, State.ctx_stallMem]

theorem State.holder_stallMem (s : State) (ag : Agent) (cls : Option Nat) (k : Nat) : ((s.stallMem ag cls).core k).holder = (s.core k).holder := by
  unfold State.stallMem; split <;> simp

/-- Issue counts the access and notes that the instruction has issued. -/
theorem State.issueCharge_entered (s : State) (core n : Nat) (cls : Option Nat) (h : (s.core core).holder = none)
    (hi : (s.ctx (.ctx core n)).issued = false) : (s.stallMem (.ctx core n) cls).issueCharge (.ctx core n) cls = .ok (s.entered (.ctx core n) cls) :=
  State.issueCharge_none _ _ _ _ ((State.holder_stallMem s _ cls core).trans h) (by rw [State.ctx_stallMem]; exact hi)

theorem State.ctx_entered (s : State) (ag : Agent) (cls : Option Nat) :
    (s.entered ag cls).ctx ag = if cls.isSome then { s.ctx ag with issued := true, infl := 0 } else s.ctx ag := by
  unfold State.entered; split <;> simp [State.ctx_stallMem]
@[simp] theorem State.chunk_entered (s : State) (ag : Agent) (cls : Option Nat) : ((s.entered ag cls).ctx ag).chunk = (s.ctx ag).chunk := by
  rw [State.ctx_entered]; split <;> rfl
@[simp] theorem State.regs_entered (s : State) (ag : Agent) (cls : Option Nat) : (s.entered ag cls).regs ag = s.regs ag := by
  simp only [State.regs, State.ctx_entered]; split <;> rfl
@[simp] theorem State.regs_opened (s : State) (ag : Agent) (cls : Option Nat) : (s.opened ag cls).regs ag = s.regs ag := by simp [State.opened]

/-- Issue of an instruction that is no singleton. -/
theorem issue_plain {s : State} {core n : Nat} {i : Instr} {a : Attr} (h : Plain s core n) (hl : legalOn (.ctx core n) i = true)
    (hp : a.priv = true → (s.ctx (.ctx core n)).lvl = .sup) (hr : Present s core n a.reads) (hs : a.single = false) (hb : a.before = false) :
    issue i a (.ctx core n) s = .ok (s.opened (.ctx core n) a.cls) := by
  have hr' : a.reads.any (fun k => !(s.ctx (.ctx core n)).r.present k) = false := by
    simp only [List.any_eq_false]; intro k hk; simpa [State.regs] using hr k hk
  have hp' : (a.priv && decide (Agent.ctx core n ≠ .iluet) && decide ((s.ctx (.ctx core n)).lvl = .user)) = false := by
    cases ha : a.priv <;> simp_all
  have h1 : ¬ 512 ≤ (s.ctx (.ctx core n)).chunk.count := by have := h.count; omega
  have h2 : ¬ 32 ≤ (s.ctx (.ctx core n)).chunk.writes.length := by have := h.writes; omega
  simp only [issue, hl, hp', hr', State.issueCharge_entered _ _ _ _ h.holder h.issued, hs, hb, h1, h2, State.opened]
  simp [Except.bind]

/-- Issue of a singleton between two chunks. -/
theorem issue_single {s : State} {core n : Nat} {i : Instr} {a : Attr} (h : Between s core n) (hl : legalOn (.ctx core n) i = true)
    (hp : a.priv = true → (s.ctx (.ctx core n)).lvl = .sup) (hr : Present s core n a.reads) (hs : a.single = true) :
    issue i a (.ctx core n) s = .ok (s.entered (.ctx core n) a.cls) := by
  have hr' : a.reads.any (fun k => !(s.ctx (.ctx core n)).r.present k) = false := by
    simp only [List.any_eq_false]; intro k hk; simpa [State.regs] using hr k hk
  have hp' : (a.priv && decide (Agent.ctx core n ≠ .iluet) && decide ((s.ctx (.ctx core n)).lvl = .user)) = false := by
    cases ha : a.priv <;> simp_all
  simp only [issue, hl, hp', hr', hs, State.issueCharge_entered _ _ _ _ h.holder h.issued]
  simp [Except.bind, State.endChunk, h.noChunk]

/-- Issue of an instruction before which the chunk ends, between two chunks. -/
theorem issue_before {s : State} {core n : Nat} {i : Instr} {a : Attr} (h : Between s core n) (hl : legalOn (.ctx core n) i = true)
    (hp : a.priv = true → (s.ctx (.ctx core n)).lvl = .sup) (hr : Present s core n a.reads) (hs : a.single = false) :
    issue i a (.ctx core n) s = .ok (s.opened (.ctx core n) a.cls) := by
  have hr' : a.reads.any (fun k => !(s.ctx (.ctx core n)).r.present k) = false := by
    simp only [List.any_eq_false]; intro k hk; simpa [State.regs] using hr k hk
  have hp' : (a.priv && decide (Agent.ctx core n ≠ .iluet) && decide ((s.ctx (.ctx core n)).lvl = .user)) = false := by
    cases ha : a.priv <;> simp_all
  simp only [issue, hl, hp', hr', hs, State.issueCharge_entered _ _ _ _ h.holder h.issued, State.opened]
  have he : (s.entered (.ctx core n) a.cls).endChunk (.ctx core n) = .ok (s.entered (.ctx core n) a.cls) := by
    simp [State.endChunk, h.noChunk]
  by_cases hb : (a.before || decide (512 ≤ (s.ctx (.ctx core n)).chunk.count) || decide (32 ≤ (s.ctx (.ctx core n)).chunk.writes.length)) = true
  · simp only [Except.bind, hb, if_true, he]; simp
  · simp only [Except.bind, hb]; simp

/-- What an instruction that is no singleton does when its meaning completes on the opened chunk. -/
theorem runWord_plain {s s2 : State} {core n : Nat} {i : Instr} {a : Attr} {m : State → Agent → Try (State × Next)} {nx : Next}
    (h : Plain s core n) (hl : legalOn (.ctx core n) i = true) (hp : a.priv = true → (s.ctx (.ctx core n)).lvl = .sup)
    (hr : Present s core n a.reads) (hs : a.single = false) (hb : a.before = false)
    (hm : m (s.opened (.ctx core n) a.cls) (.ctx core n) = .ok (s2, nx)) (hq : Quiet (s2.ctx (.ctx core n))) (hn : nx ≠ .over) :
    runWord i a m s = .next (s2.completed core n (nx.regs i)) := by
  simp only [runWord, h.cur, issue_plain h hl hp hr hs hb, Except.bind, hm, settle, retire_quiet hq hn]

/-- What a singleton does between two chunks when its meaning completes. -/
theorem runWord_single {s s2 : State} {core n : Nat} {i : Instr} {a : Attr} {m : State → Agent → Try (State × Next)} {nx : Next}
    (h : Between s core n) (hl : legalOn (.ctx core n) i = true) (hp : a.priv = true → (s.ctx (.ctx core n)).lvl = .sup)
    (hr : Present s core n a.reads) (hs : a.single = true)
    (hm : m (s.entered (.ctx core n) a.cls) (.ctx core n) = .ok (s2, nx)) (hq : Quiet (s2.ctx (.ctx core n))) (hn : nx ≠ .over) :
    runWord i a m s = .next (s2.completed core n (nx.regs i)) := by
  simp only [runWord, h.cur, issue_single h hl hp hr hs, Except.bind, hm, settle, retire_quiet hq hn]

/-- What an instruction before which the chunk ends does between two chunks when its meaning completes. -/
theorem runWord_before {s s2 : State} {core n : Nat} {i : Instr} {a : Attr} {m : State → Agent → Try (State × Next)} {nx : Next}
    (h : Between s core n) (hl : legalOn (.ctx core n) i = true) (hp : a.priv = true → (s.ctx (.ctx core n)).lvl = .sup)
    (hr : Present s core n a.reads) (hs : a.single = false)
    (hm : m (s.opened (.ctx core n) a.cls) (.ctx core n) = .ok (s2, nx)) (hq : Quiet (s2.ctx (.ctx core n))) (hn : nx ≠ .over) :
    runWord i a m s = .next (s2.completed core n (nx.regs i)) := by
  simp only [runWord, h.cur, issue_before h hl hp hr hs, Except.bind, hm, settle, retire_quiet hq hn]

/-- What a meaning that stops gives: the outcome of its stop. -/
theorem runWord_stop {s : State} {core n : Nat} {i : Instr} {a : Attr} {m : State → Agent → Try (State × Next)} {e : Stop}
    (h : Plain s core n) (hl : legalOn (.ctx core n) i = true) (hp : a.priv = true → (s.ctx (.ctx core n)).lvl = .sup)
    (hr : Present s core n a.reads) (hs : a.single = false) (hb : a.before = false)
    (hm : m (s.opened (.ctx core n) a.cls) (.ctx core n) = .error e) :
    runWord i a m s = settle s (.ctx core n) (.error e) := by
  simp only [runWord, h.cur, issue_plain h hl hp hr hs hb, Except.bind, hm]

theorem runWord_single_stop {s : State} {core n : Nat} {i : Instr} {a : Attr} {m : State → Agent → Try (State × Next)} {e : Stop}
    (h : Between s core n) (hl : legalOn (.ctx core n) i = true) (hp : a.priv = true → (s.ctx (.ctx core n)).lvl = .sup)
    (hr : Present s core n a.reads) (hs : a.single = true)
    (hm : m (s.entered (.ctx core n) a.cls) (.ctx core n) = .error e) :
    runWord i a m s = settle s (.ctx core n) (.error e) := by
  simp only [runWord, h.cur, issue_single h hl hp hr hs, Except.bind, hm]

theorem quiet_entered {s : State} {core n : Nat} (h : Quiet (s.ctx (.ctx core n))) (cls : Option Nat) :
    Quiet ((s.entered (.ctx core n) cls).ctx (.ctx core n)) := by
  rw [State.ctx_entered]; split
  · exact ⟨h.ready, rfl, h.room⟩
  · exact h

theorem quiet_beginChunk {s : State} {core n : Nat} (h : Quiet (s.ctx (.ctx core n))) : Quiet ((s.beginChunk (.ctx core n)).ctx (.ctx core n)) := by
  simp only [State.beginChunk, State.ctx_modCtx]
  split
  · exact h
  · exact ⟨h.ready, h.infl, fun _ => ⟨by simp, by simp⟩⟩

theorem quiet_opened {s : State} {core n : Nat} (h : Quiet (s.ctx (.ctx core n))) (cls : Option Nat) :
    Quiet ((s.opened (.ctx core n) cls).ctx (.ctx core n)) := quiet_beginChunk (quiet_entered h cls)

/-- A change of registers leaves a quiet context quiet. -/
theorem Quiet.withR {c : Ctx} (h : Quiet c) (r : Regs) : Quiet { c with r := r } := ⟨h.1, h.2, h.3⟩

/-- What an instruction that only computes on its own registers does. -/
theorem runRegs_plain {s : State} {core n : Nat} {i : Instr} {cls : Nat} {reads : List Nat} {f : Regs → Except Trap (Regs × Next)} {r : Regs} {nx : Next}
    (h : Plain s core n) (hl : legalOn (.ctx core n) i = true) (hr : Present s core n reads) (hc : memoryClass (some cls) = false)
    (hf : f (s.regs (.ctx core n)) = .ok (r, nx)) (hn : nx ≠ .over) :
    runRegs i cls reads f s = .next (s.finish core n (fun _ => nx.regs i r)) := by
  rw [runRegs, runWord_plain (s2 := (s.opened (.ctx core n) (some cls)).modR (.ctx core n) (fun _ => r)) (nx := nx) h hl (by simp) hr rfl rfl
    (by simp only [State.regs_opened, hf, liftT, Except.bind]) (by rw [State.modR, State.ctx_modCtx]; exact (quiet_opened h.quiet _).withR _) hn]
  simp only [State.finish, State.completed, State.modR, State.modCtx_modCtx, State.opened, State.beginChunk, State.entered, Option.isSome_some, if_true,
    State.stallMem_ne _ _ _ hc]
  congr 3
  funext c
  cases c; simp only [Ctx.noInstr]; split <;> simp_all

/-- A trap of such an instruction. -/
theorem runRegs_trap {s : State} {core n : Nat} {i : Instr} {cls : Nat} {reads : List Nat} {f : Regs → Except Trap (Regs × Next)} {t : Trap}
    (h : Plain s core n) (hl : legalOn (.ctx core n) i = true) (hr : Present s core n reads)
    (hf : f (s.regs (.ctx core n)) = .error t) :
    runRegs i cls reads f s = .next (s.takeTrap (.ctx core n) t) := by
  rw [runRegs, runWord_stop (e := .trap t) h hl (by simp) hr rfl rfl
    (by simp only [State.regs_opened, hf, liftT, Except.bind])]
  rfl

/-- A trap of a quiet context between two chunks: the cause is delivered in a state that reads as the one before. -/
theorem takeTrap_between {s : State} {core n : Nat} {t : Trap} (h : Between s core n) (ht : (s.regs (.ctx core n)).tpend = []) (hp : t.plb = none) :
    s.takeTrap (.ctx core n) t = (s.setCtx (.ctx core n) (s.ctx (.ctx core n))).deliver (.ctx core n) t := by
  have hs : s.modCtx (.ctx core n) Ctx.noInstr = s.setCtx (.ctx core n) (s.ctx (.ctx core n)) := by
    unfold State.modCtx
    congr 1
    have := h.asked; have := h.reply; have := h.got; have := h.waitOn; have := h.infl; have := h.issued; have := h.missed; have := h.bankFmt
    generalize s.ctx (.ctx core n) = c at *
    cases c; simp_all [Ctx.noInstr]
  have hr : ((s.setCtx (.ctx core n) (s.ctx (.ctx core n))).regs (.ctx core n)).tpend = [] := by
    simp only [State.regs, State.ctx_setCtx]; exact ht
  unfold State.takeTrap
  simp only [hs, hr, hp]
  simp [State.endChunk, h.noChunk]

end Sys2Proof.Machine
end

