-- ==== Sys2Proof/Laws/PerInstr.lean ====
section
/-!
SUPPORT. The family Encodable: the word of every instruction fits its size, its lowest bit tells the size (R79), and the major opcode of the
waystations (R93) is that of their instructions alone.
-/

set_option Elab.async false

namespace Sys2Proof.Laws.Encodable

open Sys2Proof Sys2Proof.Machine

/-- What holds of the word of an instruction whose fields are in range. -/
def Statement (i : Instr) : Prop :=
  i.WF → ∀ n w, encode i = some (n, w) → w < 2 ^ n ∧ (n = 16 ∧ w % 2 = 0 ∨ n = 32 ∧ w % 2 = 1 ∧ (w / 2 ^ 26 = 0x2F ↔ isWs i = true))

/-- The statement from what its word's arithmetic says. -/
theorem of_word32 {i : Instr} {x : Nat} (he : encode i = some (32, x))
    (h : i.WF → x < 2 ^ 32 ∧ x % 2 = 1 ∧ (x / 2 ^ 26 = 0x2F ↔ isWs i = true)) : Statement i := by
  intro hw n w e
  rw [he] at e
  cases e
  exact ⟨(h hw).1, .inr ⟨rfl, (h hw).2⟩⟩

theorem of_word16 {i : Instr} {x : Nat} (he : encode i = some (16, x)) (h : i.WF → x < 2 ^ 16 ∧ x % 2 = 0) : Statement i := by
  intro hw n w e
  rw [he] at e
  cases e
  exact ⟨(h hw).1, .inl ⟨rfl, (h hw).2⟩⟩

theorem of_none {i : Instr} (he : encode i = none) : Statement i := by
  intro _ n w e
  rw [he] at e
  cases e

theorem add (d a b : Nat) : Statement (.add d a b) := of_word32 rfl (by simp only [Instr.WF, wordOf, isWs, Bool.false_eq_true, iff_false]; omega)
theorem sub (d a b : Nat) : Statement (.sub d a b) := of_word32 rfl (by simp only [Instr.WF, wordOf, isWs, Bool.false_eq_true, iff_false]; omega)
theorem and (d a b : Nat) : Statement (.and d a b) := of_word32 rfl (by simp only [Instr.WF, wordOf, isWs, Bool.false_eq_true, iff_false]; omega)
theorem or (d a b : Nat) : Statement (.or d a b) := of_word32 rfl (by simp only [Instr.WF, wordOf, isWs, Bool.false_eq_true, iff_false]; omega)
theorem xor (d a b : Nat) : Statement (.xor d a b) := of_word32 rfl (by simp only [Instr.WF, wordOf, isWs, Bool.false_eq_true, iff_false]; omega)
theorem andn (d a b : Nat) : Statement (.andn d a b) := of_word32 rfl (by simp only [Instr.WF, wordOf, isWs, Bool.false_eq_true, iff_false]; omega)
theorem sll (d a b : Nat) : Statement (.sll d a b) := of_word32 rfl (by simp only [Instr.WF, wordOf, isWs, Bool.false_eq_true, iff_false]; omega)
theorem srl (d a b : Nat) : Statement (.srl d a b) := of_word32 rfl (by simp only [Instr.WF, wordOf, isWs, Bool.false_eq_true, iff_false]; omega)
theorem sra (d a b : Nat) : Statement (.sra d a b) := of_word32 rfl (by simp only [Instr.WF, wordOf, isWs, Bool.false_eq_true, iff_false]; omega)
theorem slt (d a b : Nat) : Statement (.slt d a b) := of_word32 rfl (by simp only [Instr.WF, wordOf, isWs, Bool.false_eq_true, iff_false]; omega)
theorem sltn (d a b : Nat) : Statement (.sltn d a b) := of_word32 rfl (by simp only [Instr.WF, wordOf, isWs, Bool.false_eq_true, iff_false]; omega)
theorem min (d a b : Nat) : Statement (.min d a b) := of_word32 rfl (by simp only [Instr.WF, wordOf, isWs, Bool.false_eq_true, iff_false]; omega)
theorem max (d a b : Nat) : Statement (.max d a b) := of_word32 rfl (by simp only [Instr.WF, wordOf, isWs, Bool.false_eq_true, iff_false]; omega)
theorem minn (d a b : Nat) : Statement (.minn d a b) := of_word32 rfl (by simp only [Instr.WF, wordOf, isWs, Bool.false_eq_true, iff_false]; omega)
theorem maxn (d a b : Nat) : Statement (.maxn d a b) := of_word32 rfl (by simp only [Instr.WF, wordOf, isWs, Bool.false_eq_true, iff_false]; omega)
theorem addv (d a b : Nat) : Statement (.addv d a b) := of_word32 rfl (by simp only [Instr.WF, wordOf, isWs, Bool.false_eq_true, iff_false]; omega)
theorem subv (d a b : Nat) : Statement (.subv d a b) := of_word32 rfl (by simp only [Instr.WF, wordOf, isWs, Bool.false_eq_true, iff_false]; omega)
theorem clz (d a : Nat) : Statement (.clz d a) := of_word32 rfl (by simp only [Instr.WF, wordOf, isWs, Bool.false_eq_true, iff_false]; omega)
theorem ctz (d a : Nat) : Statement (.ctz d a) := of_word32 rfl (by simp only [Instr.WF, wordOf, isWs, Bool.false_eq_true, iff_false]; omega)
theorem popc (d a : Nat) : Statement (.popc d a) := of_word32 rfl (by simp only [Instr.WF, wordOf, isWs, Bool.false_eq_true, iff_false]; omega)
theorem sextB (d a : Nat) : Statement (.sextB d a) := of_word32 rfl (by simp only [Instr.WF, wordOf, isWs, Bool.false_eq_true, iff_false]; omega)
theorem sextH (d a : Nat) : Statement (.sextH d a) := of_word32 rfl (by simp only [Instr.WF, wordOf, isWs, Bool.false_eq_true, iff_false]; omega)
theorem sextW (d a : Nat) : Statement (.sextW d a) := of_word32 rfl (by simp only [Instr.WF, wordOf, isWs, Bool.false_eq_true, iff_false]; omega)
theorem zextB (d a : Nat) : Statement (.zextB d a) := of_word32 rfl (by simp only [Instr.WF, wordOf, isWs, Bool.false_eq_true, iff_false]; omega)
theorem zextH (d a : Nat) : Statement (.zextH d a) := of_word32 rfl (by simp only [Instr.WF, wordOf, isWs, Bool.false_eq_true, iff_false]; omega)
theorem zextW (d a : Nat) : Statement (.zextW d a) := of_word32 rfl (by simp only [Instr.WF, wordOf, isWs, Bool.false_eq_true, iff_false]; omega)
theorem mul (d a b : Nat) : Statement (.mul d a b) := of_word32 rfl (by simp only [Instr.WF, wordOf, isWs, Bool.false_eq_true, iff_false]; omega)
theorem mulh (d a b : Nat) : Statement (.mulh d a b) := of_word32 rfl (by simp only [Instr.WF, wordOf, isWs, Bool.false_eq_true, iff_false]; omega)
theorem mulhn (d a b : Nat) : Statement (.mulhn d a b) := of_word32 rfl (by simp only [Instr.WF, wordOf, isWs, Bool.false_eq_true, iff_false]; omega)
theorem mulv (d a b : Nat) : Statement (.mulv d a b) := of_word32 rfl (by simp only [Instr.WF, wordOf, isWs, Bool.false_eq_true, iff_false]; omega)
theorem div (d a b : Nat) : Statement (.div d a b) := of_word32 rfl (by simp only [Instr.WF, wordOf, isWs, Bool.false_eq_true, iff_false]; omega)
theorem divn (d a b : Nat) : Statement (.divn d a b) := of_word32 rfl (by simp only [Instr.WF, wordOf, isWs, Bool.false_eq_true, iff_false]; omega)
theorem rem (d a b : Nat) : Statement (.rem d a b) := of_word32 rfl (by simp only [Instr.WF, wordOf, isWs, Bool.false_eq_true, iff_false]; omega)
theorem remn (d a b : Nat) : Statement (.remn d a b) := of_word32 rfl (by simp only [Instr.WF, wordOf, isWs, Bool.false_eq_true, iff_false]; omega)
theorem addi (d a : Nat) (i : Int) : Statement (.addi d a i) := of_word32 rfl (by simp only [Instr.WF, wordOf, ofSigned, isWs, Bool.false_eq_true, iff_false]; omega)
theorem andi (d a : Nat) (i : Int) : Statement (.andi d a i) := of_word32 rfl (by simp only [Instr.WF, wordOf, ofSigned, isWs, Bool.false_eq_true, iff_false]; omega)
theorem ori (d a : Nat) (i : Int) : Statement (.ori d a i) := of_word32 rfl (by simp only [Instr.WF, wordOf, ofSigned, isWs, Bool.false_eq_true, iff_false]; omega)
theorem xori (d a : Nat) (i : Int) : Statement (.xori d a i) := of_word32 rfl (by simp only [Instr.WF, wordOf, ofSigned, isWs, Bool.false_eq_true, iff_false]; omega)
theorem slli (d a h : Nat) : Statement (.slli d a h) := of_word32 rfl (by simp only [Instr.WF, wordOf, isWs, Bool.false_eq_true, iff_false]; omega)
theorem srli (d a h : Nat) : Statement (.srli d a h) := of_word32 rfl (by simp only [Instr.WF, wordOf, isWs, Bool.false_eq_true, iff_false]; omega)
theorem srai (d a h : Nat) : Statement (.srai d a h) := of_word32 rfl (by simp only [Instr.WF, wordOf, isWs, Bool.false_eq_true, iff_false]; omega)
theorem slti (d a : Nat) (i : Int) : Statement (.slti d a i) := of_word32 rfl (by simp only [Instr.WF, wordOf, ofSigned, isWs, Bool.false_eq_true, iff_false]; omega)
theorem sltni (d a : Nat) (i : Int) : Statement (.sltni d a i) := of_word32 rfl (by simp only [Instr.WF, wordOf, ofSigned, isWs, Bool.false_eq_true, iff_false]; omega)
theorem li (d : Nat) (i : Int) : Statement (.li d i) := of_word32 rfl (by simp only [Instr.WF, wordOf, ofSigned, isWs, Bool.false_eq_true, iff_false]; omega)
theorem lis (d i : Nat) : Statement (.lis d i) := of_word32 rfl (by simp only [Instr.WF, wordOf, isWs, Bool.false_eq_true, iff_false]; omega)
theorem oxw (d a : Nat) : Statement (.oxw d a) := of_word32 rfl (by simp only [Instr.WF, wordOf, isWs, Bool.false_eq_true, iff_false]; omega)
theorem oxr (d a : Nat) : Statement (.oxr d a) := of_word32 rfl (by simp only [Instr.WF, wordOf, isWs, Bool.false_eq_true, iff_false]; omega)
theorem oxi (d : Nat) (i : Int) : Statement (.oxi d i) := of_word32 rfl (by simp only [Instr.WF, wordOf, ofSigned, isWs, Bool.false_eq_true, iff_false]; omega)
theorem beq (a b : Nat) (i : Int) : Statement (.beq a b i) := of_word32 rfl (by simp only [Instr.WF, wordOf, ofSigned, isWs, Bool.false_eq_true, iff_false]; omega)
theorem bne (a b : Nat) (i : Int) : Statement (.bne a b i) := of_word32 rfl (by simp only [Instr.WF, wordOf, ofSigned, isWs, Bool.false_eq_true, iff_false]; omega)
theorem blt (a b : Nat) (i : Int) : Statement (.blt a b i) := of_word32 rfl (by simp only [Instr.WF, wordOf, ofSigned, isWs, Bool.false_eq_true, iff_false]; omega)
theorem bge (a b : Nat) (i : Int) : Statement (.bge a b i) := of_word32 rfl (by simp only [Instr.WF, wordOf, ofSigned, isWs, Bool.false_eq_true, iff_false]; omega)
theorem bltn (a b : Nat) (i : Int) : Statement (.bltn a b i) := of_word32 rfl (by simp only [Instr.WF, wordOf, ofSigned, isWs, Bool.false_eq_true, iff_false]; omega)
theorem bgen (a b : Nat) (i : Int) : Statement (.bgen a b i) := of_word32 rfl (by simp only [Instr.WF, wordOf, ofSigned, isWs, Bool.false_eq_true, iff_false]; omega)
theorem jal (d : Nat) (i : Int) : Statement (.jal d i) := of_word32 rfl (by simp only [Instr.WF, wordOf, ofSigned, isWs, Bool.false_eq_true, iff_false]; omega)
theorem jalr (d a : Nat) (i : Int) : Statement (.jalr d a i) := of_word32 rfl (by simp only [Instr.WF, wordOf, ofSigned, isWs, Bool.false_eq_true, iff_false]; omega)
theorem lsetup (n a i : Nat) : Statement (.lsetup n a i) := of_word32 rfl (by simp only [Instr.WF, wordOf, isWs, Bool.false_eq_true, iff_false]; omega)
theorem lsetupi (n c i : Nat) : Statement (.lsetupi n c i) := of_word32 rfl (by simp only [Instr.WF, wordOf, isWs, Bool.false_eq_true, iff_false]; omega)
theorem mfs (d r : Nat) : Statement (.mfs d r) := of_word32 rfl (by simp only [Instr.WF, wordOf, isWs, Bool.false_eq_true, iff_false]; omega)
theorem mts (a r : Nat) : Statement (.mts a r) := of_word32 rfl (by simp only [Instr.WF, wordOf, isWs, Bool.false_eq_true, iff_false]; omega)
theorem mset (a r : Nat) : Statement (.mset a r) := of_word32 rfl (by simp only [Instr.WF, wordOf, isWs, Bool.false_eq_true, iff_false]; omega)
theorem mclr (a r : Nat) : Statement (.mclr a r) := of_word32 rfl (by simp only [Instr.WF, wordOf, isWs, Bool.false_eq_true, iff_false]; omega)
theorem start (a b c : Nat) : Statement (.start a b c) := of_word32 rfl (by simp only [Instr.WF, wordOf, isWs, Bool.false_eq_true, iff_false]; omega)
theorem retire : Statement .retire := of_word32 rfl (fun _ => by decide)
theorem yield : Statement .yield := of_word32 rfl (fun _ => by decide)
theorem join (a : Nat) : Statement (.join a) := of_word32 rfl (by simp only [Instr.WF, wordOf, isWs, Bool.false_eq_true, iff_false]; omega)
theorem safe (i : Nat) : Statement (.safe i) := of_word32 rfl (by simp only [Instr.WF, wordOf, isWs, Bool.false_eq_true, iff_false]; omega)
theorem mpost (a b c : Nat) : Statement (.mpost a b c) := of_word32 rfl (by simp only [Instr.WF, wordOf, isWs, Bool.false_eq_true, iff_false]; omega)
theorem trap (i : Nat) : Statement (.trap i) := of_word32 rfl (by simp only [Instr.WF, wordOf, isWs, Bool.false_eq_true, iff_false]; omega)
theorem brk (i : Nat) : Statement (.brk i) := of_word32 rfl (by simp only [Instr.WF, wordOf, isWs, Bool.false_eq_true, iff_false]; omega)
theorem eret : Statement .eret := of_word32 rfl (fun _ => by decide)
theorem uret : Statement .uret := of_word32 rfl (fun _ => by decide)
theorem wfi : Statement .wfi := of_word32 rfl (fun _ => by decide)
theorem ifence : Statement .ifence := of_word32 rfl (fun _ => by decide)
theorem chunk : Statement .chunk := of_word32 rfl (fun _ => by decide)
theorem fenceS : Statement .fenceS := of_word32 rfl (fun _ => by decide)
theorem fenceF : Statement .fenceF := of_word32 rfl (fun _ => by decide)
theorem nop : Statement .nop := of_word32 rfl (fun _ => by decide)
theorem plbw (a b : Nat) : Statement (.plbw a b) := of_word32 rfl (by simp only [Instr.WF, wordOf, isWs, Bool.false_eq_true, iff_false]; omega)
theorem plbinv (a : Nat) : Statement (.plbinv a) := of_word32 rfl (by simp only [Instr.WF, wordOf, isWs, Bool.false_eq_true, iff_false]; omega)
theorem ld (d a s : Nat) (i : Int) : Statement (.ld d a s i) := of_word32 rfl (by simp only [Instr.WF, wordOf, ofSigned, isWs, Bool.false_eq_true, iff_false]; omega)
theorem ldSigned (d a s : Nat) (i : Int) : Statement (.ldSigned d a s i) := of_word32 rfl (by simp only [Instr.WF, wordOf, ofSigned, isWs, Bool.false_eq_true, iff_false]; omega)
theorem ldx (d a s b : Nat) : Statement (.ldx d a s b) := of_word32 rfl (by simp only [Instr.WF, wordOf, isWs, Bool.false_eq_true, iff_false]; omega)
theorem ldxSigned (d a s b : Nat) : Statement (.ldxSigned d a s b) := of_word32 rfl (by simp only [Instr.WF, wordOf, isWs, Bool.false_eq_true, iff_false]; omega)
theorem st (d a s : Nat) (i : Int) : Statement (.st d a s i) := of_word32 rfl (by simp only [Instr.WF, wordOf, ofSigned, isWs, Bool.false_eq_true, iff_false]; omega)
theorem stx (d a s b : Nat) : Statement (.stx d a s b) := of_word32 rfl (by simp only [Instr.WF, wordOf, isWs, Bool.false_eq_true, iff_false]; omega)
theorem ldp (d a s p : Nat) (i : Int) : Statement (.ldp d a s p i) := of_word32 rfl (by simp only [Instr.WF, wordOf, ofSigned, isWs, Bool.false_eq_true, iff_false]; omega)
theorem stp (d a s p : Nat) (i : Int) : Statement (.stp d a s p i) := of_word32 rfl (by simp only [Instr.WF, wordOf, ofSigned, isWs, Bool.false_eq_true, iff_false]; omega)
theorem pset (d a : Nat) : Statement (.pset d a) := of_word32 rfl (by simp only [Instr.WF, wordOf, isWs, Bool.false_eq_true, iff_false]; omega)
theorem pget (d a : Nat) : Statement (.pget d a) := of_word32 rfl (by simp only [Instr.WF, wordOf, isWs, Bool.false_eq_true, iff_false]; omega)
theorem padd (d a : Nat) : Statement (.padd d a) := of_word32 rfl (by simp only [Instr.WF, wordOf, isWs, Bool.false_eq_true, iff_false]; omega)
theorem pcfg (d a : Nat) : Statement (.pcfg d a) := of_word32 rfl (by simp only [Instr.WF, wordOf, isWs, Bool.false_eq_true, iff_false]; omega)
theorem amoAdd (d a b w : Nat) : Statement (.amoAdd d a b w) := of_word32 rfl (by simp only [Instr.WF, wordOf, isWs, Bool.false_eq_true, iff_false]; omega)
theorem amoAnd (d a b w : Nat) : Statement (.amoAnd d a b w) := of_word32 rfl (by simp only [Instr.WF, wordOf, isWs, Bool.false_eq_true, iff_false]; omega)
theorem amoOr (d a b w : Nat) : Statement (.amoOr d a b w) := of_word32 rfl (by simp only [Instr.WF, wordOf, isWs, Bool.false_eq_true, iff_false]; omega)
theorem amoXor (d a b w : Nat) : Statement (.amoXor d a b w) := of_word32 rfl (by simp only [Instr.WF, wordOf, isWs, Bool.false_eq_true, iff_false]; omega)
theorem amoMin (d a b w : Nat) : Statement (.amoMin d a b w) := of_word32 rfl (by simp only [Instr.WF, wordOf, isWs, Bool.false_eq_true, iff_false]; omega)
theorem amoMax (d a b w : Nat) : Statement (.amoMax d a b w) := of_word32 rfl (by simp only [Instr.WF, wordOf, isWs, Bool.false_eq_true, iff_false]; omega)
theorem amoMinn (d a b w : Nat) : Statement (.amoMinn d a b w) := of_word32 rfl (by simp only [Instr.WF, wordOf, isWs, Bool.false_eq_true, iff_false]; omega)
theorem amoMaxn (d a b w : Nat) : Statement (.amoMaxn d a b w) := of_word32 rfl (by simp only [Instr.WF, wordOf, isWs, Bool.false_eq_true, iff_false]; omega)
theorem amoSwap (d a b w : Nat) : Statement (.amoSwap d a b w) := of_word32 rfl (by simp only [Instr.WF, wordOf, isWs, Bool.false_eq_true, iff_false]; omega)
theorem cas (d a b w : Nat) : Statement (.cas d a b w) := of_word32 rfl (by simp only [Instr.WF, wordOf, isWs, Bool.false_eq_true, iff_false]; omega)
theorem mredAdd (d a b t : Nat) : Statement (.mredAdd d a b t) := of_word32 rfl (by simp only [Instr.WF, wordOf, isWs, Bool.false_eq_true, iff_false]; omega)
theorem mredMin (d a b t : Nat) : Statement (.mredMin d a b t) := of_word32 rfl (by simp only [Instr.WF, wordOf, isWs, Bool.false_eq_true, iff_false]; omega)
theorem mredMax (d a b t : Nat) : Statement (.mredMax d a b t) := of_word32 rfl (by simp only [Instr.WF, wordOf, isWs, Bool.false_eq_true, iff_false]; omega)
theorem mcas (d a b t : Nat) : Statement (.mcas d a b t) := of_word32 rfl (by simp only [Instr.WF, wordOf, isWs, Bool.false_eq_true, iff_false]; omega)
theorem msca (d a b : Nat) : Statement (.msca d a b) := of_word32 rfl (by simp only [Instr.WF, wordOf, isWs, Bool.false_eq_true, iff_false]; omega)
theorem prefL1 (a : Nat) (i : Int) : Statement (.prefL1 a i) := of_word32 rfl (by simp only [Instr.WF, wordOf, ofSigned, isWs, Bool.false_eq_true, iff_false]; omega)
theorem prefL2 (a : Nat) (i : Int) : Statement (.prefL2 a i) := of_word32 rfl (by simp only [Instr.WF, wordOf, ofSigned, isWs, Bool.false_eq_true, iff_false]; omega)
theorem clean (a : Nat) (i : Int) : Statement (.clean a i) := of_word32 rfl (by simp only [Instr.WF, wordOf, ofSigned, isWs, Bool.false_eq_true, iff_false]; omega)
theorem dead (a : Nat) (i : Int) : Statement (.dead a i) := of_word32 rfl (by simp only [Instr.WF, wordOf, ofSigned, isWs, Bool.false_eq_true, iff_false]; omega)
theorem sendr (d a b : Nat) : Statement (.sendr d a b) := of_word32 rfl (by simp only [Instr.WF, wordOf, isWs, Bool.false_eq_true, iff_false]; omega)
theorem sendrArm (d : Nat) : Statement (.sendrArm d) := of_word32 rfl (by simp only [Instr.WF, wordOf, isWs, Bool.false_eq_true, iff_false]; omega)
theorem putq (d a b : Nat) : Statement (.putq d a b) := of_word32 rfl (by simp only [Instr.WF, wordOf, isWs, Bool.false_eq_true, iff_false]; omega)
theorem ibpop (d : Nat) : Statement (.ibpop d) := of_word32 rfl (by simp only [Instr.WF, wordOf, isWs, Bool.false_eq_true, iff_false]; omega)
theorem iblen (d : Nat) : Statement (.iblen d) := of_word32 rfl (by simp only [Instr.WF, wordOf, isWs, Bool.false_eq_true, iff_false]; omega)
theorem wsmsg (d a b : Nat) : Statement (.wsmsg d a b) := of_word32 rfl (by simp only [Instr.WF, wordOf, isWs, Bool.false_eq_true, iff_false]; omega)
theorem cpy (d a b : Nat) : Statement (.cpy d a b) := of_word32 rfl (by simp only [Instr.WF, wordOf, isWs, Bool.false_eq_true, iff_false]; omega)
theorem cpy2d (d a b : Nat) : Statement (.cpy2d d a b) := of_word32 rfl (by simp only [Instr.WF, wordOf, isWs, Bool.false_eq_true, iff_false]; omega)
theorem gath (d a b : Nat) : Statement (.gath d a b) := of_word32 rfl (by simp only [Instr.WF, wordOf, isWs, Bool.false_eq_true, iff_false]; omega)
theorem scat (d a b : Nat) : Statement (.scat d a b) := of_word32 rfl (by simp only [Instr.WF, wordOf, isWs, Bool.false_eq_true, iff_false]; omega)
theorem engq (d a : Nat) : Statement (.engq d a) := of_word32 rfl (by simp only [Instr.WF, wordOf, isWs, Bool.false_eq_true, iff_false]; omega)
theorem engrst (d a : Nat) : Statement (.engrst d a) := of_word32 rfl (by simp only [Instr.WF, wordOf, isWs, Bool.false_eq_true, iff_false]; omega)
theorem fadd (d a b : Nat) : Statement (.fadd d a b) := of_word32 rfl (by simp only [Instr.WF, wordOf, isWs, Bool.false_eq_true, iff_false]; omega)
theorem fsub (d a b : Nat) : Statement (.fsub d a b) := of_word32 rfl (by simp only [Instr.WF, wordOf, isWs, Bool.false_eq_true, iff_false]; omega)
theorem fmul (d a b : Nat) : Statement (.fmul d a b) := of_word32 rfl (by simp only [Instr.WF, wordOf, isWs, Bool.false_eq_true, iff_false]; omega)
theorem fdiv (d a b : Nat) : Statement (.fdiv d a b) := of_word32 rfl (by simp only [Instr.WF, wordOf, isWs, Bool.false_eq_true, iff_false]; omega)
theorem fsqrt (d a : Nat) : Statement (.fsqrt d a) := of_word32 rfl (by simp only [Instr.WF, wordOf, isWs, Bool.false_eq_true, iff_false]; omega)
theorem fmin (d a b : Nat) : Statement (.fmin d a b) := of_word32 rfl (by simp only [Instr.WF, wordOf, isWs, Bool.false_eq_true, iff_false]; omega)
theorem fmax (d a b : Nat) : Statement (.fmax d a b) := of_word32 rfl (by simp only [Instr.WF, wordOf, isWs, Bool.false_eq_true, iff_false]; omega)
theorem fabs (d a : Nat) : Statement (.fabs d a) := of_word32 rfl (by simp only [Instr.WF, wordOf, isWs, Bool.false_eq_true, iff_false]; omega)
theorem fneg (d a : Nat) : Statement (.fneg d a) := of_word32 rfl (by simp only [Instr.WF, wordOf, isWs, Bool.false_eq_true, iff_false]; omega)
theorem fsgnj (d a b : Nat) : Statement (.fsgnj d a b) := of_word32 rfl (by simp only [Instr.WF, wordOf, isWs, Bool.false_eq_true, iff_false]; omega)
theorem feq (d a b : Nat) : Statement (.feq d a b) := of_word32 rfl (by simp only [Instr.WF, wordOf, isWs, Bool.false_eq_true, iff_false]; omega)
theorem flt (d a b : Nat) : Statement (.flt d a b) := of_word32 rfl (by simp only [Instr.WF, wordOf, isWs, Bool.false_eq_true, iff_false]; omega)
theorem fle (d a b : Nat) : Statement (.fle d a b) := of_word32 rfl (by simp only [Instr.WF, wordOf, isWs, Bool.false_eq_true, iff_false]; omega)
theorem fclass (d a : Nat) : Statement (.fclass d a) := of_word32 rfl (by simp only [Instr.WF, wordOf, isWs, Bool.false_eq_true, iff_false]; omega)
theorem fcvt (d a t s : Nat) : Statement (.fcvt d a t s) := of_word32 rfl (by simp only [Instr.WF, wordOf, isWs, Bool.false_eq_true, iff_false]; omega)
theorem fma (d a b c : Nat) : Statement (.fma d a b c) := of_word32 rfl (by simp only [Instr.WF, wordOf, isWs, Bool.false_eq_true, iff_false]; omega)
theorem fms (d a b c : Nat) : Statement (.fms d a b c) := of_word32 rfl (by simp only [Instr.WF, wordOf, isWs, Bool.false_eq_true, iff_false]; omega)
theorem fnma (d a b c : Nat) : Statement (.fnma d a b c) := of_word32 rfl (by simp only [Instr.WF, wordOf, isWs, Bool.false_eq_true, iff_false]; omega)
theorem vadd (d a b w s : Nat) : Statement (.vadd d a b w s) := of_word32 rfl (by simp only [Instr.WF, wordOf, isWs, Bool.false_eq_true, iff_false]; omega)
theorem vsub (d a b w s : Nat) : Statement (.vsub d a b w s) := of_word32 rfl (by simp only [Instr.WF, wordOf, isWs, Bool.false_eq_true, iff_false]; omega)
theorem vmul (d a b w : Nat) : Statement (.vmul d a b w) := of_word32 rfl (by simp only [Instr.WF, wordOf, isWs, Bool.false_eq_true, iff_false]; omega)
theorem vmin (d a b w u : Nat) : Statement (.vmin d a b w u) := of_word32 rfl (by simp only [Instr.WF, wordOf, isWs, Bool.false_eq_true, iff_false]; omega)
theorem vmax (d a b w u : Nat) : Statement (.vmax d a b w u) := of_word32 rfl (by simp only [Instr.WF, wordOf, isWs, Bool.false_eq_true, iff_false]; omega)
theorem vand (d a b w : Nat) : Statement (.vand d a b w) := of_word32 rfl (by simp only [Instr.WF, wordOf, isWs, Bool.false_eq_true, iff_false]; omega)
theorem vor (d a b w : Nat) : Statement (.vor d a b w) := of_word32 rfl (by simp only [Instr.WF, wordOf, isWs, Bool.false_eq_true, iff_false]; omega)
theorem vxor (d a b w : Nat) : Statement (.vxor d a b w) := of_word32 rfl (by simp only [Instr.WF, wordOf, isWs, Bool.false_eq_true, iff_false]; omega)
theorem vsll (d a b w : Nat) : Statement (.vsll d a b w) := of_word32 rfl (by simp only [Instr.WF, wordOf, isWs, Bool.false_eq_true, iff_false]; omega)
theorem vsrl (d a b w : Nat) : Statement (.vsrl d a b w) := of_word32 rfl (by simp only [Instr.WF, wordOf, isWs, Bool.false_eq_true, iff_false]; omega)
theorem vsra (d a b w : Nat) : Statement (.vsra d a b w) := of_word32 rfl (by simp only [Instr.WF, wordOf, isWs, Bool.false_eq_true, iff_false]; omega)
theorem vcmpeq (d a b w : Nat) : Statement (.vcmpeq d a b w) := of_word32 rfl (by simp only [Instr.WF, wordOf, isWs, Bool.false_eq_true, iff_false]; omega)
theorem vcmplt (d a b w u : Nat) : Statement (.vcmplt d a b w u) := of_word32 rfl (by simp only [Instr.WF, wordOf, isWs, Bool.false_eq_true, iff_false]; omega)
theorem vsel (d a b w : Nat) : Statement (.vsel d a b w) := of_word32 rfl (by simp only [Instr.WF, wordOf, isWs, Bool.false_eq_true, iff_false]; omega)
theorem vabs (d a w : Nat) : Statement (.vabs d a w) := of_word32 rfl (by simp only [Instr.WF, wordOf, isWs, Bool.false_eq_true, iff_false]; omega)
theorem vfadd (d a b f : Nat) : Statement (.vfadd d a b f) := of_word32 rfl (by simp only [Instr.WF, wordOf, isWs, Bool.false_eq_true, iff_false]; omega)
theorem vfsub (d a b f : Nat) : Statement (.vfsub d a b f) := of_word32 rfl (by simp only [Instr.WF, wordOf, isWs, Bool.false_eq_true, iff_false]; omega)
theorem vfmul (d a b f : Nat) : Statement (.vfmul d a b f) := of_word32 rfl (by simp only [Instr.WF, wordOf, isWs, Bool.false_eq_true, iff_false]; omega)
theorem vfdiv (d a b f : Nat) : Statement (.vfdiv d a b f) := of_word32 rfl (by simp only [Instr.WF, wordOf, isWs, Bool.false_eq_true, iff_false]; omega)
theorem vfmin (d a b f : Nat) : Statement (.vfmin d a b f) := of_word32 rfl (by simp only [Instr.WF, wordOf, isWs, Bool.false_eq_true, iff_false]; omega)
theorem vfmax (d a b f : Nat) : Statement (.vfmax d a b f) := of_word32 rfl (by simp only [Instr.WF, wordOf, isWs, Bool.false_eq_true, iff_false]; omega)
theorem vfcmp (d a b f p : Nat) : Statement (.vfcmp d a b f p) := of_word32 rfl (by simp only [Instr.WF, wordOf, isWs, Bool.false_eq_true, iff_false]; omega)
theorem vfcvt (d a t s : Nat) : Statement (.vfcvt d a t s) := of_word32 rfl (by simp only [Instr.WF, wordOf, isWs, Bool.false_eq_true, iff_false]; omega)
theorem vfma (d a b c f : Nat) : Statement (.vfma d a b c f) := of_word32 rfl (by simp only [Instr.WF, wordOf, isWs, Bool.false_eq_true, iff_false]; omega)
theorem vfms (d a b c f : Nat) : Statement (.vfms d a b c f) := of_word32 rfl (by simp only [Instr.WF, wordOf, isWs, Bool.false_eq_true, iff_false]; omega)
theorem vdot (d a b : Nat) : Statement (.vdot d a b) := of_word32 rfl (by simp only [Instr.WF, wordOf, isWs, Bool.false_eq_true, iff_false]; omega)
theorem vld (d a : Nat) (i : Int) : Statement (.vld d a i) := of_word32 rfl (by simp only [Instr.WF, wordOf, ofSigned, isWs, Bool.false_eq_true, iff_false]; omega)
theorem vst (d a : Nat) (i : Int) : Statement (.vst d a i) := of_word32 rfl (by simp only [Instr.WF, wordOf, ofSigned, isWs, Bool.false_eq_true, iff_false]; omega)
theorem vlds (d a : Nat) (i : Int) : Statement (.vlds d a i) := of_word32 rfl (by simp only [Instr.WF, wordOf, ofSigned, isWs, Bool.false_eq_true, iff_false]; omega)
theorem vsts (d a : Nat) (i : Int) : Statement (.vsts d a i) := of_word32 rfl (by simp only [Instr.WF, wordOf, ofSigned, isWs, Bool.false_eq_true, iff_false]; omega)
theorem vldc (d a f : Nat) (i : Int) : Statement (.vldc d a f i) := of_word32 rfl (by simp only [Instr.WF, wordOf, ofSigned, isWs, Bool.false_eq_true, iff_false]; omega)
theorem vstc (d a f : Nat) (i : Int) : Statement (.vstc d a f i) := of_word32 rfl (by simp only [Instr.WF, wordOf, ofSigned, isWs, Bool.false_eq_true, iff_false]; omega)
theorem vldb (d a f : Nat) (i : Int) : Statement (.vldb d a f i) := of_word32 rfl (by simp only [Instr.WF, wordOf, ofSigned, isWs, Bool.false_eq_true, iff_false]; omega)
theorem vperm (d a b w : Nat) : Statement (.vperm d a b w) := of_word32 rfl (by simp only [Instr.WF, wordOf, isWs, Bool.false_eq_true, iff_false]; omega)
theorem vbcast (d a w : Nat) : Statement (.vbcast d a w) := of_word32 rfl (by simp only [Instr.WF, wordOf, isWs, Bool.false_eq_true, iff_false]; omega)
theorem vext (d a x w : Nat) : Statement (.vext d a x w) := of_word32 rfl (by simp only [Instr.WF, wordOf, isWs, Bool.false_eq_true, iff_false]; omega)
theorem vins (d a x w : Nat) : Statement (.vins d a x w) := of_word32 rfl (by simp only [Instr.WF, wordOf, isWs, Bool.false_eq_true, iff_false]; omega)
theorem vrsum (d a t : Nat) : Statement (.vrsum d a t) := of_word32 rfl (by simp only [Instr.WF, wordOf, isWs, Bool.false_eq_true, iff_false]; omega)
theorem vrmax (d a t : Nat) : Statement (.vrmax d a t) := of_word32 rfl (by simp only [Instr.WF, wordOf, isWs, Bool.false_eq_true, iff_false]; omega)
theorem vrmin (d a t : Nat) : Statement (.vrmin d a t) := of_word32 rfl (by simp only [Instr.WF, wordOf, isWs, Bool.false_eq_true, iff_false]; omega)
theorem tcfg (a : Nat) : Statement (.tcfg a) := of_word32 rfl (by simp only [Instr.WF, wordOf, isWs, Bool.false_eq_true, iff_false]; omega)
theorem tcfgr (d : Nat) : Statement (.tcfgr d) := of_word32 rfl (by simp only [Instr.WF, wordOf, isWs, Bool.false_eq_true, iff_false]; omega)
theorem oclaim (d a : Nat) : Statement (.oclaim d a) := of_word32 rfl (by simp only [Instr.WF, wordOf, isWs, Bool.false_eq_true, iff_false]; omega)
theorem orel (a : Nat) : Statement (.orel a) := of_word32 rfl (by simp only [Instr.WF, wordOf, isWs, Bool.false_eq_true, iff_false]; omega)
theorem oload (a b : Nat) : Statement (.oload a b) := of_word32 rfl (by simp only [Instr.WF, wordOf, isWs, Bool.false_eq_true, iff_false]; omega)
theorem ostore (a b : Nat) : Statement (.ostore a b) := of_word32 rfl (by simp only [Instr.WF, wordOf, isWs, Bool.false_eq_true, iff_false]; omega)
theorem oclaimS (d a : Nat) : Statement (.oclaimS d a) := of_word32 rfl (by simp only [Instr.WF, wordOf, isWs, Bool.false_eq_true, iff_false]; omega)
theorem mma (a b n : Nat) : Statement (.mma a b n) := of_word32 rfl (by simp only [Instr.WF, wordOf, isWs, Bool.false_eq_true, iff_false]; omega)
theorem mmar (d a b n : Nat) : Statement (.mmar d a b n) := of_word32 rfl (by simp only [Instr.WF, wordOf, isWs, Bool.false_eq_true, iff_false]; omega)
theorem accz (n : Nat) : Statement (.accz n) := of_word32 rfl (by simp only [Instr.WF, wordOf, isWs, Bool.false_eq_true, iff_false]; omega)
theorem accst (a n : Nat) : Statement (.accst a n) := of_word32 rfl (by simp only [Instr.WF, wordOf, isWs, Bool.false_eq_true, iff_false]; omega)
theorem accld (a n : Nat) : Statement (.accld a n) := of_word32 rfl (by simp only [Instr.WF, wordOf, isWs, Bool.false_eq_true, iff_false]; omega)
theorem rsv (d a : Nat) : Statement (.rsv d a) := of_word32 rfl (by simp only [Instr.WF, wordOf, isWs, Bool.false_eq_true, iff_false]; omega)
theorem rsvt (d a : Nat) : Statement (.rsvt d a) := of_word32 rfl (by simp only [Instr.WF, wordOf, isWs, Bool.false_eq_true, iff_false]; omega)
theorem rrel (d : Nat) : Statement (.rrel d) := of_word32 rfl (by simp only [Instr.WF, wordOf, isWs, Bool.false_eq_true, iff_false]; omega)
theorem rwait (d a : Nat) : Statement (.rwait d a) := of_word32 rfl (by simp only [Instr.WF, wordOf, isWs, Bool.false_eq_true, iff_false]; omega)
theorem rrd (d a : Nat) : Statement (.rrd d a) := of_word32 rfl (by simp only [Instr.WF, wordOf, isWs, Bool.false_eq_true, iff_false]; omega)
theorem rwaitFit (d a : Nat) : Statement (.rwaitFit d a) := of_word32 rfl (by simp only [Instr.WF, wordOf, isWs, Bool.false_eq_true, iff_false]; omega)
theorem eqopen (d a : Nat) : Statement (.eqopen d a) := of_word32 rfl (by simp only [Instr.WF, wordOf, isWs, Bool.false_eq_true, iff_false]; omega)
theorem eqclose (d a : Nat) : Statement (.eqclose d a) := of_word32 rfl (by simp only [Instr.WF, wordOf, isWs, Bool.false_eq_true, iff_false]; omega)
theorem equnite (d a b : Nat) : Statement (.equnite d a b) := of_word32 rfl (by simp only [Instr.WF, wordOf, isWs, Bool.false_eq_true, iff_false]; omega)
theorem eqfind (d a : Nat) : Statement (.eqfind d a) := of_word32 rfl (by simp only [Instr.WF, wordOf, isWs, Bool.false_eq_true, iff_false]; omega)
theorem eqsize (d a : Nat) : Statement (.eqsize d a) := of_word32 rfl (by simp only [Instr.WF, wordOf, isWs, Bool.false_eq_true, iff_false]; omega)
theorem eqcount (d a : Nat) : Statement (.eqcount d a) := of_word32 rfl (by simp only [Instr.WF, wordOf, isWs, Bool.false_eq_true, iff_false]; omega)
theorem eqlabel (d a b : Nat) : Statement (.eqlabel d a b) := of_word32 rfl (by simp only [Instr.WF, wordOf, isWs, Bool.false_eq_true, iff_false]; omega)
theorem eqsnap (d a : Nat) : Statement (.eqsnap d a) := of_word32 rfl (by simp only [Instr.WF, wordOf, isWs, Bool.false_eq_true, iff_false]; omega)
theorem equndo (d a : Nat) : Statement (.equndo d a) := of_word32 rfl (by simp only [Instr.WF, wordOf, isWs, Bool.false_eq_true, iff_false]; omega)
theorem eqkeep (d a : Nat) : Statement (.eqkeep d a) := of_word32 rfl (by simp only [Instr.WF, wordOf, isWs, Bool.false_eq_true, iff_false]; omega)
theorem eqreduceAddF32 (d a b : Nat) : Statement (.eqreduceAddF32 d a b) := of_word32 rfl (by simp only [Instr.WF, wordOf, isWs, Bool.false_eq_true, iff_false]; omega)
theorem eqreduceMinF32 (d a b : Nat) : Statement (.eqreduceMinF32 d a b) := of_word32 rfl (by simp only [Instr.WF, wordOf, isWs, Bool.false_eq_true, iff_false]; omega)
theorem eqreduceMaxF32 (d a b : Nat) : Statement (.eqreduceMaxF32 d a b) := of_word32 rfl (by simp only [Instr.WF, wordOf, isWs, Bool.false_eq_true, iff_false]; omega)
theorem eqreduceAddI32 (d a b : Nat) : Statement (.eqreduceAddI32 d a b) := of_word32 rfl (by simp only [Instr.WF, wordOf, isWs, Bool.false_eq_true, iff_false]; omega)
theorem eqreduceMinI32 (d a b : Nat) : Statement (.eqreduceMinI32 d a b) := of_word32 rfl (by simp only [Instr.WF, wordOf, isWs, Bool.false_eq_true, iff_false]; omega)
theorem eqreduceMaxI32 (d a b : Nat) : Statement (.eqreduceMaxI32 d a b) := of_word32 rfl (by simp only [Instr.WF, wordOf, isWs, Bool.false_eq_true, iff_false]; omega)
theorem tapPre (a b : Nat) : Statement (.tapPre a b) := of_word32 rfl (by simp only [Instr.WF, wordOf, isWs, Bool.false_eq_true, iff_false]; omega)
theorem tapPost (a b : Nat) : Statement (.tapPost a b) := of_word32 rfl (by simp only [Instr.WF, wordOf, isWs, Bool.false_eq_true, iff_false]; omega)
theorem taprd (d a : Nat) : Statement (.taprd d a) := of_word32 rfl (by simp only [Instr.WF, wordOf, isWs, Bool.false_eq_true, iff_false]; omega)
theorem wsrd (d a : Nat) : Statement (.wsrd d a) := of_word32 rfl (by simp only [Instr.WF, wordOf, isWs, iff_true]; omega)
theorem wspf (a : Nat) : Statement (.wspf a) := of_word32 rfl (by simp only [Instr.WF, wordOf, isWs, iff_true]; omega)
theorem wsupdAdd (d a b : Nat) : Statement (.wsupdAdd d a b) := of_word32 rfl (by simp only [Instr.WF, wordOf, isWs, iff_true]; omega)
theorem wsupdMin (d a b : Nat) : Statement (.wsupdMin d a b) := of_word32 rfl (by simp only [Instr.WF, wordOf, isWs, iff_true]; omega)
theorem wsupdMax (d a b : Nat) : Statement (.wsupdMax d a b) := of_word32 rfl (by simp only [Instr.WF, wordOf, isWs, iff_true]; omega)
theorem wsupdOr (d a b : Nat) : Statement (.wsupdOr d a b) := of_word32 rfl (by simp only [Instr.WF, wordOf, isWs, iff_true]; omega)
theorem wsfwd (a b : Nat) : Statement (.wsfwd a b) := of_word32 rfl (by simp only [Instr.WF, wordOf, isWs, iff_true]; omega)
theorem wsdone : Statement .wsdone := of_word32 rfl (fun _ => by decide)
theorem wsdoneKeep : Statement .wsdoneKeep := of_word32 rfl (fun _ => by decide)
theorem wsdoneBypass : Statement .wsdoneBypass := of_word32 rfl (fun _ => by decide)
theorem cMv (d a : Nat) : Statement (.cMv d a) := of_word16 rfl (by simp only [Instr.WF, wordOf]; omega)
theorem cAdd (d a : Nat) : Statement (.cAdd d a) := of_word16 rfl (by simp only [Instr.WF, wordOf]; omega)
theorem cSub (d a : Nat) : Statement (.cSub d a) := of_word16 rfl (by simp only [Instr.WF, wordOf]; omega)
theorem cAddi (d : Nat) (i : Int) : Statement (.cAddi d i) := of_word16 rfl (by simp only [Instr.WF, wordOf, ofSigned]; omega)
theorem cLi (d : Nat) (i : Int) : Statement (.cLi d i) := of_word16 rfl (by simp only [Instr.WF, wordOf, ofSigned]; omega)
theorem cSlli (d i : Nat) : Statement (.cSlli d i) := of_word16 rfl (by simp only [Instr.WF, wordOf]; omega)
theorem cSrai (d i : Nat) : Statement (.cSrai d i) := of_word16 rfl (by simp only [Instr.WF, wordOf]; omega)
theorem cAnd (d a : Nat) : Statement (.cAnd d a) := of_word16 rfl (by simp only [Instr.WF, wordOf]; omega)
theorem cOr (d a : Nat) : Statement (.cOr d a) := of_word16 rfl (by simp only [Instr.WF, wordOf]; omega)
theorem cXor (d a : Nat) : Statement (.cXor d a) := of_word16 rfl (by simp only [Instr.WF, wordOf]; omega)
theorem cLd (d a : Nat) : Statement (.cLd d a) := of_word16 rfl (by simp only [Instr.WF, wordOf]; omega)
theorem cSt (d a : Nat) : Statement (.cSt d a) := of_word16 rfl (by simp only [Instr.WF, wordOf]; omega)
theorem cBeqz (d : Nat) (i : Int) : Statement (.cBeqz d i) := of_word16 rfl (by simp only [Instr.WF, wordOf, ofSigned]; omega)
theorem cBnez (d : Nat) (i : Int) : Statement (.cBnez d i) := of_word16 rfl (by simp only [Instr.WF, wordOf, ofSigned]; omega)
theorem cJ (i : Int) : Statement (.cJ i) := of_word16 rfl (by simp only [Instr.WF, wordOf, ofSigned]; omega)
theorem cJr (a : Nat) : Statement (.cJr a) := of_word16 rfl (by simp only [Instr.WF, wordOf]; omega)
theorem cNop : Statement .cNop := of_word16 rfl (fun _ => by decide)
theorem cBrk : Statement .cBrk := of_word16 rfl (fun _ => by decide)
theorem courierArrival : Statement .courierArrival := of_none rfl
theorem courierSlotStart : Statement .courierSlotStart := of_none rfl
theorem caravanStart : Statement .caravanStart := of_none rfl
theorem helpersEnded : Statement .helpersEnded := of_none rfl
theorem safedlDeadline : Statement .safedlDeadline := of_none rfl
theorem contextSave : Statement .contextSave := of_none rfl
theorem chunkCommit : Statement .chunkCommit := of_none rfl
theorem priorityTokenGrant : Statement .priorityTokenGrant := of_none rfl
theorem remoteStoreGroup : Statement .remoteStoreGroup := of_none rfl
theorem remoteAtomic : Statement .remoteAtomic := of_none rfl
theorem remoteRead : Statement .remoteRead := of_none rfl
theorem scratchStoreAck : Statement .scratchStoreAck := of_none rfl
theorem peerWriteArrival : Statement .peerWriteArrival := of_none rfl
theorem peerLoadArrival : Statement .peerLoadArrival := of_none rfl
theorem peerAck : Statement .peerAck := of_none rfl
theorem hostWrite : Statement .hostWrite := of_none rfl
theorem hostRead : Statement .hostRead := of_none rfl
theorem hostSnoop : Statement .hostSnoop := of_none rfl
theorem backInvalidate : Statement .backInvalidate := of_none rfl
theorem l2Fill : Statement .l2Fill := of_none rfl
theorem bankOpAccept : Statement .bankOpAccept := of_none rfl
theorem bankOpPerform : Statement .bankOpPerform := of_none rfl
theorem engineAccept : Statement .engineAccept := of_none rfl
theorem enginePieceDone : Statement .enginePieceDone := of_none rfl
theorem arriveLoad : Statement .arriveLoad := of_none rfl
theorem arriveStore : Statement .arriveStore := of_none rfl
theorem barrierCfgWrite : Statement .barrierCfgWrite := of_none rfl
theorem pendWrite : Statement .pendWrite := of_none rfl
theorem barrierAbort : Statement .barrierAbort := of_none rfl
theorem chainArrival : Statement .chainArrival := of_none rfl
theorem chainRelease : Statement .chainRelease := of_none rfl
theorem lock : Statement .lock := of_none rfl
theorem lockRelease : Statement .lockRelease := of_none rfl
theorem tryLock : Statement .tryLock := of_none rfl
theorem wait : Statement .wait := of_none rfl
theorem lineWrite : Statement .lineWrite := of_none rfl
theorem take : Statement .take := of_none rfl
theorem matrixTake : Statement .matrixTake := of_none rfl
theorem matrixRetire : Statement .matrixRetire := of_none rfl
theorem tapAccept : Statement .tapAccept := of_none rfl
theorem reservoirTick : Statement .reservoirTick := of_none rfl
theorem sprintCut : Statement .sprintCut := of_none rfl
theorem supplySettle : Statement .supplySettle := of_none rfl
theorem ratioSwitch : Statement .ratioSwitch := of_none rfl
theorem sensorSample : Statement .sensorSample := of_none rfl
theorem arbiterSample : Statement .arbiterSample := of_none rfl
theorem fthrNAssert : Statement .fthrNAssert := of_none rfl
theorem currentSenseAssert : Statement .currentSenseAssert := of_none rfl
theorem fastThrottleRelease : Statement .fastThrottleRelease := of_none rfl
theorem timer : Statement .timer := of_none rfl
theorem userTrapEntry : Statement .userTrapEntry := of_none rfl
theorem supervisorEntry : Statement .supervisorEntry := of_none rfl
theorem preemptRequest : Statement .preemptRequest := of_none rfl
theorem preemptCancel : Statement .preemptCancel := of_none rfl
theorem bankFormatWrite : Statement .bankFormatWrite := of_none rfl
theorem ctxDomWrite : Statement .ctxDomWrite := of_none rfl
theorem errRingMove : Statement .errRingMove := of_none rfl
theorem sendrDelivery : Statement .sendrDelivery := of_none rfl
theorem senderCompletion : Statement .senderCompletion := of_none rfl
theorem putqArrival : Statement .putqArrival := of_none rfl
theorem wsmsgArrival : Statement .wsmsgArrival := of_none rfl
theorem wsfwdArrival : Statement .wsfwdArrival := of_none rfl
theorem handlerStart : Statement .handlerStart := of_none rfl
theorem handlerOverrun : Statement .handlerOverrun := of_none rfl
theorem handlerTableWrite : Statement .handlerTableWrite := of_none rfl
theorem handlerMemoryWrite : Statement .handlerMemoryWrite := of_none rfl
theorem eqAsyncCompletion : Statement .eqAsyncCompletion := of_none rfl
theorem admissionAttempt : Statement .admissionAttempt := of_none rfl
theorem coreReservation : Statement .coreReservation := of_none rfl
theorem post : Statement .post := of_none rfl
theorem schedPreempt : Statement .schedPreempt := of_none rfl
theorem caravanPreemptTick : Statement .caravanPreemptTick := of_none rfl
theorem caravanSave : Statement .caravanSave := of_none rfl
theorem signal : Statement .signal := of_none rfl
theorem cancel : Statement .cancel := of_none rfl
theorem endcar : Statement .endcar := of_none rfl
theorem pcolsWrite : Statement .pcolsWrite := of_none rfl
theorem fclose : Statement .fclose := of_none rfl
theorem bstop : Statement .bstop := of_none rfl
theorem preset : Statement .preset := of_none rfl
theorem snapGo : Statement .snapGo := of_none rfl
theorem snapRelease : Statement .snapRelease := of_none rfl
theorem snapTimer : Statement .snapTimer := of_none rfl
theorem dbgsnapN : Statement .dbgsnapN := of_none rfl
theorem snapshotLatch : Statement .snapshotLatch := of_none rfl
theorem vfReqWrite : Statement .vfReqWrite := of_none rfl
theorem throtFwWrite : Statement .throtFwWrite := of_none rfl
theorem rsvFillfwWrite : Statement .rsvFillfwWrite := of_none rfl
theorem tmStep : Statement .tmStep := of_none rfl
theorem timingMessage : Statement .timingMessage := of_none rfl
theorem slackWindow : Statement .slackWindow := of_none rfl
theorem slackFigure : Statement .slackFigure := of_none rfl
theorem migrationCount : Statement .migrationCount := of_none rfl
theorem migrationFinish : Statement .migrationFinish := of_none rfl
theorem counterHalving : Statement .counterHalving := of_none rfl
theorem tinv : Statement .tinv := of_none rfl
theorem promote : Statement .promote := of_none rfl
theorem promotionFinish : Statement .promotionFinish := of_none rfl
theorem darkTierPowerUp : Statement .darkTierPowerUp := of_none rfl
theorem courierDoorbell : Statement .courierDoorbell := of_none rfl
theorem powerOn : Statement .powerOn := of_none rfl
theorem startGo : Statement .startGo := of_none rfl
theorem perst : Statement .perst := of_none rfl
theorem startDone : Statement .startDone := of_none rfl
theorem startStageTimeout : Statement .startStageTimeout := of_none rfl
theorem attestDoorbell : Statement .attestDoorbell := of_none rfl
theorem attestReport : Statement .attestReport := of_none rfl
theorem checkpointGo : Statement .checkpointGo := of_none rfl
theorem checkpointEnd : Statement .checkpointEnd := of_none rfl
theorem trailFlitReceive : Statement .trailFlitReceive := of_none rfl
theorem tlTrain : Statement .tlTrain := of_none rfl
theorem registerWrite : Statement .registerWrite := of_none rfl
theorem illegalEncoding : Statement .illegalEncoding := of_none rfl
theorem tierPowerOff : Statement .tierPowerOff := of_none rfl
theorem hostLinkDown : Statement .hostLinkDown := of_none rfl
theorem hostLinkUp : Statement .hostLinkUp := of_none rfl
theorem trailLinkUp : Statement .trailLinkUp := of_none rfl
theorem startStepEnd : Statement .startStepEnd := of_none rfl

end Sys2Proof.Laws.Encodable
end

