-- ==== Sys2Proof/Laws/Legal.lean ====
section
/-!
SUPPORT. Which instructions a compute context may execute at all.
-/

namespace Sys2Proof.Machine

open Sys2Proof Sys2Proof.Laws

theorem encodable (i : Instr) : Encodable.Statement i := by
  cases i with
  | add d a b => exact Encodable.add d a b
  | sub d a b => exact Encodable.sub d a b
  | and d a b => exact Encodable.and d a b
  | or d a b => exact Encodable.or d a b
  | xor d a b => exact Encodable.xor d a b
  | andn d a b => exact Encodable.andn d a b
  | sll d a b => exact Encodable.sll d a b
  | srl d a b => exact Encodable.srl d a b
  | sra d a b => exact Encodable.sra d a b
  | slt d a b => exact Encodable.slt d a b
  | sltn d a b => exact Encodable.sltn d a b
  | min d a b => exact Encodable.min d a b
  | max d a b => exact Encodable.max d a b
  | minn d a b => exact Encodable.minn d a b
  | maxn d a b => exact Encodable.maxn d a b
  | addv d a b => exact Encodable.addv d a b
  | subv d a b => exact Encodable.subv d a b
  | clz d a => exact Encodable.clz d a
  | ctz d a => exact Encodable.ctz d a
  | popc d a => exact Encodable.popc d a
  | sextB d a => exact Encodable.sextB d a
  | sextH d a => exact Encodable.sextH d a
  | sextW d a => exact Encodable.sextW d a
  | zextB d a => exact Encodable.zextB d a
  | zextH d a => exact Encodable.zextH d a
  | zextW d a => exact Encodable.zextW d a
  | mul d a b => exact Encodable.mul d a b
  | mulh d a b => exact Encodable.mulh d a b
  | mulhn d a b => exact Encodable.mulhn d a b
  | mulv d a b => exact Encodable.mulv d a b
  | div d a b => exact Encodable.div d a b
  | divn d a b => exact Encodable.divn d a b
  | rem d a b => exact Encodable.rem d a b
  | remn d a b => exact Encodable.remn d a b
  | addi d a i => exact Encodable.addi d a i
  | andi d a i => exact Encodable.andi d a i
  | ori d a i => exact Encodable.ori d a i
  | xori d a i => exact Encodable.xori d a i
  | slli d a h => exact Encodable.slli d a h
  | srli d a h => exact Encodable.srli d a h
  | srai d a h => exact Encodable.srai d a h
  | slti d a i => exact Encodable.slti d a i
  | sltni d a i => exact Encodable.sltni d a i
  | li d i => exact Encodable.li d i
  | lis d i => exact Encodable.lis d i
  | oxw d a => exact Encodable.oxw d a
  | oxr d a => exact Encodable.oxr d a
  | oxi d i => exact Encodable.oxi d i
  | beq a b i => exact Encodable.beq a b i
  | bne a b i => exact Encodable.bne a b i
  | blt a b i => exact Encodable.blt a b i
  | bge a b i => exact Encodable.bge a b i
  | bltn a b i => exact Encodable.bltn a b i
  | bgen a b i => exact Encodable.bgen a b i
  | jal d i => exact Encodable.jal d i
  | jalr d a i => exact Encodable.jalr d a i
  | lsetup n a i => exact Encodable.lsetup n a i
  | lsetupi n c i => exact Encodable.lsetupi n c i
  | mfs d r => exact Encodable.mfs d r
  | mts a r => exact Encodable.mts a r
  | mset a r => exact Encodable.mset a r
  | mclr a r => exact Encodable.mclr a r
  | start a b c => exact Encodable.start a b c
  | retire => exact Encodable.retire
  | yield => exact Encodable.yield
  | join a => exact Encodable.join a
  | safe i => exact Encodable.safe i
  | mpost a b c => exact Encodable.mpost a b c
  | trap i => exact Encodable.trap i
  | brk i => exact Encodable.brk i
  | eret => exact Encodable.eret
  | uret => exact Encodable.uret
  | wfi => exact Encodable.wfi
  | ifence => exact Encodable.ifence
  | chunk => exact Encodable.chunk
  | fenceS => exact Encodable.fenceS
  | fenceF => exact Encodable.fenceF
  | nop => exact Encodable.nop
  | plbw a b => exact Encodable.plbw a b
  | plbinv a => exact Encodable.plbinv a
  | ld d a s i => exact Encodable.ld d a s i
  | ldSigned d a s i => exact Encodable.ldSigned d a s i
  | ldx d a s b => exact Encodable.ldx d a s b
  | ldxSigned d a s b => exact Encodable.ldxSigned d a s b
  | st d a s i => exact Encodable.st d a s i
  | stx d a s b => exact Encodable.stx d a s b
  | ldp d a s p i => exact Encodable.ldp d a s p i
  | stp d a s p i => exact Encodable.stp d a s p i
  | pset d a => exact Encodable.pset d a
  | pget d a => exact Encodable.pget d a
  | padd d a => exact Encodable.padd d a
  | pcfg d a => exact Encodable.pcfg d a
  | amoAdd d a b w => exact Encodable.amoAdd d a b w
  | amoAnd d a b w => exact Encodable.amoAnd d a b w
  | amoOr d a b w => exact Encodable.amoOr d a b w
  | amoXor d a b w => exact Encodable.amoXor d a b w
  | amoMin d a b w => exact Encodable.amoMin d a b w
  | amoMax d a b w => exact Encodable.amoMax d a b w
  | amoMinn d a b w => exact Encodable.amoMinn d a b w
  | amoMaxn d a b w => exact Encodable.amoMaxn d a b w
  | amoSwap d a b w => exact Encodable.amoSwap d a b w
  | cas d a b w => exact Encodable.cas d a b w
  | mredAdd d a b t => exact Encodable.mredAdd d a b t
  | mredMin d a b t => exact Encodable.mredMin d a b t
  | mredMax d a b t => exact Encodable.mredMax d a b t
  | mcas d a b t => exact Encodable.mcas d a b t
  | msca d a b => exact Encodable.msca d a b
  | prefL1 a i => exact Encodable.prefL1 a i
  | prefL2 a i => exact Encodable.prefL2 a i
  | clean a i => exact Encodable.clean a i
  | dead a i => exact Encodable.dead a i
  | sendr d a b => exact Encodable.sendr d a b
  | sendrArm d => exact Encodable.sendrArm d
  | putq d a b => exact Encodable.putq d a b
  | ibpop d => exact Encodable.ibpop d
  | iblen d => exact Encodable.iblen d
  | wsmsg d a b => exact Encodable.wsmsg d a b
  | cpy d a b => exact Encodable.cpy d a b
  | cpy2d d a b => exact Encodable.cpy2d d a b
  | gath d a b => exact Encodable.gath d a b
  | scat d a b => exact Encodable.scat d a b
  | engq d a => exact Encodable.engq d a
  | engrst d a => exact Encodable.engrst d a
  | fadd d a b => exact Encodable.fadd d a b
  | fsub d a b => exact Encodable.fsub d a b
  | fmul d a b => exact Encodable.fmul d a b
  | fdiv d a b => exact Encodable.fdiv d a b
  | fsqrt d a => exact Encodable.fsqrt d a
  | fmin d a b => exact Encodable.fmin d a b
  | fmax d a b => exact Encodable.fmax d a b
  | fabs d a => exact Encodable.fabs d a
  | fneg d a => exact Encodable.fneg d a
  | fsgnj d a b => exact Encodable.fsgnj d a b
  | feq d a b => exact Encodable.feq d a b
  | flt d a b => exact Encodable.flt d a b
  | fle d a b => exact Encodable.fle d a b
  | fclass d a => exact Encodable.fclass d a
  | fcvt d a t s => exact Encodable.fcvt d a t s
  | fma d a b c => exact Encodable.fma d a b c
  | fms d a b c => exact Encodable.fms d a b c
  | fnma d a b c => exact Encodable.fnma d a b c
  | vadd d a b w s => exact Encodable.vadd d a b w s
  | vsub d a b w s => exact Encodable.vsub d a b w s
  | vmul d a b w => exact Encodable.vmul d a b w
  | vmin d a b w u => exact Encodable.vmin d a b w u
  | vmax d a b w u => exact Encodable.vmax d a b w u
  | vand d a b w => exact Encodable.vand d a b w
  | vor d a b w => exact Encodable.vor d a b w
  | vxor d a b w => exact Encodable.vxor d a b w
  | vsll d a b w => exact Encodable.vsll d a b w
  | vsrl d a b w => exact Encodable.vsrl d a b w
  | vsra d a b w => exact Encodable.vsra d a b w
  | vcmpeq d a b w => exact Encodable.vcmpeq d a b w
  | vcmplt d a b w u => exact Encodable.vcmplt d a b w u
  | vsel d a b w => exact Encodable.vsel d a b w
  | vabs d a w => exact Encodable.vabs d a w
  | vfadd d a b f => exact Encodable.vfadd d a b f
  | vfsub d a b f => exact Encodable.vfsub d a b f
  | vfmul d a b f => exact Encodable.vfmul d a b f
  | vfdiv d a b f => exact Encodable.vfdiv d a b f
  | vfmin d a b f => exact Encodable.vfmin d a b f
  | vfmax d a b f => exact Encodable.vfmax d a b f
  | vfcmp d a b f p => exact Encodable.vfcmp d a b f p
  | vfcvt d a t s => exact Encodable.vfcvt d a t s
  | vfma d a b c f => exact Encodable.vfma d a b c f
  | vfms d a b c f => exact Encodable.vfms d a b c f
  | vdot d a b => exact Encodable.vdot d a b
  | vld d a i => exact Encodable.vld d a i
  | vst d a i => exact Encodable.vst d a i
  | vlds d a i => exact Encodable.vlds d a i
  | vsts d a i => exact Encodable.vsts d a i
  | vldc d a f i => exact Encodable.vldc d a f i
  | vstc d a f i => exact Encodable.vstc d a f i
  | vldb d a f i => exact Encodable.vldb d a f i
  | vperm d a b w => exact Encodable.vperm d a b w
  | vbcast d a w => exact Encodable.vbcast d a w
  | vext d a x w => exact Encodable.vext d a x w
  | vins d a x w => exact Encodable.vins d a x w
  | vrsum d a t => exact Encodable.vrsum d a t
  | vrmax d a t => exact Encodable.vrmax d a t
  | vrmin d a t => exact Encodable.vrmin d a t
  | tcfg a => exact Encodable.tcfg a
  | tcfgr d => exact Encodable.tcfgr d
  | oclaim d a => exact Encodable.oclaim d a
  | orel a => exact Encodable.orel a
  | oload a b => exact Encodable.oload a b
  | ostore a b => exact Encodable.ostore a b
  | oclaimS d a => exact Encodable.oclaimS d a
  | mma a b n => exact Encodable.mma a b n
  | mmar d a b n => exact Encodable.mmar d a b n
  | accz n => exact Encodable.accz n
  | accst a n => exact Encodable.accst a n
  | accld a n => exact Encodable.accld a n
  | rsv d a => exact Encodable.rsv d a
  | rsvt d a => exact Encodable.rsvt d a
  | rrel d => exact Encodable.rrel d
  | rwait d a => exact Encodable.rwait d a
  | rrd d a => exact Encodable.rrd d a
  | rwaitFit d a => exact Encodable.rwaitFit d a
  | eqopen d a => exact Encodable.eqopen d a
  | eqclose d a => exact Encodable.eqclose d a
  | equnite d a b => exact Encodable.equnite d a b
  | eqfind d a => exact Encodable.eqfind d a
  | eqsize d a => exact Encodable.eqsize d a
  | eqcount d a => exact Encodable.eqcount d a
  | eqlabel d a b => exact Encodable.eqlabel d a b
  | eqsnap d a => exact Encodable.eqsnap d a
  | equndo d a => exact Encodable.equndo d a
  | eqkeep d a => exact Encodable.eqkeep d a
  | eqreduceAddF32 d a b => exact Encodable.eqreduceAddF32 d a b
  | eqreduceMinF32 d a b => exact Encodable.eqreduceMinF32 d a b
  | eqreduceMaxF32 d a b => exact Encodable.eqreduceMaxF32 d a b
  | eqreduceAddI32 d a b => exact Encodable.eqreduceAddI32 d a b
  | eqreduceMinI32 d a b => exact Encodable.eqreduceMinI32 d a b
  | eqreduceMaxI32 d a b => exact Encodable.eqreduceMaxI32 d a b
  | tapPre a b => exact Encodable.tapPre a b
  | tapPost a b => exact Encodable.tapPost a b
  | taprd d a => exact Encodable.taprd d a
  | wsrd d a => exact Encodable.wsrd d a
  | wspf a => exact Encodable.wspf a
  | wsupdAdd d a b => exact Encodable.wsupdAdd d a b
  | wsupdMin d a b => exact Encodable.wsupdMin d a b
  | wsupdMax d a b => exact Encodable.wsupdMax d a b
  | wsupdOr d a b => exact Encodable.wsupdOr d a b
  | wsfwd a b => exact Encodable.wsfwd a b
  | wsdone => exact Encodable.wsdone
  | wsdoneKeep => exact Encodable.wsdoneKeep
  | wsdoneBypass => exact Encodable.wsdoneBypass
  | cMv d a => exact Encodable.cMv d a
  | cAdd d a => exact Encodable.cAdd d a
  | cSub d a => exact Encodable.cSub d a
  | cAddi d i => exact Encodable.cAddi d i
  | cLi d i => exact Encodable.cLi d i
  | cSlli d i => exact Encodable.cSlli d i
  | cSrai d i => exact Encodable.cSrai d i
  | cAnd d a => exact Encodable.cAnd d a
  | cOr d a => exact Encodable.cOr d a
  | cXor d a => exact Encodable.cXor d a
  | cLd d a => exact Encodable.cLd d a
  | cSt d a => exact Encodable.cSt d a
  | cBeqz d i => exact Encodable.cBeqz d i
  | cBnez d i => exact Encodable.cBnez d i
  | cJ i => exact Encodable.cJ i
  | cJr a => exact Encodable.cJr a
  | cNop => exact Encodable.cNop
  | cBrk => exact Encodable.cBrk
  | courierArrival => exact Encodable.courierArrival
  | courierSlotStart => exact Encodable.courierSlotStart
  | caravanStart => exact Encodable.caravanStart
  | helpersEnded => exact Encodable.helpersEnded
  | safedlDeadline => exact Encodable.safedlDeadline
  | contextSave => exact Encodable.contextSave
  | chunkCommit => exact Encodable.chunkCommit
  | priorityTokenGrant => exact Encodable.priorityTokenGrant
  | remoteStoreGroup => exact Encodable.remoteStoreGroup
  | remoteAtomic => exact Encodable.remoteAtomic
  | remoteRead => exact Encodable.remoteRead
  | scratchStoreAck => exact Encodable.scratchStoreAck
  | peerWriteArrival => exact Encodable.peerWriteArrival
  | peerLoadArrival => exact Encodable.peerLoadArrival
  | peerAck => exact Encodable.peerAck
  | hostWrite => exact Encodable.hostWrite
  | hostRead => exact Encodable.hostRead
  | hostSnoop => exact Encodable.hostSnoop
  | backInvalidate => exact Encodable.backInvalidate
  | l2Fill => exact Encodable.l2Fill
  | bankOpAccept => exact Encodable.bankOpAccept
  | bankOpPerform => exact Encodable.bankOpPerform
  | engineAccept => exact Encodable.engineAccept
  | enginePieceDone => exact Encodable.enginePieceDone
  | arriveLoad => exact Encodable.arriveLoad
  | arriveStore => exact Encodable.arriveStore
  | barrierCfgWrite => exact Encodable.barrierCfgWrite
  | pendWrite => exact Encodable.pendWrite
  | barrierAbort => exact Encodable.barrierAbort
  | chainArrival => exact Encodable.chainArrival
  | chainRelease => exact Encodable.chainRelease
  | lock => exact Encodable.lock
  | lockRelease => exact Encodable.lockRelease
  | tryLock => exact Encodable.tryLock
  | wait => exact Encodable.wait
  | lineWrite => exact Encodable.lineWrite
  | take => exact Encodable.take
  | matrixTake => exact Encodable.matrixTake
  | matrixRetire => exact Encodable.matrixRetire
  | tapAccept => exact Encodable.tapAccept
  | reservoirTick => exact Encodable.reservoirTick
  | sprintCut => exact Encodable.sprintCut
  | supplySettle => exact Encodable.supplySettle
  | ratioSwitch => exact Encodable.ratioSwitch
  | sensorSample => exact Encodable.sensorSample
  | arbiterSample => exact Encodable.arbiterSample
  | fthrNAssert => exact Encodable.fthrNAssert
  | currentSenseAssert => exact Encodable.currentSenseAssert
  | fastThrottleRelease => exact Encodable.fastThrottleRelease
  | timer => exact Encodable.timer
  | userTrapEntry => exact Encodable.userTrapEntry
  | supervisorEntry => exact Encodable.supervisorEntry
  | preemptRequest => exact Encodable.preemptRequest
  | preemptCancel => exact Encodable.preemptCancel
  | bankFormatWrite => exact Encodable.bankFormatWrite
  | ctxDomWrite => exact Encodable.ctxDomWrite
  | errRingMove => exact Encodable.errRingMove
  | sendrDelivery => exact Encodable.sendrDelivery
  | senderCompletion => exact Encodable.senderCompletion
  | putqArrival => exact Encodable.putqArrival
  | wsmsgArrival => exact Encodable.wsmsgArrival
  | wsfwdArrival => exact Encodable.wsfwdArrival
  | handlerStart => exact Encodable.handlerStart
  | handlerOverrun => exact Encodable.handlerOverrun
  | handlerTableWrite => exact Encodable.handlerTableWrite
  | handlerMemoryWrite => exact Encodable.handlerMemoryWrite
  | eqAsyncCompletion => exact Encodable.eqAsyncCompletion
  | admissionAttempt => exact Encodable.admissionAttempt
  | coreReservation => exact Encodable.coreReservation
  | post => exact Encodable.post
  | schedPreempt => exact Encodable.schedPreempt
  | caravanPreemptTick => exact Encodable.caravanPreemptTick
  | caravanSave => exact Encodable.caravanSave
  | signal => exact Encodable.signal
  | cancel => exact Encodable.cancel
  | endcar => exact Encodable.endcar
  | pcolsWrite => exact Encodable.pcolsWrite
  | fclose => exact Encodable.fclose
  | bstop => exact Encodable.bstop
  | preset => exact Encodable.preset
  | snapGo => exact Encodable.snapGo
  | snapRelease => exact Encodable.snapRelease
  | snapTimer => exact Encodable.snapTimer
  | dbgsnapN => exact Encodable.dbgsnapN
  | snapshotLatch => exact Encodable.snapshotLatch
  | vfReqWrite => exact Encodable.vfReqWrite
  | throtFwWrite => exact Encodable.throtFwWrite
  | rsvFillfwWrite => exact Encodable.rsvFillfwWrite
  | tmStep => exact Encodable.tmStep
  | timingMessage => exact Encodable.timingMessage
  | slackWindow => exact Encodable.slackWindow
  | slackFigure => exact Encodable.slackFigure
  | migrationCount => exact Encodable.migrationCount
  | migrationFinish => exact Encodable.migrationFinish
  | counterHalving => exact Encodable.counterHalving
  | tinv => exact Encodable.tinv
  | promote => exact Encodable.promote
  | promotionFinish => exact Encodable.promotionFinish
  | darkTierPowerUp => exact Encodable.darkTierPowerUp
  | courierDoorbell => exact Encodable.courierDoorbell
  | powerOn => exact Encodable.powerOn
  | startGo => exact Encodable.startGo
  | perst => exact Encodable.perst
  | startDone => exact Encodable.startDone
  | startStageTimeout => exact Encodable.startStageTimeout
  | attestDoorbell => exact Encodable.attestDoorbell
  | attestReport => exact Encodable.attestReport
  | checkpointGo => exact Encodable.checkpointGo
  | checkpointEnd => exact Encodable.checkpointEnd
  | trailFlitReceive => exact Encodable.trailFlitReceive
  | tlTrain => exact Encodable.tlTrain
  | registerWrite => exact Encodable.registerWrite
  | illegalEncoding => exact Encodable.illegalEncoding
  | tierPowerOff => exact Encodable.tierPowerOff
  | hostLinkDown => exact Encodable.hostLinkDown
  | hostLinkUp => exact Encodable.hostLinkUp
  | trailLinkUp => exact Encodable.trailLinkUp
  | startStepEnd => exact Encodable.startStepEnd

/-- A compute context may execute every instruction but those of the waystations (R94, R324). -/
theorem legal_ctx {i : Instr} (h : i.WF) (hw : isWs i = false) (core n : Nat) : legalOn (.ctx core n) i = true := by
  unfold legalOn insMajor
  cases he : encode i with
  | none => rfl
  | some x =>
    obtain ⟨k, w⟩ := x
    rcases (encodable i h k w he).2 with ⟨rfl, -⟩ | ⟨rfl, -, hm⟩
    · rfl
    · simp [hw] at hm
      simpa using hm

end Sys2Proof.Machine
end

