-- ==== Sys2Proof/Laws/Memory.lean ====
section
/-!
SUPPORT. The laws of memory: read after write, and that every operation on memory keeps its canonical form.
-/

namespace Sys2Proof.Machine

open Sys2Proof

/-- The canonical form in the words of the library: strictly rising addresses, no default byte. -/
theorem memory_wf_iff (m : List Host.Cell) :
    Memory.wf m = true ↔ m.Pairwise (fun a b => a.1 < b.1) ∧ ∀ e ∈ m, e.2 ≠ memDefault := by
  induction m with
  | nil => simp [Memory.wf]
  | cons e t ih =>
    cases t with
    | nil => obtain ⟨a, b⟩ := e; simp [Memory.wf]
    | cons e' t =>
      obtain ⟨a, b⟩ := e
      obtain ⟨a', b'⟩ := e'
      simp only [Memory.wf, Bool.and_eq_true, decide_eq_true_eq, ih, List.pairwise_cons, List.forall_mem_cons]
      constructor
      · rintro ⟨⟨hb, hlt⟩, ⟨h1, h2⟩, h3, h4⟩
        exact ⟨⟨⟨hlt, fun x hx => Nat.lt_trans hlt (h1 x hx)⟩, h1, h2⟩, hb, h3, h4⟩
      · rintro ⟨⟨⟨hlt, _⟩, h1, h2⟩, hb, h3, h4⟩
        exact ⟨⟨hb, hlt⟩, ⟨h1, h2⟩, h3, h4⟩

theorem memory_wf_filter (p : Host.Cell → Bool) (m : List Host.Cell) (h : Memory.wf m = true) : Memory.wf (m.filter p) = true := by
  rw [memory_wf_iff] at *
  exact ⟨h.1.filter p, fun e he => h.2 e (List.mem_filter.1 he).1⟩

theorem mem_put {α : Type} {k : Nat} {v : α} {t : Tab α} {e : Nat × α} (h : e ∈ put k v t) : e = (k, v) ∨ e ∈ t := by
  induction t with
  | nil => simpa [put] using h
  | cons x t ih =>
    obtain ⟨j, u⟩ := x
    simp only [put] at h
    split at h
    · simpa using h
    · split at h
      · rcases List.mem_cons.1 h with h | h
        · exact .inl h
        · exact .inr (List.mem_cons_of_mem _ h)
      · rcases List.mem_cons.1 h with h | h
        · exact .inr (h ▸ List.mem_cons_self)
        · rcases ih h with h | h
          · exact .inl h
          · exact .inr (List.mem_cons_of_mem _ h)

theorem pairwise_put {α : Type} (k : Nat) (v : α) (t : Tab α) (h : t.Pairwise (fun a b => a.1 < b.1)) :
    (put k v t).Pairwise (fun a b => a.1 < b.1) := by
  induction t with
  | nil => simp [put]
  | cons x t ih =>
    obtain ⟨j, u⟩ := x
    have hx := List.pairwise_cons.1 h
    simp only [put]
    split
    · rename_i hkj
      refine List.pairwise_cons.2 ⟨fun e he => ?_, h⟩
      rcases List.mem_cons.1 he with he | he
      · subst he; exact hkj
      · exact Nat.lt_trans hkj (hx.1 e he)
    · split
      · rename_i hjk
        exact List.pairwise_cons.2 ⟨fun e he => by simpa [hjk] using hx.1 e he, hx.2⟩
      · rename_i h1 h2
        refine List.pairwise_cons.2 ⟨fun e he => ?_, ih hx.2⟩
        rcases mem_put he with he | he
        · subst he; simp only; omega
        · exact hx.1 e he

theorem memory_wf_memSet (m : List Host.Cell) (k : Nat) (b : Byte) (h : Memory.wf m = true) : Memory.wf (memSet m k b) = true := by
  unfold memSet
  split
  · exact memory_wf_filter _ m h
  · rw [memory_wf_iff] at *
    refine ⟨pairwise_put k b m h.1, fun e he => ?_⟩
    rcases mem_put he with he | he
    · subst he; assumption
    · exact h.2 e he

theorem memory_wf_memWrite (m : List Host.Cell) (k : Nat) (bs : List Byte) (h : Memory.wf m = true) : Memory.wf (memWrite m k bs) = true := by
  induction bs generalizing m k with
  | nil => exact h
  | cons b bs ih => exact ih _ _ (memory_wf_memSet m k b h)

theorem memory_wf_foldl_memSet (cells : List (Nat × Byte)) (f : Nat → Nat) (m : List Host.Cell) (h : Memory.wf m = true) :
    Memory.wf (cells.foldl (fun m e => memSet m (f e.1) e.2) m) = true := by
  induction cells generalizing m with
  | nil => exact h
  | cons e t ih => exact ih _ (memory_wf_memSet m _ _ h)

@[simp] theorem memByte_memSet_self (m : List Host.Cell) (k : Nat) (b : Byte) : memByte (memSet m k b) k = b := by
  unfold memSet memByte
  split
  · subst_vars; exact look_del_self ..
  · exact look_put_self ..

theorem memByte_memSet_ne (m : List Host.Cell) {k j : Nat} (b : Byte) (h : j ≠ k) : memByte (memSet m k b) j = memByte m j := by
  unfold memSet memByte
  split
  · exact look_del_ne _ _ h
  · exact look_put_ne _ _ _ h

/-- A write leaves every other address as it was. -/
theorem memByte_memWrite_out (m : List Host.Cell) (k j : Nat) (bs : List Byte) (h : j < k ∨ k + bs.length ≤ j) :
    memByte (memWrite m k bs) j = memByte m j := by
  induction bs generalizing m k with
  | nil => rfl
  | cons b bs ih =>
    simp only [List.length_cons] at h
    rw [memWrite, ih _ _ (by omega), memByte_memSet_ne _ _ (by omega)]

/-- A read after a write to the same place gives the value written. -/
theorem memByte_memWrite_in (m : List Host.Cell) (k i : Nat) (bs : List Byte) (h : i < bs.length) :
    memByte (memWrite m k bs) (k + i) = bs[i] := by
  induction bs generalizing m k i with
  | nil => simp at h
  | cons b bs ih =>
    rw [memWrite]
    cases i with
    | zero =>
      rw [memByte_memWrite_out _ _ _ _ (by omega), Nat.add_zero, memByte_memSet_self]
      rfl
    | succ i =>
      have := ih (memSet m k b) (k + 1) i (by simpa using h)
      rw [show k + 1 + i = k + (i + 1) by omega] at this
      simpa using this

theorem memory_wf_writeBytes (s : State) (k : Nat) (bs : List Byte) (h : Memory.wf s.mem = true) :
    Memory.wf (s.writeBytes k bs).mem = true := memory_wf_memWrite _ _ _ h

end Sys2Proof.Machine
end

