-- ==== Sys2Proof/Laws/WellFormed.lean ====
section
/-!
SUPPORT. The Boolean form of well-formedness says what the proposition says.
-/

set_option Elab.async false

namespace Sys2Proof

theorem Instr.wf_iff (i : Instr) : i.wf = true ↔ i.WF := by
  cases i <;> first | exact decide_eq_true_iff | exact ⟨fun h => (by cases h), False.elim⟩ | exact ⟨fun _ => trivial, fun _ => rfl⟩

end Sys2Proof
end

