-- ==== Sys2Proof/Tests/Slice0.lean ====
section
/-!
SUPPORT. Tests: ill-formed terms that the check refuses, words written out from the specification's encodings, for every claim states and operands that meet
its hypotheses, and what the specification works out.
-/

namespace Sys2Proof.Tests

open Sys2Proof Sys2Proof.Machine Sys2Proof.Claims

set_option Elab.async false
set_option maxRecDepth 20000

/-! ## Well-formedness and decoding -/

/-- An ill-formed term for each kind of check: a register number above 31, of an operand extension or a pointer above 7, an immediate beyond its field,
a loop displacement below 3, a size, type, format, width or predicate that its row does not allow, equal or unfit types of a conversion, an element beyond
the register, an odd register pair, register 0 where it is no operand, a happening. -/
def illFormed : List Instr :=
  [.add 32 0 0, .add 0 32 0, .add 0 0 32, .clz 0 32, .addi 0 0 16384, .addi 0 0 (-16385), .slli 0 0 64, .slti 0 0 8192, .sltni 0 0 (-8193), .li 0 524288, .lis 0 65536,
   .oxw 8 0, .oxr 0 8, .oxi 0 4096, .oxi 8 0, .beq 0 0 16384, .jal 0 524288, .jalr 0 0 (-16385), .lsetup 2 0 3, .lsetup 0 0 2, .lsetup 0 0 32768,
   .lsetupi 0 1024 3, .lsetupi 0 0 2, .lsetupi 0 0 1024, .mfs 0 4096, .mts 32 0, .safe 65536, .trap 65536, .brk 65536, .join 32, .start 0 0 32, .plbw 32 0,
   .ld 0 0 4 0, .ld 0 0 0 1024, .ldSigned 0 0 3 0, .ldx 0 0 4 0, .ldxSigned 0 0 3 0, .st 0 0 4 0, .stx 0 0 0 32, .ldp 0 8 0 0 0, .ldp 0 0 0 2 0, .stp 0 8 0 0 0,
   .pset 8 0, .pget 0 8, .padd 8 0, .pcfg 8 0, .amoAdd 0 0 0 2, .cas 0 0 0 2, .mredAdd 0 0 0 3, .mcas 0 0 0 2, .prefL1 0 1024, .clean 0 (-1025),
   .sendr 0 1 0, .sendr 1 0 0, .sendrArm 0, .ibpop 1, .ibpop 0, .fcvt 0 0 7 0, .fcvt 0 0 4 4, .fcvt 0 0 0 2, .vadd 0 0 0 3 0, .vadd 0 0 0 0 2, .vmul 0 0 0 3,
   .vmin 0 0 0 3 0, .vcmplt 0 0 0 0 2, .vfadd 0 0 0 3, .vfcmp 0 0 0 0 3, .vfcvt 0 0 7 0, .vfcvt 0 0 1 1, .vfcvt 0 0 4 5, .vfma 0 0 0 0 3, .vldc 0 0 7 0,
   .vldc 0 0 0 128, .vstc 0 0 7 0, .vldb 0 0 3 0, .vldb 0 0 7 0, .vperm 0 0 0 3, .vbcast 0 0 3, .vext 0 0 32 0, .vext 0 0 16 1, .vins 0 0 8 2, .vrsum 0 0 6,
   .tcfg 32, .mma 0 0 2, .mmar 0 0 0 2, .accz 2, .accst 0 2, .rsv 32 0, .eqfind 0 32, .tapPre 32 0, .wsrd 0 32, .wsfwd 0 32,
   .cMv 32 0, .cAddi 0 16, .cLi 0 (-17), .cSlli 0 32, .cBeqz 0 16, .cJ 512, .cJr 32, .reservoirTick, .timer, .powerOn]

theorem test_ill_formed : illFormed.all (fun i => !i.wf) = true := by decide

/-- Terms at the ends of their ranges are well formed. -/
def wellFormed : List Instr :=
  [.add 31 31 31, .addi 31 31 16383, .addi 0 0 (-16384), .slli 0 0 63, .oxi 7 (-4096), .lsetup 1 31 32767, .lsetupi 0 1023 3, .mfs 31 4095, .ld 31 31 3 1023, .ldSigned 0 0 2 (-1024),
   .ldp 31 7 3 1 1023, .cas 0 0 0 1, .mcas 0 0 0 1, .ibpop 30, .fcvt 0 0 6 0, .vadd 0 0 0 2 1, .vfcvt 0 0 3 6, .vldb 0 0 6 127, .vext 0 0 31 0, .vext 0 0 7 2, .cJ (-512)]

theorem test_well_formed : wellFormed.all Instr.wf = true := by decide

/-- Words that are no instruction (R94): the halfword 0, a reserved major, an unassigned minor, a must-be-zero bit that is set, a field value that its row does not allow. -/
def notInstructions : List (Nat × Nat) :=
  [(16, 0x0000), (16, 0x9000), (32, 0x00000001), (32, 0xC0000001), (32, 0x04000023 ||| 0x800), (32, 0x04000035), (32, 0x1C000081), (32, 0x2D008001), (32, 0x50000005), (32, 0x60008801 ||| 0xD000),
   (32, 0x70000015), (32, 0x7C000001), (32, 0x5D200003), (32, 0x8C000007)]

theorem test_not_instructions : notInstructions.all (fun x => (decodeTableWord x.1 x.2).isNone) = true := by decide


/-- The encodings that the specification works out (chapters 5 to 8, 10, 14 to 18). -/
def specWords : List (Nat × Nat × Instr) :=
  [(32, 0x04A63801, .add 5 6 7), (32, 0x61228FF1, .ld 9 2 2 (-8)), (32, 0x3080FFF5, .beq 4 0 (-6)), (32, 0x55400221, .mfs 10 0x110),
   (32, 0x58800007, .safe 3), (32, 0x5D200001, .nop), (32, 0x0C63FFFF, .addi 3 3 (-1)), (32, 0x04A5381F, .addv 5 5 7),
   (32, 0x09095001, .mul 8 9 10), (32, 0x1C840007, .slli 4 4 3), (32, 0x20E380C9, .sltni 7 3 100), (32, 0x24BFFF01, .li 5 (-128)),
   (32, 0x28A0A4AB, .lis 5 0x5255), (32, 0x2C208201, .oxi 1 256), (32, 0x34C0FFF9, .bne 6 0 (-4)), (32, 0x48200081, .jal 1 0x40),
   (32, 0x4C010001, .jalr 0 1 0), (32, 0x50401811, .lsetupi 0 3 8), (32, 0x50260009, .lsetup 1 6 4), (32, 0x54094025, .mts 9 0x012),
   (32, 0x60A61007, .ldSigned 5 6 0 3), (32, 0x64E8E481, .stx 7 8 3 9), (32, 0x69439021, .ldp 10 3 2 1 16), (32, 0x6C650001, .pset 3 5),
   (32, 0x70A63801, .amoAdd 5 6 7 0), (32, 0x70A63853, .cas 5 6 7 1), (32, 0x74063881, .mredAdd 0 6 7 2), (32, 0x74063885, .msca 0 6 7),
   (32, 0x78064201, .prefL2 6 256), (32, 0x84A63801, .fadd 5 6 7), (32, 0x8CA63A01, .fma 5 6 7 8), (32, 0x90221A81, .vadd 1 2 3 1 1),
   (32, 0x9462032F, .vfcvt 3 2 3 1), (32, 0x988531C9, .vfma 4 5 6 7 1), (32, 0x98853005, .vdot 4 5 6), (32, 0x9C260081, .vld 1 6 64),
   (32, 0x9C464205, .vldc 2 6 1 2), (32, 0xA0A20075, .vext 5 2 3 2), (32, 0xA4A20001, .vrsum 5 2 0), (32, 0x50140035, .lsetup 0 20 26),
   (32, 0x60F09001, .ldSigned 7 16 2 0), (32, 0x38E00025, .blt 7 0 18), (32, 0x58200001, .retire), (32, 0x481FFFE5, .jal 0 (-14)),
   (32, 0x57000009, .mfs 24 4), (32, 0x5C600001, .uret), (32, 0xA8040001, .tcfg 4), (32, 0xA986000D, .oclaimS 12 6),
   (32, 0xA80A2809, .oload 10 5), (32, 0xAC0A6001, .mma 10 12 0), (32, 0xAC090007, .accst 9 0), (32, 0x658EC001, .st 12 14 3 0),
   (32, 0xB0C50001, .rsv 6 5), (32, 0xB0C50003, .rsvt 6 5), (32, 0xB1600005, .rrel 11), (32, 0xB1CD0007, .rwait 14 13),
   (32, 0xB0E80009, .rrd 7 8), (32, 0xB1CD000B, .rwaitFit 14 13), (32, 0x04E40033, .zextW 7 4), (32, 0x1D044061, .srli 8 4 48),
   (32, 0xB6A30001, .eqopen 21 3), (32, 0xB6C5000D, .eqlabel 22 5 0), (32, 0x88A600A9, .fcvt 5 6 5 4), (16, 0x20FE, .cAddi 3 (-1)),
   (16, 0x8800, .cNop), (16, 0x70FE, .cBnez 3 (-1)), (16, 0x594C, .cLd 5 6), (16, 0x7BFA, .cJ 509)]

/-- Words put together from the rows of the opcode table: fixed bits, and each field at its place (R82 to R93). -/
def tableWordsInt : List (Nat × Nat × Instr) :=
  [(32, 0x04A63803, .sub 5 6 7), (32, 0x04A63805, .and 5 6 7), (32, 0x04A63807, .or 5 6 7), (32, 0x04A63809, .xor 5 6 7),
   (32, 0x04A6380B, .andn 5 6 7), (32, 0x04A6380D, .sll 5 6 7), (32, 0x04A6380F, .srl 5 6 7), (32, 0x04A63811, .sra 5 6 7),
   (32, 0x04A63813, .slt 5 6 7), (32, 0x04A63815, .sltn 5 6 7), (32, 0x04A63817, .min 5 6 7), (32, 0x04A63819, .max 5 6 7),
   (32, 0x04A6381B, .minn 5 6 7), (32, 0x04A6381D, .maxn 5 6 7), (32, 0x04A63821, .subv 5 6 7), (32, 0x04A60023, .clz 5 6),
   (32, 0x04A60025, .ctz 5 6), (32, 0x04A60027, .popc 5 6), (32, 0x04A60029, .sextB 5 6), (32, 0x04A6002B, .sextH 5 6),
   (32, 0x04A6002D, .sextW 5 6), (32, 0x04A6002F, .zextB 5 6), (32, 0x04A60031, .zextH 5 6), (32, 0x08A63803, .mulh 5 6 7),
   (32, 0x08A63805, .mulhn 5 6 7), (32, 0x08A63807, .mulv 5 6 7), (32, 0x08A63809, .div 5 6 7), (32, 0x08A6380B, .divn 5 6 7),
   (32, 0x08A6380D, .rem 5 6 7), (32, 0x08A6380F, .remn 5 6 7), (32, 0x10A6FFFB, .andi 5 6 (-3)), (32, 0x14A6FFFB, .ori 5 6 (-3)),
   (32, 0x18A6FFFB, .xori 5 6 (-3)), (32, 0x1CA68051, .srai 5 6 40), (32, 0x20A67FFB, .slti 5 6 (-3)), (32, 0x2C660001, .oxw 3 6),
   (32, 0x2CA34001, .oxr 5 3), (32, 0x3CC7FFFB, .bge 6 7 (-3)), (32, 0x40C7FFFB, .bltn 6 7 (-3)), (32, 0x44C7FFFB, .bgen 6 7 (-3)),
   (32, 0x54068221, .mset 6 272), (32, 0x5406C221, .mclr 6 272), (32, 0x58063A01, .start 6 7 8), (32, 0x58400001, .yield),
   (32, 0x58660001, .join 6), (32, 0x58A63A01, .mpost 6 7 8), (32, 0x5C000029, .trap 20), (32, 0x5C200029, .brk 20), (32, 0x5C400001, .eret),
   (32, 0x5C800001, .wfi), (32, 0x5CA00001, .ifence), (32, 0x5CC00001, .chunk), (32, 0x5CE00001, .fenceS), (32, 0x5D000001, .fenceF),
   (32, 0x5D463801, .plbw 6 7), (32, 0x5D660001, .plbinv 6)]

/-- Words put together from the rows of the opcode table: fixed bits, and each field at its place (R82 to R93). -/
def tableWordsMem : List (Nat × Nat × Instr) :=
  [(32, 0x60A66381, .ldx 5 6 1 7), (32, 0x60A67381, .ldxSigned 5 6 1 7), (32, 0x68A37FFB, .stp 5 3 1 1 (-3)), (32, 0x6CA30003, .pget 5 3),
   (32, 0x6C660005, .padd 3 6), (32, 0x6C660007, .pcfg 3 6), (32, 0x70A63843, .amoAnd 5 6 7 1), (32, 0x70A63845, .amoOr 5 6 7 1),
   (32, 0x70A63847, .amoXor 5 6 7 1), (32, 0x70A63849, .amoMin 5 6 7 1), (32, 0x70A6384B, .amoMax 5 6 7 1), (32, 0x70A6384D, .amoMinn 5 6 7 1),
   (32, 0x70A6384F, .amoMaxn 5 6 7 1), (32, 0x70A63851, .amoSwap 5 6 7 1), (32, 0x74A63851, .mredMin 5 6 7 1), (32, 0x74A63861, .mredMax 5 6 7 1),
   (32, 0x74A63843, .mcas 5 6 7 1), (32, 0x78060FFB, .prefL1 6 (-3)), (32, 0x78061FFB, .clean 6 (-3)), (32, 0x78062FFB, .dead 6 (-3)),
   (32, 0x7CA63801, .sendr 5 6 7), (32, 0x7CA00001, .sendrArm 5), (32, 0x7CA63803, .putq 5 6 7), (32, 0x7CC00005, .ibpop 6),
   (32, 0x7CA00007, .iblen 5), (32, 0x7CA63809, .wsmsg 5 6 7), (32, 0x80A63801, .cpy 5 6 7), (32, 0x80A63803, .cpy2d 5 6 7),
   (32, 0x80A63805, .gath 5 6 7), (32, 0x80A63807, .scat 5 6 7), (32, 0x80A60009, .engq 5 6), (32, 0x80A6000B, .engrst 5 6)]

/-- Words put together from the rows of the opcode table: fixed bits, and each field at its place (R82 to R93). -/
def tableWordsFloat : List (Nat × Nat × Instr) :=
  [(32, 0x84A63803, .fsub 5 6 7), (32, 0x84A63805, .fmul 5 6 7), (32, 0x84A63807, .fdiv 5 6 7), (32, 0x84A60009, .fsqrt 5 6),
   (32, 0x84A6380B, .fmin 5 6 7), (32, 0x84A6380D, .fmax 5 6 7), (32, 0x84A6000F, .fabs 5 6), (32, 0x84A60011, .fneg 5 6),
   (32, 0x84A63813, .fsgnj 5 6 7), (32, 0x84A63815, .feq 5 6 7), (32, 0x84A63817, .flt 5 6 7), (32, 0x84A63819, .fle 5 6 7),
   (32, 0x84A6001B, .fclass 5 6), (32, 0x8CA63A03, .fms 5 6 7 8), (32, 0x8CA63A05, .fnma 5 6 7 8), (32, 0x90A63A83, .vsub 5 6 7 1 1),
   (32, 0x90A63A05, .vmul 5 6 7 1), (32, 0x90A63A47, .vmin 5 6 7 1 1), (32, 0x90A63A49, .vmax 5 6 7 1 1), (32, 0x90A63A0B, .vand 5 6 7 1),
   (32, 0x90A63A0D, .vor 5 6 7 1), (32, 0x90A63A0F, .vxor 5 6 7 1), (32, 0x90A63A11, .vsll 5 6 7 1), (32, 0x90A63A13, .vsrl 5 6 7 1),
   (32, 0x90A63A15, .vsra 5 6 7 1), (32, 0x90A63A17, .vcmpeq 5 6 7 1), (32, 0x90A63A59, .vcmplt 5 6 7 1 1), (32, 0x90A63A1B, .vsel 5 6 7 1),
   (32, 0x90A6021D, .vabs 5 6 1), (32, 0x94A63A01, .vfadd 5 6 7 1), (32, 0x94A63A03, .vfsub 5 6 7 1), (32, 0x94A63A05, .vfmul 5 6 7 1),
   (32, 0x94A63A07, .vfdiv 5 6 7 1), (32, 0x94A63A09, .vfmin 5 6 7 1), (32, 0x94A63A0B, .vfmax 5 6 7 1), (32, 0x94A63A4D, .vfcmp 5 6 7 1 2),
   (32, 0x98A63A0B, .vfms 5 6 7 8 1), (32, 0x9CA61FFB, .vst 5 6 (-3)), (32, 0x9CA62FFB, .vlds 5 6 (-3)), (32, 0x9CA63FFB, .vsts 5 6 (-3)),
   (32, 0x9CA653FB, .vstc 5 6 1 (-3)), (32, 0x9CA669FB, .vldb 5 6 4 (-3)), (32, 0xA0A63809, .vperm 5 6 7 1), (32, 0xA0A6000B, .vbcast 5 6 1),
   (32, 0xA0A60077, .vins 5 6 3 2), (32, 0xA4A6000B, .vrmax 5 6 1), (32, 0xA4A6000D, .vrmin 5 6 1)]

/-- Words put together from the rows of the opcode table: fixed bits, and each field at its place (R82 to R93). -/
def tableWordsUnits : List (Nat × Nat × Instr) :=
  [(32, 0xA8A00003, .tcfgr 5), (32, 0xA8A60005, .oclaim 5 6), (32, 0xA8060007, .orel 6), (32, 0xA806380B, .ostore 6 7),
   (32, 0xACA63C03, .mmar 5 6 7 1), (32, 0xAC000405, .accz 1), (32, 0xAC060409, .accld 6 1), (32, 0xB4A60003, .eqclose 5 6),
   (32, 0xB4A63805, .equnite 5 6 7), (32, 0xB4A60007, .eqfind 5 6), (32, 0xB4A60009, .eqsize 5 6), (32, 0xB4A6000B, .eqcount 5 6),
   (32, 0xB4A60011, .eqsnap 5 6), (32, 0xB4A60013, .equndo 5 6), (32, 0xB4A60015, .eqkeep 5 6), (32, 0xB4A63821, .eqreduceAddF32 5 6 7),
   (32, 0xB4A63823, .eqreduceMinF32 5 6 7), (32, 0xB4A63825, .eqreduceMaxF32 5 6 7), (32, 0xB4A63829, .eqreduceAddI32 5 6 7),
   (32, 0xB4A6382B, .eqreduceMinI32 5 6 7), (32, 0xB4A6382D, .eqreduceMaxI32 5 6 7), (32, 0xB8063801, .tapPre 6 7),
   (32, 0xB8063803, .tapPost 6 7), (32, 0xB8A60005, .taprd 5 6), (32, 0xBCA60001, .wsrd 5 6), (32, 0xBC060003, .wspf 6),
   (32, 0xBCA63805, .wsupdAdd 5 6 7), (32, 0xBCA63807, .wsupdMin 5 6 7), (32, 0xBCA63809, .wsupdMax 5 6 7), (32, 0xBCA6380B, .wsupdOr 5 6 7),
   (32, 0xBC06380D, .wsfwd 6 7), (32, 0xBC00000F, .wsdone), (32, 0xBC000011, .wsdoneKeep), (32, 0xBC000013, .wsdoneBypass)]

/-- Words put together from the rows of the opcode table: fixed bits, and each field at its place (R82 to R93). -/
def tableWordsShort : List (Nat × Nat × Instr) :=
  [(16, 0x094C, .cMv 5 6), (16, 0x114C, .cAdd 5 6), (16, 0x194C, .cSub 5 6), (16, 0x297A, .cLi 5 (-3)), (16, 0x3168, .cSlli 5 20),
   (16, 0x3968, .cSrai 5 20), (16, 0x414C, .cAnd 5 6), (16, 0x494C, .cOr 5 6), (16, 0x514C, .cXor 5 6), (16, 0x614C, .cSt 5 6),
   (16, 0x697A, .cBeqz 5 (-3)), (16, 0x800C, .cJr 6), (16, 0x8802, .cBrk)]

/-- Every word of a list decodes to its instruction. -/
def decodesAll (l : List (Nat × Nat × Instr)) : Bool := l.all (fun x => decodeTableWord x.1 x.2.1 = some x.2.2)

theorem test_decode_specWords : decodesAll specWords = true := by decide
theorem test_decode_tableWordsInt : decodesAll tableWordsInt = true := by decide
theorem test_decode_tableWordsMem : decodesAll tableWordsMem = true := by decide
theorem test_decode_tableWordsFloat : decodesAll tableWordsFloat = true := by decide
theorem test_decode_tableWordsUnits : decodesAll tableWordsUnits = true := by decide
theorem test_decode_tableWordsShort : decodesAll tableWordsShort = true := by decide

/-! ## States to test on -/

/-- A protection entry of domain 0 that grants every right everywhere. -/
def allRights : PlbEntry := { sz := 56, v := true, e := true, at_ := true, x := true, w := true, r := true }
/-- The table that every test state's tr.root names: the first GiB of Global memory is DRAM of stack 0, and the mesh, event and courier windows of the first four columns are mapped. -/
def tableCells : List Host.Cell :=
  [(0x1000, 0x01), (0x1001, 0x20), (0x1400, 0x01), (0x1401, 0x30), (0x1408, 0x01), (0x1409, 0x30), (0x1410, 0x01), (0x1411, 0x30),
   (0x2000, 0x01), (0x2001, 0x40), (0x3000, 0x01), (0x3001, 0x50), (0x4000, 0x03), (0x5000, 0x43)]
/-- The one context of core 0 is `c`. -/
def holds (c : Ctx) : State := { cur := .ctx 0 0, mem := tableCells, trRoot := 0x1001, cores := [(0, { ctxs := [(0, c)], plb := [(0, allRights)] })] }
/-- Context 0 of core 0 runs with registers `r`. -/
def runs (r : Regs) (lvl : Level := .user) : State := holds { r := r, st := .ready, lvl := lvl }

theorem runs_between (r : Regs) (lvl : Level) : Between (runs r lvl) 0 0 :=
  ⟨⟨rfl, rfl, (by decide : (0 : Nat) < 511), (by decide : (0 : Nat) < 32), rfl, rfl, rfl, rfl, rfl, rfl, rfl, rfl, rfl⟩, rfl⟩
theorem runs_plain (r : Regs) (lvl : Level) : Plain (runs r lvl) 0 0 := (runs_between r lvl).toPlain

theorem holds_ctx (c : Ctx) (b : Agent) (h : b ≠ .ctx 0 0) : (holds c).ctx b = {} := by
  cases b with
  | iluet => rfl
  | ws k => rfl
  | ctx core n =>
    by_cases hc : core = 0
    · subst hc
      have hn : n ≠ 0 := fun hn => h (by rw [hn])
      simp [State.ctx, State.core, holds, look, Ne.symm hn]
    · simp [State.ctx, State.core, holds, look, Ne.symm hc]

theorem holds_alone (c : Ctx) : Alone (holds c) (.ctx 0 0) := fun b h => by rw [holds_ctx c b h]
theorem runs_alone (r : Regs) (lvl : Level) : Alone (runs r lvl) (.ctx 0 0) := holds_alone _
theorem holds_noChunks (c : Ctx) (hc : c.chunk.run = false) : NoChunks (holds c) := fun b => by
  by_cases h : b = .ctx 0 0
  · subst h; exact hc
  · rw [holds_ctx c b h]
theorem runs_noChunks (r : Regs) (lvl : Level) : NoChunks (runs r lvl) := holds_noChunks _ rfl

theorem quietBank {s : State} (h : s.flight = []) : NoBankOps s := fun e he => by rw [h] at he; cases he
/-- One message is in flight, of no bank-side operation. -/
theorem oneBank {s : State} (k : Nat) (m : Msg) (h : s.flight = [(k, m)]) (hm : m.ev.row ≠ .bankOpPerform) : NoBankOps s := by
  intro e he
  rw [h, List.mem_singleton] at he
  subst he
  exact hm

/-- An address of the own scratchpad of core 0. -/
def scratchVa (off : Nat) : Nat := 0xFF80 * 2 ^ 48 + off
/-- The address in s6 and a value in s7. -/
def pointing (off : Nat) : Regs := { s := [(6, n64 (scratchVa off)), (7, 0x1122334455667788#64)] }


/-! ## Witnesses: reset, decoding, the step -/

theorem runs_present (r : Regs) (lvl : Level) (rd : List Nat) (h : r.absent = 0 ∧ r.tpend = []) : Present (runs r lvl) 0 0 rd := by
  intro k _
  show Regs.present r k = true
  simp [Regs.present, h.1, h.2, has]

theorem ok_of {ε α β : Type} (x : Except ε (α × β)) (b : β) (h : x.toOption.map (·.2) = some b) : ∃ a, x = .ok (a, b) := by
  cases x with
  | error e => simp [Except.toOption] at h
  | ok p => exact ⟨p.1, by simpa [Except.toOption, Prod.ext_iff] using h⟩

theorem witness_ResetZeros : ∃ rd, specialReg 0x001 = some rd ∧ resetZero 0x001 = true := ⟨_, rfl, rfl⟩
theorem witness_EveryStepKeepsMemoryForm : ∃ s t : State, State.sound s ∧ step s = .next t := ⟨{ agenda := [(0, ⟨.hostLinkUp, [0]⟩)] }, _, rfl, rfl⟩
theorem witness_DecodeOfEncode : (Instr.ld 9 2 2 (-8)).WF ∧ (encode (.ld 9 2 2 (-8))).isSome = true := ⟨(Instr.wf_iff _).1 rfl, rfl⟩
theorem witness_EncodeOfDecode : 0x61228FF1 < 2 ^ 32 ∧ decode (leBytes 4 0x61228FF1) = .ok (.ld 9 2 2 (-8), []) := by decide

/-- Context 0 of core 0 stands at an address of DRAM where four bytes lie. -/
def atWord (bs : List Byte) : State := (runs { pc := 0x100000 }).writeBytes 0x100000 bs

theorem fetches_word (bs : List Byte) (h : ((turnState (atWord bs) (.ctx 0 0)).fetch (.ctx 0 0)).toOption.map (·.2) = some bs) :
    ∃ s1, Fetches (atWord bs) (.ctx 0 0) s1 bs := by
  obtain ⟨s1, h1⟩ := ok_of _ _ h
  exact ⟨s1, fun t ev rest hc => (by cases hc), rfl, rfl, fun k hk => (by cases hk), rfl, rfl, h1⟩

theorem witness_StepRunsDecoded : ∃ s1, Fetches (atWord [0x01, 0x00, 0x20, 0x5D]) (.ctx 0 0) s1 [0x01, 0x00, 0x20, 0x5D] ∧
    decode [0x01, 0x00, 0x20, 0x5D] = .ok (.nop, []) := by
  obtain ⟨s1, h⟩ := fetches_word [0x01, 0x00, 0x20, 0x5D] (by decide +kernel)
  exact ⟨s1, h, by decide⟩
/-- A context that stands Stalled before its instruction. -/
theorem witness_StepReadies : let s := holds { st := .stalled }
    NothingDue s ∧ s.pick = some (.run (.ctx 0 0)) ∧ State.due { s with cur := .ctx 0 0 } (.ctx 0 0) = false ∧ (s.ctx (.ctx 0 0)).st = .stalled ∧ (s.ctx (.ctx 0 0)).held = false ∧
      (s.ctx (.ctx 0 0)).issued = false ∧ (s.ctx (.ctx 0 0)).atBoundary = true := ⟨fun _ _ _ hc => (by cases hc), rfl, rfl, rfl, rfl, rfl, rfl⟩
theorem witness_StepTakesIllegal : ∃ s1 e, Fetches (atWord [0x01, 0x00, 0x00, 0x00]) (.ctx 0 0) s1 [0x01, 0x00, 0x00, 0x00] ∧
    decode [0x01, 0x00, 0x00, 0x00] = .error e ∧ s1.cur = .ctx 0 0 := by
  have hc : ((turnState (atWord [0x01, 0x00, 0x00, 0x00]) (.ctx 0 0)).fetch (.ctx 0 0)).toOption.map (·.1.cur) = some (.ctx 0 0) := by decide +kernel
  obtain ⟨s1, h⟩ := fetches_word [0x01, 0x00, 0x00, 0x00] (by decide +kernel)
  refine ⟨s1, _, h, rfl, ?_⟩
  rw [h.fetch] at hc
  simpa [Except.toOption] using hc

/-! ## Witnesses: integer, control -/

/-- s5, s6 and s7 hold these values. -/
def holding (x y z : W64) : Regs := { s := [(5, x), (6, y), (7, z)] }

theorem witness_IntegerForms : ∃ rd d f, intResult (.add 5 6 7) = some (rd, d, f) ∧ (Instr.add 5 6 7).WF ∧ Plain (runs {}) 0 0 ∧ Present (runs {}) 0 0 rd :=
  ⟨_, _, _, rfl, (Instr.wf_iff _).1 rfl, runs_plain _ _, runs_present _ _ _ ⟨rfl, rfl⟩⟩
theorem witness_ImmediateForms : ∃ rd d f, immResult (.addi 5 6 (-1)) = some (rd, d, f) ∧ (Instr.addi 5 6 (-1)).WF ∧ Plain (runs {}) 0 0 ∧ Present (runs {}) 0 0 rd :=
  ⟨_, _, _, rfl, (Instr.wf_iff _).1 rfl, runs_plain _ _, runs_present _ _ _ ⟨rfl, rfl⟩⟩
theorem witness_BitCounts : Plain (runs {}) 0 0 ∧ Present (runs {}) 0 0 [6] ∧ (5 : Nat) < 32 ∧ (6 : Nat) < 32 :=
  ⟨runs_plain _ _, runs_present _ _ _ ⟨rfl, rfl⟩, by decide, by decide⟩
/-- The greatest sum that fits, and the least that does not. -/
theorem witness_CheckedInRange : ∃ d a b f, checkedResult (.addv 5 6 7) = some (d, a, b, f) ∧ (Instr.addv 5 6 7).WF ∧ Plain (runs (holding 0 0x7FFFFFFE 1)) 0 0 ∧
    Present (runs (holding 0 0x7FFFFFFE 1)) 0 0 [a, b] ∧ -(2 ^ 31) ≤ f (holding 0 0x7FFFFFFE 1) ∧ f (holding 0 0x7FFFFFFE 1) ≤ 2 ^ 31 - 1 :=
  ⟨_, _, _, _, rfl, (Instr.wf_iff _).1 rfl, runs_plain _ _, runs_present _ _ _ ⟨rfl, rfl⟩, by decide, by decide⟩
theorem witness_CheckedOverflow : ∃ d a b f, checkedResult (.addv 5 6 7) = some (d, a, b, f) ∧ (Instr.addv 5 6 7).WF ∧ Plain (runs (holding 0 0x7FFFFFFF 1)) 0 0 ∧
    Present (runs (holding 0 0x7FFFFFFF 1)) 0 0 [a, b] ∧ 2 ^ 31 - 1 < f (holding 0 0x7FFFFFFF 1) ∧ f (holding 0 0x80000000 0xFFFFFFFF) < -(2 ^ 31) :=
  ⟨_, _, _, _, rfl, (Instr.wf_iff _).1 rfl, runs_plain _ _, runs_present _ _ _ ⟨rfl, rfl⟩, by decide, by decide⟩
theorem witness_Branches : ∃ rd disp c, branchTaken (.blt 6 7 4) = some (rd, disp, c) ∧ (Instr.blt 6 7 4).WF ∧ Plain (runs (holding 0 0 1)) 0 0 ∧
    Present (runs (holding 0 0 1)) 0 0 rd ∧ c (holding 0 0 1) ∧ Plain (runs (holding 0 1 1)) 0 0 ∧ Present (runs (holding 0 1 1)) 0 0 rd ∧ ¬ c (holding 0 1 1) :=
  ⟨_, _, _, rfl, (Instr.wf_iff _).1 rfl, runs_plain _ _, runs_present _ _ _ ⟨rfl, rfl⟩, by decide, runs_plain _ _, runs_present _ _ _ ⟨rfl, rfl⟩, by decide⟩
theorem witness_Jumps : ∃ rd d t, jumpTarget (.jalr 1 6 0) = some (rd, d, t) ∧ (Instr.jalr 1 6 0).WF ∧ Plain (runs (holding 0 8 0)) 0 0 ∧ Present (runs (holding 0 8 0)) 0 0 rd ∧
    (holding 0 8 0).pc.getLsbD 0 = false ∧ (t (holding 0 8 0)).getLsbD 0 = false ∧
    Plain (runs (holding 0 9 0)) 0 0 ∧ Present (runs (holding 0 9 0)) 0 0 rd ∧ (t (holding 0 9 0)).getLsbD 0 = true :=
  ⟨_, _, _, rfl, (Instr.wf_iff _).1 rfl, runs_plain _ _, runs_present _ _ _ ⟨rfl, rfl⟩, rfl, by decide, runs_plain _ _, runs_present _ _ _ ⟨rfl, rfl⟩, by decide⟩
theorem witness_LoopSetups : ∃ k rd c disp, loopOf (.lsetup 1 6 4) = some (k, rd, c, disp) ∧ (Instr.lsetup 1 6 4).WF ∧ Plain (runs (holding 0 3 0)) 0 0 ∧
    Present (runs (holding 0 3 0)) 0 0 rd := ⟨_, _, _, _, rfl, (Instr.wf_iff _).1 rfl, runs_plain _ _, runs_present _ _ _ ⟨rfl, rfl⟩⟩

/-- Loop registers with these counts, whose bodies end at 0x40 and 0x80. -/
def looping (c0 c1 : W64) : Regs := { loop0 := ⟨0x10, 0x40, c0⟩, loop1 := ⟨0x20, 0x80, c1⟩ }
/-- One state for each clause of LoopCheckRule, at the counts where clauses meet. -/
theorem witness_LoopCheckRule :
    ((looping 0 2).loop1.count ≠ 0 ∧ (looping 0 2).loop1.count ≠ 1 ∧ (0x80 : W64) = (looping 0 2).loop1.stop) ∧
    ((0x40 : W64) ≠ (looping 2 2).loop1.stop ∧ (looping 2 2).loop0.count ≠ 0 ∧ (looping 2 2).loop0.count ≠ 1 ∧ (0x40 : W64) = (looping 2 2).loop0.stop) ∧
    (let r := { looping 2 1 with loop0 := ⟨0x10, 0x80, 2⟩ }
     r.loop1.count = 1 ∧ (0x80 : W64) = r.loop1.stop ∧ r.loop0.count ≠ 0 ∧ r.loop0.count ≠ 1 ∧ (0x80 : W64) = r.loop0.stop) ∧
    ((looping 1 0).loop1.count = 0 ∧ (looping 1 0).loop0.count = 1 ∧ (0x40 : W64) = (looping 1 0).loop0.stop) ∧
    (let r := { looping 1 1 with loop0 := ⟨0x10, 0x80, 1⟩ }
     r.loop1.count = 1 ∧ (0x80 : W64) = r.loop1.stop ∧ r.loop0.count = 1 ∧ (0x80 : W64) = r.loop0.stop) ∧
    ((looping 0 1).loop1.count = 1 ∧ (0x80 : W64) = (looping 0 1).loop1.stop ∧ (looping 0 1).loop0.count = 0) ∧
    ((looping 1 1).loop1.stop ≠ (0x82 : W64) ∧ (0x82 : W64) ≠ (looping 1 1).loop0.stop) := by decide

/-! ## Witnesses: special registers -/

theorem witness_RegisterFrames : ∃ rd d, registerForm (.oxw 3 6) = some (rd, d) ∧ (Instr.oxw 3 6).WF ∧ Plain (runs {}) 0 0 ∧ Present (runs {}) 0 0 rd :=
  ⟨_, _, rfl, (Instr.wf_iff _).1 rfl, runs_plain _ _, runs_present _ _ _ ⟨rfl, rfl⟩⟩
theorem witness_ExtensionAndPointerMoves : Plain (runs {}) 0 0 ∧ (3 : Nat) < 8 ∧ (6 : Nat) < 32 ∧ Present (runs {}) 0 0 [6] ∧ -4096 ≤ (256 : Int) ∧ (256 : Int) < 4096 :=
  ⟨runs_plain _ _, by decide, by decide, runs_present _ _ _ ⟨rfl, rfl⟩, by decide, by decide⟩
theorem witness_SpecialRegisterReads : ∃ rd rd', specialReg 0x000 = some rd ∧ specialReg 0x200 = some rd' ∧ Plain (runs {}) 0 0 ∧ ((runs {}).ctx (.ctx 0 0)).mcmds = 0 ∧
    Plain (runs {} .sup) 0 0 ∧ ((runs {} .sup).ctx (.ctx 0 0)).lvl = .sup := ⟨_, _, rfl, rfl, runs_plain _ _, rfl, runs_plain _ _, rfl⟩
theorem witness_SpecialRegisterWrites : ∃ f f' rd rd' w w', specialMove (.mset 6 0x005) = some (6, 0x005, f) ∧ specialReg 0x005 = some rd ∧ specialWrite 0x005 = some w ∧ (Instr.mset 6 0x005).WF ∧
    Plain (runs {}) 0 0 ∧ Present (runs {}) 0 0 [6] ∧
    specialMove (.mts 6 0x200) = some (6, 0x200, f') ∧ specialReg 0x200 = some rd' ∧ specialWrite 0x200 = some w' ∧ (Instr.mts 6 0x200).WF ∧ Between (runs {} .sup) 0 0 ∧
    ((runs {} .sup).ctx (.ctx 0 0)).lvl = .sup ∧ Present (runs {} .sup) 0 0 [6] :=
  ⟨_, _, _, _, _, _, rfl, rfl, rfl, (Instr.wf_iff _).1 rfl, runs_plain _ _, runs_present _ _ _ ⟨rfl, rfl⟩, rfl, rfl, rfl, (Instr.wf_iff _).1 rfl, runs_between _ _, rfl,
   runs_present _ _ _ ⟨rfl, rfl⟩⟩
/-- At user level the boundary of PRIV, an unassigned number and a read-only one; an unassigned number on the Iluet. -/
theorem witness_SpecialRegisterDenied : specialNumber (.mfs 5 0x200) = some (0x200, false) ∧ (Instr.mfs 5 0x200).WF ∧ (runs {}).cur = .ctx 0 0 ∧ ((runs {}).ctx (.ctx 0 0)).lvl = .user ∧
    specialNumber (.mfs 5 0x1FF) = some (0x1FF, false) ∧ assigned 0x1FF = false ∧ specialNumber (.mts 5 0x100) = some (0x100, true) ∧
    ({} : State).cur = .iluet ∧ specialNumber (.mfs 5 0x500) = some (0x500, false) ∧ assigned 0x500 = false := ⟨rfl, (Instr.wf_iff _).1 rfl, rfl, rfl, rfl, rfl, rfl, rfl, rfl, rfl⟩
theorem witness_CoreRegisterWrites : Between (runs (holding 0 8 9) .sup) 0 0 ∧ Present (runs (holding 0 8 9) .sup) 0 0 [6] ∧ Present (runs (holding 0 8 9) .sup) 0 0 [7] ∧ (7 : Nat) < 8 ∧
    ((holding 0 8 9).S 6).toNat % 16 ≤ 8 ∧ 8 < ((holding 0 8 9).S 7).toNat % 16 ∧ ((runs (holding 0 8 9) .sup).ctx (.ctx 0 0)).lvl = .sup :=
  ⟨runs_between _ _, runs_present _ _ _ ⟨rfl, rfl⟩, runs_present _ _ _ ⟨rfl, rfl⟩, by decide, by decide, by decide, rfl⟩

/-- A supervisor whose core's column belongs to partition 1; s6 names a domain of it, s5 one of another partition, s7 a request and its delivery. -/
def partitioned : State := { runs (holding 0x800 0x401 3) .sup with parts := [(1, { pcols := [(0, 1)] })] }
theorem witness_SpecialRegisterEffects : Between partitioned 0 0 ∧ Present partitioned 0 0 [6] ∧ ((holding 0x800 0x401 3).S 6) ≠ 0 ∧ (partitioned.ctx (.ctx 0 0)).lvl = .sup ∧
    partitioned.partOfCol (colOf 0) = some 1 ∧ bits ((holding 0x800 0x401 3).S 6).toNat 15 10 = 1 ∧ bits ((holding 0x800 0x401 3).S 5).toNat 15 10 ≠ 1 ∧
    (partitioned.core 0).resident = false ∧ bit ((holding 0x800 0x401 3).S 7).toNat 0 = true ∧ bit ((holding 0x100 0x100 0).S 6).toNat 0 = false ∧ bit ((holding 0x100 0x100 0).S 6).toNat 8 = true :=
  ⟨⟨⟨rfl, rfl, (by decide : (0 : Nat) < 511), (by decide : (0 : Nat) < 32), rfl, rfl, rfl, rfl, rfl, rfl, rfl, rfl, rfl⟩, rfl⟩, fun k hk => (runs_present (holding 0x800 0x401 3) .sup [6] ⟨rfl, rfl⟩) k hk, by decide,
   rfl, by decide +kernel, by decide, by decide, rfl, by decide, by decide, by decide⟩


/-! ## Witnesses: memory -/

/-- s6 points at offset 0x100 of the own scratchpad; s7 holds data. -/
def atScratch : State := runs (pointing 0x100)
/-- s6 points at DRAM. -/
def atDram : State := runs { s := [(6, 0x100000), (7, 5)] }

theorem witness_ScratchpadLoads : ∃ rd d z sg ea, loadForm (.ld 5 6 3 0) = some (rd, d, z, sg, ea) ∧ (Instr.ld 5 6 3 0).WF ∧ Plain atScratch 0 0 ∧ Present atScratch 0 0 rd ∧
    (ea (atScratch.regs (.ctx 0 0))).toNat % 2 ^ z = 0 ∧ OwnBytes (atScratch.opened (.ctx 0 0) (some 4)) 0 0 (ea (atScratch.regs (.ctx 0 0))).toNat (2 ^ z) 0x100 rdR :=
  ⟨_, _, _, _, _, rfl, (Instr.wf_iff _).1 rfl, runs_plain _ _, runs_present _ _ _ ⟨rfl, rfl⟩, by decide, by decide, by decide +kernel, fun _ => rfl, by decide +kernel, rfl, quietBank rfl⟩
theorem witness_ScratchpadStores : ∃ rd d z ea, storeForm (.st 7 6 3 0) = some (rd, d, z, ea) ∧ (Instr.st 7 6 3 0).WF ∧ Plain atScratch 0 0 ∧ Room atScratch 0 0 ∧ Present atScratch 0 0 rd ∧
    (ea (atScratch.regs (.ctx 0 0))).toNat % 2 ^ z = 0 ∧ OwnBytes (atScratch.opened (.ctx 0 0) (some 5)) 0 0 (ea (atScratch.regs (.ctx 0 0))).toNat (2 ^ z) 0x100 wrR :=
  ⟨_, _, _, _, rfl, (Instr.wf_iff _).1 rfl, runs_plain _ _, ⟨by decide, by decide⟩, runs_present _ _ _ ⟨rfl, rfl⟩, by decide, by decide, by decide +kernel, fun _ => rfl, by decide +kernel, rfl, quietBank rfl⟩

/-- Where the checked access of `len` bytes at 0x100000 lands. -/
def dramTag : LineTag := { va := 4096, key := 4096, home := 0, ty := 0, own := 0 }

/-- The line lies in L1; and an instruction that has waited for it. -/
def atLine : State := { atDram with cores := [(0, { ctxs := [(0, { r := { s := [(6, 0x100000), (7, 5)] }, st := .ready })], plb := [(0, allRights)], l1 := [dramTag] })] }
def afterLine : State := holds { r := { s := [(6, 0x100000), (7, 5)] }, st := .stalled, issued := true, missed := true }

theorem witness_GlobalLoads : ∃ rd d z sg ea, loadForm (.ld 5 6 3 0) = some (rd, d, z, sg, ea) ∧ (Instr.ld 5 6 3 0).WF ∧ Plain atDram 0 0 ∧ Present atDram 0 0 rd ∧
    (ea (atDram.regs (.ctx 0 0))).toNat % 2 ^ z = 0 ∧ (atDram.opened (.ctx 0 0) (some 4)).check (.ctx 0 0) (ea (atDram.regs (.ctx 0 0))).toNat (2 ^ z) rdR = .ok (.mem 0 dramTag 0x100000) ∧
    atDram.noBad = true ∧ NoBankOps atDram ∧ atDram.pageHeld (ea (atDram.regs (.ctx 0 0))).toNat = false ∧
    (atDram.opened (.ctx 0 0) (some 4)).misses (.ctx 0 0) dramTag 0x100000 8 = true ∧
    (Plain atLine 0 0 ∧ (atLine.opened (.ctx 0 0) (some 4)).check (.ctx 0 0) 0x100000 8 rdR = .ok (.mem 0 dramTag 0x100000) ∧ (atLine.opened (.ctx 0 0) (some 4)).misses (.ctx 0 0) dramTag 0x100000 8 = false) ∧
    (Resumes afterLine 0 0 ∧ (afterLine.opened (.ctx 0 0) (some 4)).check (.ctx 0 0) 0x100000 8 rdR = .ok (.mem 0 dramTag 0x100000)) :=
  ⟨_, _, _, _, _, rfl, (Instr.wf_iff _).1 rfl, runs_plain _ _, runs_present _ _ _ ⟨rfl, rfl⟩, by decide, by decide +kernel, rfl, quietBank rfl, rfl,
   by decide +kernel, ⟨⟨rfl, rfl, (by decide : (0 : Nat) < 511), (by decide : (0 : Nat) < 32), rfl, rfl, rfl, rfl, rfl, rfl, rfl, rfl, rfl⟩, by decide +kernel, by decide +kernel⟩,
   ⟨⟨rfl, rfl, (by decide : (0 : Nat) < 511), (by decide : (0 : Nat) < 32), rfl, rfl, rfl, rfl, rfl, rfl, rfl⟩, by decide +kernel⟩⟩
/-- A store to cached memory, and one to the scratchpad of core 1. -/
theorem witness_StoresWaitForCommit : ∃ rd d z ea, storeForm (.st 7 6 3 0) = some (rd, d, z, ea) ∧ (Instr.st 7 6 3 0).WF ∧ Plain atDram 0 0 ∧ Room atDram 0 0 ∧ Present atDram 0 0 rd ∧
    (ea (atDram.regs (.ctx 0 0))).toNat % 2 ^ z = 0 ∧ (atDram.opened (.ctx 0 0) (some 5)).check (.ctx 0 0) (ea (atDram.regs (.ctx 0 0))).toNat (2 ^ z) wrR = .ok (.mem 0 dramTag 0x100000) ∧
    (let s := runs (pointing (2 ^ 28))
     let va := (ea (s.regs (.ctx 0 0))).toNat
     Plain s 0 0 ∧ Room s 0 0 ∧ Present s 0 0 rd ∧ va % 2 ^ z = 0 ∧ bits va 63 48 = 0xFF80 ∧ (s.opened (.ctx 0 0) (some 5)).check (.ctx 0 0) va (2 ^ z) wrR = .ok (.scratch 1 0) ∧
     (s.opened (.ctx 0 0) (some 5)).tapHeld (.ctx 0 0) (scratchKey 1 0) (2 ^ z) = false) :=
  ⟨_, _, _, _, rfl, (Instr.wf_iff _).1 rfl, runs_plain _ _, ⟨by decide, by decide⟩, runs_present _ _ _ ⟨rfl, rfl⟩, by decide, by decide +kernel,
   runs_plain _ _, ⟨by decide, by decide⟩, runs_present _ _ _ ⟨rfl, rfl⟩, by decide, by decide, by decide +kernel, by decide +kernel⟩
/-- An address that is no multiple of the size, and one that no entry of the PLB grants. -/
theorem witness_AccessTraps : ∃ rd d z sg ea, loadForm (.ld 5 6 3 0) = some (rd, d, z, sg, ea) ∧ (Instr.ld 5 6 3 0).WF ∧
    Plain (runs (pointing 0x104)) 0 0 ∧ Present (runs (pointing 0x104)) 0 0 rd ∧ (ea ((runs (pointing 0x104)).regs (.ctx 0 0))).toNat % 2 ^ z ≠ 0 ∧
    (let s := runs { pointing 0x100 with dom := 1 }
     ∃ t, Plain s 0 0 ∧ Present s 0 0 rd ∧ (ea (s.regs (.ctx 0 0))).toNat % 2 ^ z = 0 ∧ (s.opened (.ctx 0 0) (some 4)).check (.ctx 0 0) (ea (s.regs (.ctx 0 0))).toNat (2 ^ z) rdR = .error t) :=
  ⟨_, _, _, _, _, rfl, (Instr.wf_iff _).1 rfl, runs_plain _ _, runs_present _ _ _ ⟨rfl, rfl⟩, by decide,
   { cause := 0x04, info := n64 (scratchVa 0x100), plb := some (1, 7, n64 (scratchVa 0x100)), addr := true }, runs_plain _ _, runs_present _ _ _ ⟨rfl, rfl⟩, by decide, by decide +kernel⟩
/-- A word of 4 bytes in the event window. -/
theorem witness_AccessTraps_words : ∃ rd d sg ea, loadForm (.ld 5 6 2 0) = some (rd, d, 2, sg, ea) ∧ (Instr.ld 5 6 2 0).WF ∧ bits (ea ({ s := [(6, 0xFF81000000000000)] } : Regs)).toNat 63 48 = 0xFF81 :=
  ⟨_, _, _, _, rfl, (Instr.wf_iff _).1 rfl, by decide⟩

/-- The worked example of R45: p3 strides by 64 over a rectangle of four cores. -/
def walking (p pc : W64) : Regs := { p := [(3, p)], pw := [(3, pc)], s := [(6, 64), (7, 5)] }
/-- A walk within its window, one that leaves it, and one whose configuration traps. -/
theorem witness_PointerWalk :
    (let r := walking 0x0040004060000100 0x004040C080200080
     let p := (r.P 3).toNat
     let c := (r.PW 3).toNat
     let span := if bits c 16 0 = 0 then 0x20000 else bits c 16 0
     let limit := bits c 29 17 * 16 + span
     (bits p 63 48 ≤ span ∧ limit ≤ 0x20000 ∧ bits c 36 30 ≤ 112 ∧ bits c 51 45 ≤ 112) ∧ bits p 16 0 + bits p 63 48 < limit) ∧
    (let r := walking 0x0040004060000140 0x004040C080200080
     let p := (r.P 3).toNat
     let c := (r.PW 3).toNat
     let span := if bits c 16 0 = 0 then 0x20000 else bits c 16 0
     let limit := bits c 29 17 * 16 + span
     (bits p 63 48 ≤ span ∧ limit ≤ 0x20000 ∧ bits c 36 30 ≤ 112 ∧ bits c 51 45 ≤ 112) ∧ limit ≤ bits p 16 0 + bits p 63 48 ∧ bits p 16 0 + bits p 63 48 - span ≤ 0x1FFFF) ∧
    (let c := ((walking 0 (113 <<< 30)).PW 3).toNat
     ¬ bits c 36 30 ≤ 112) := by decide
/-- R45's worked example: the first two steps stay in the window of core (4, 6) and go on to core (4, 7). -/
theorem test_walk_example : ((walking 0x0040004060000100 0x004040C080200080).walk 3).map (fun r => r.P 3) = some 0x0040004060000140#64 ∧
    ((walking 0x0040004060000140 0x004040C080200080).walk 3).map (fun r => r.P 3) = some 0x0040004070000100#64 := by decide +kernel

/-- p3 at its own scratchpad, offset 0x100, stride 8, over one ring. -/
def ringing (stride : Nat) : Regs := walking (n64 (stride * 2 ^ 48 + 0x100)) 0
theorem witness_PointerAccesses : ∃ r', Plain (runs (ringing 8)) 0 0 ∧ Room (runs (ringing 8)) 0 0 ∧ (ringing 8).walk 3 = some r' ∧ pointerAddress (ringing 8) 3 0 % 2 ^ 3 = 0 ∧ 0 ≤ pointerOffset (ringing 8) 3 0 ∧
    pointerOffset (ringing 8) 3 0 + 2 ^ 3 ≤ 0x20000 ∧ OwnBytes ((runs (ringing 8)).opened (.ctx 0 0) (some 4)) 0 0 (pointerAddress (ringing 8) 3 0) 8 0x100 rdR ∧
    Present (runs (ringing 8)) 0 0 [7] ∧ OwnBytes ((runs (ringing 8)).opened (.ctx 0 0) (some 5)) 0 0 (pointerAddress (ringing 8) 3 0) 8 0x100 wrR :=
  ⟨_, runs_plain _ _, ⟨by decide, by decide⟩, rfl, by decide, by decide, by decide, ⟨by decide, by decide +kernel, fun _ => rfl, by decide +kernel, rfl, quietBank rfl⟩, runs_present _ _ _ ⟨rfl, rfl⟩,
   ⟨by decide, by decide +kernel, fun _ => rfl, by decide +kernel, rfl, quietBank rfl⟩⟩
/-- An offset of −8, and of 0x1FFFC for 8 bytes; a walk with a stride above its span; steps of PADD that walk, that trap, of 0, and above 65535; a configuration that is good and one that is not. -/
theorem witness_PointerChecks :
    (Plain (runs (walking 0 0)) 0 0 ∧ pointerAddress (walking 0 0) 3 (-8) % 2 ^ 3 = 0 ∧ pointerOffset (walking 0 0) 3 (-8) < 0) ∧
    (Plain (runs (walking 0x1FFF8 0)) 0 0 ∧ pointerAddress (walking 0x1FFF8 0) 3 8 % 2 ^ 3 = 0 ∧ 0x20000 < pointerOffset (walking 0x1FFF8 0) 3 8 + 2 ^ 3) ∧
    (Plain (runs (walking (n64 (32 * 2 ^ 48)) 16)) 0 0 ∧ pointerAddress (walking (n64 (32 * 2 ^ 48)) 16) 3 0 % 2 ^ 3 = 0 ∧ 0 ≤ pointerOffset (walking (n64 (32 * 2 ^ 48)) 16) 3 0 ∧
      pointerOffset (walking (n64 (32 * 2 ^ 48)) 16) 3 0 + 2 ^ 3 ≤ 0x20000 ∧ ((walking (n64 (32 * 2 ^ 48)) 16).walk 3).isNone = true) ∧
    (Present (runs (walking 0x100 0)) 0 0 [6] ∧ ((walking 0x100 0).S 6).toNat ≤ 0xFFFF ∧ (walking 0x100 0).S 6 ≠ 0 ∧
      (((walking 0x100 0).setP 3 (BitVec.ofNat 64 (bits ((walking 0x100 0).P 3).toNat 47 0 + ((walking 0x100 0).S 6).toNat * 2 ^ 48))).walk 3).isSome = true) ∧
    (Present (runs (walking 0 16)) 0 0 [6] ∧ ((walking 0 16).S 6).toNat ≤ 0xFFFF ∧
      (((walking 0 16).setP 3 (BitVec.ofNat 64 (bits ((walking 0 16).P 3).toNat 47 0 + ((walking 0 16).S 6).toNat * 2 ^ 48))).walk 3).isNone = true) ∧
    ((walking 0 0).S 5 = 0 ∧ ((walking 0 0).walk 3).isSome = true) ∧ 0xFFFF < ((holding 0 0x10000 0).S 6).toNat ∧
    (let c := 0x004040C080200080
     bits c 62 60 = 0 ∧ bits c 36 30 ≤ 112 ∧ bits c 51 45 ≤ 112 ∧ bits c 29 17 * 16 + (if bits c 16 0 = 0 then 0x20000 else bits c 16 0) ≤ 0x20000) ∧
    ¬ bits (113 <<< 30) 36 30 ≤ 112 :=
  ⟨⟨runs_plain _ _, by decide, by decide⟩, ⟨runs_plain _ _, by decide, by decide⟩, ⟨runs_plain _ _, by decide, by decide, by decide, by decide +kernel⟩,
   ⟨runs_present _ _ _ ⟨rfl, rfl⟩, by decide, by decide, by decide +kernel⟩, ⟨runs_present _ _ _ ⟨rfl, rfl⟩, by decide, by decide +kernel⟩, ⟨by decide, by decide +kernel⟩, by decide, by decide, by decide⟩

/-- The .d form at an 8-byte word, the .w form at the upper half of it. -/
theorem witness_Atomics : ∃ d a b w rd f z d' a' b' w' rd' f' z', amoForm (.amoAdd 5 6 7 0) = some (d, a, b, w, rd, f, z) ∧ (Instr.amoAdd 5 6 7 0).WF ∧ Between atScratch 0 0 ∧ Present atScratch 0 0 rd ∧ w = 0 ∧
    ((pointing 0x100).S a).toNat % 8 = 0 ∧ OwnBytes (atScratch.entered (.ctx 0 0) (some 6)) 0 0 ((pointing 0x100).S a).toNat 8 0x100 amoR ∧ Alone atScratch (.ctx 0 0) ∧ atScratch.tokenHolder = none ∧
    amoForm (.cas 5 6 7 1) = some (d', a', b', w', rd', f', z') ∧ (Instr.cas 5 6 7 1).WF ∧ w' = 1 ∧ Between (runs (pointing 0x104)) 0 0 ∧ Present (runs (pointing 0x104)) 0 0 rd' ∧
    ((pointing 0x104).S a').toNat % 4 = 0 ∧ OwnBytes ((runs (pointing 0x104)).entered (.ctx 0 0) (some 6)) 0 0 ((pointing 0x104).S a').toNat 4 0x104 amoR ∧ Alone (runs (pointing 0x104)) (.ctx 0 0) :=
  ⟨_, _, _, _, _, _, _, _, _, _, _, _, _, _, rfl, (Instr.wf_iff _).1 rfl, runs_between _ _, runs_present _ _ _ ⟨rfl, rfl⟩, rfl, by decide, ⟨by decide, by decide +kernel, fun _ => rfl, by decide +kernel, rfl, quietBank rfl⟩,
   runs_alone _ _, rfl, rfl, (Instr.wf_iff _).1 rfl, rfl, runs_between _ _, runs_present _ _ _ ⟨rfl, rfl⟩, by decide, ⟨by decide, by decide +kernel, fun _ => rfl, by decide +kernel, rfl, quietBank rfl⟩, runs_alone _ _⟩

/-- The context has the answer to its request. -/
def answered (r : Regs) (answer : List Nat) : State :=
  { runs r with cores := [(0, { ctxs := [(0, { r := r, st := .ready, asked := some 7, reply := some answer })], plb := [(0, allRights)] })] }
theorem answered_is (r : Regs) (answer : List Nat) : Answered (answered r answer) 0 0 answer := ⟨rfl, rfl, rfl, rfl, rfl, rfl, rfl, rfl, rfl⟩

theorem witness_BankOperationsIssue : ∃ d a b t op rd, bankForm (.mredAdd 0 6 7 0) = some (d, a, b, t, op, rd) ∧ (Instr.mredAdd 0 6 7 0).WF ∧ Present atDram 0 0 rd ∧ (0x100000 : W64).toNat % 4 = 0 ∧
    Between atDram 0 0 ∧ (atDram.entered (.ctx 0 0) (some 7)).check (.ctx 0 0) 0x100000 4 amoR = .ok (.mem 0 dramTag 0x100000) ∧
    Answered (answered { s := [(6, 0x100000)] } [0, 3, 0]) 0 0 [0, 3, 0] ∧ Answered (answered { s := [(6, 0x100000)] } [0]) 0 0 [0] ∧ d = 0 ∧ op ≠ 3 :=
  ⟨_, _, _, _, _, _, rfl, (Instr.wf_iff _).1 rfl, runs_present _ _ _ ⟨rfl, rfl⟩, by decide, runs_between _ _, by decide +kernel, answered_is _ _, answered_is _ _, rfl, by decide⟩

/-- A message under way, with its number as the operand of the happening. -/
def arriving (m : Msg) : State := { runs {} with flight := [(4, m)], nextMsg := 5, args := [4] }
theorem witness_BankOperationAtTheBank :
    (let s := arriving { chan := 0, ev := ⟨.bankOpAccept, [4]⟩, src := 0, words := [0x100000, 0, 0, 5, 0, 0, 1, 0, 0] }
     ∃ m, s.args = [4] ∧ s.msg? 4 = some m ∧ m.words.length = 9 ∧ s.pageTarget (.ofCode m.src) Target.isDram false (m.words.getD 0 0) = .ok (.mem 0 dramTag 0x100000) ∧ s.darkAt 0x100000 = false ∧
       s.tokenHolder = none ∧ s.pageHeld 0x100000 = false ∧ Alone s (.ofCode m.src)) ∧
    (let s := arriving { chan := 0, ev := ⟨.bankOpPerform, [4]⟩, src := 0, words := [0x100000, 3, 1, 5, 0, 0, 0, 0, 0, 0x100000, 0, 0] }
     ∃ m, s.msg? 4 = some m ∧ m.words.take 5 = [0x100000, 3, 1, 5, 0] ∧ s.noBad = true ∧ (∀ k, has s.under k = false) ∧ (s.ctx (.ofCode m.src)).asked ≠ some 4) := by
  refine ⟨?_, ?_⟩
  · exact ⟨_, rfl, rfl, rfl, by decide +kernel, by decide +kernel, rfl, rfl, runs_alone {} .user⟩
  · exact ⟨_, rfl, rfl, rfl, fun _ => rfl, by decide⟩

/-- Every crossing FIFO drains. -/
def drained : State := { atDram with power := { drain := some true } }
theorem drained_between : Between drained 0 0 :=
  ⟨⟨rfl, rfl, (by decide : (0 : Nat) < 511), (by decide : (0 : Nat) < 32), rfl, rfl, rfl, rfl, rfl, rfl, rfl, rfl, rfl⟩, rfl⟩
/-- A FIFO that admits requests and one that does not, for a load that misses and for an operation at the bank. -/
theorem witness_CrossingFifo : atDram.closed (.ctx 0 0) = false ∧ drained.closed (.ctx 0 0) = true ∧ Plain drained 0 0 ∧ Between drained 0 0 ∧ Present drained 0 0 [6] ∧
    (drained.opened (.ctx 0 0) (some 4)).misses (.ctx 0 0) dramTag 0x100000 8 = true ∧
    (drained.opened (.ctx 0 0) (some 4)).check (.ctx 0 0) 0x100000 8 rdR = .ok (.mem 0 dramTag 0x100000) ∧
    (drained.entered (.ctx 0 0) (some 7)).check (.ctx 0 0) 0x100000 4 amoR = .ok (.mem 0 dramTag 0x100000) :=
  ⟨rfl, rfl, drained_between.toPlain, drained_between, fun k _ => runs_present { s := [(6, 0x100000), (7, 5)] } .user [6] ⟨rfl, rfl⟩ k ‹_›, by decide +kernel, by decide +kernel, by decide +kernel⟩

theorem witness_CacheHints : (∃ a off, hintForm (.prefL2 6 256) = some (a, off) ∧ (Instr.prefL2 6 256).WF ∧ Plain atDram 0 0 ∧ Present atDram 0 0 [a] ∧ NoBankOps atDram ∧ atDram.pageHeld ((atDram.regs (.ctx 0 0)).S a + BitVec.ofInt 64 off).toNat = false) ∧
    Between atDram 0 0 ∧ Present atDram 0 0 [6] ∧ (Instr.clean 6 0).WF ∧ (atDram.entered (.ctx 0 0) (some 4)).check (.ctx 0 0) 0x100000 1 rdR = .ok (.mem 0 dramTag 0x100000) ∧
    atDram.pageHeld 0x100000 = false ∧ (∀ e ∈ (atDram.slice 0).sectors, atDram.darkLine e.tag = false) :=
  ⟨⟨_, _, rfl, (Instr.wf_iff _).1 rfl, runs_plain _ _, runs_present _ _ _ ⟨rfl, rfl⟩, quietBank rfl, rfl⟩, runs_between _ _, runs_present _ _ _ ⟨rfl, rfl⟩, (Instr.wf_iff _).1 rfl, by decide +kernel, rfl, fun e he => (by cases he)⟩


/-! ## Witnesses: chunks, traps, contexts -/

/-- A chunk runs that has buffered a byte and made a store to core 1. -/
def chunky : Ctx := { st := .ready, chunk := { run := true, wbuf := [(0x100000, 7)], remote := [⟨1, 0, .raw [5]⟩], peer := [⟨2, true, 0x1000, [9]⟩], undo := [(scratchKey 0 0 / 64, List.replicate 64 3)] } }
theorem witness_ChunkCommits : (chunky.chunk.wbuf.map (·.1)).Nodup ∧ (holds chunky).queued (.ctx 0 0) = false ∧ (holds chunky).tokenHolder = none ∧ Alone (holds chunky) (.ctx 0 0) ∧
    chunky.chunk.remote = [⟨1, 0, .raw [5]⟩] ∧ chunky.chunk.peer = [⟨2, true, 0x1000, [9]⟩] ∧ bit (look 0 (holds chunky).flows 2).toNat 62 = false ∧
    bit (look 0 { holds chunky with flows := [(2, n64 (2 ^ 62))] }.flows 2).toNat 62 = true ∧ Plain (holds chunky) 0 0 ∧ ({ holds chunky with args := [(Agent.ctx 0 0).code] } : State).queued (.ctx 0 0) = false :=
  ⟨by decide, rfl, rfl, holds_alone _, rfl, rfl, by decide, by decide, ⟨rfl, rfl, (by decide : (0 : Nat) < 511), (by decide : (0 : Nat) < 32), rfl, rfl, rfl, rfl, rfl, rfl, rfl, rfl, rfl⟩, rfl⟩
/-- The chunk passes where the crossing FIFO is open and the flow has credit; a FIFO that drains keeps it. -/
def shut : State := { holds chunky with power := { drain := some false } }
theorem witness_ChunkCommits_passes : (holds chunky).credit 2 1 = true ∧ (holds chunky).closed (.ctx 0 0) = false ∧
    shut.closed (.ctx 0 0) = true ∧ chunky.chunk.wbuf ≠ [] ∧ shut.queued (.ctx 0 0) = false ∧ shut.tokenHolder = none ∧ Plain shut 0 0 ∧ NoBankOps shut ∧ Alone shut (.ctx 0 0) :=
  ⟨rfl, rfl, rfl, by decide, rfl, rfl, ⟨rfl, rfl, (by decide : (0 : Nat) < 511), (by decide : (0 : Nat) < 32), rfl, rfl, rfl, rfl, rfl, rfl, rfl, rfl, rfl⟩, quietBank rfl,
   fun b h => by rw [show shut.ctx b = (holds chunky).ctx b from rfl, holds_ctx _ b h]⟩
theorem witness_SquashUndoes : chunky.chunk.run = true ∧ (chunky.chunk.undo.map (·.1)).Nodup ∧ (∀ e ∈ chunky.chunk.undo, e.2.length = 64) := by decide
/-- A chunk that has set its request for pre-emption, one that has withdrawn it, and one that has written a register of its core. -/
def withdrawn (req : Bool) (old now : W64) : Ctx := { chunky with r := { preReq := req }, chunk := { chunky.chunk with special := [(0x20B, old, now)], pre := if req then none else some (some 3, 4, true) } }
theorem witness_SquashUndoes_special : (withdrawn true 0 1).chunk.special = [(0x20B, 0, 1)] ∧ (withdrawn true 0 1).r.preReq = true ∧ (withdrawn true 1 1).chunk.special = [(0x20B, 1, 1)] ∧
    (withdrawn false 1 0).chunk.special = [(0x20B, 1, 0)] ∧ (withdrawn false 1 0).r.preReq = false ∧ (withdrawn false 1 0).chunk.pre = some (some 3, 4, true) ∧ (withdrawn false 1 0).chunk.run = true ∧
    (∀ r ∈ [0x220, 0x228, 0x20], ({ chunky with chunk := { chunky.chunk with special := [(r, 5, 6)] } } : Ctx).chunk.special = [(r, 5, 6)]) := by decide
theorem witness_PriorityToken : ({ runs {} with tokenQ := [0, 4] } : State).tokenHolder = none ∧ ({ runs {} with tokenQ := [0, 4] } : State).tokenQ = 0 :: [4] := ⟨rfl, rfl⟩

/-- uie routes every cause that it can. -/
def routing : Regs := { uie := 0xF00023300 }
theorem witness_SoftwareTraps : softTrap (.brk 9) = some (0x11, 9) ∧ (Instr.brk 9).WF ∧ softTrap (.trap 9) = some (0x12, 9) ∧ (Instr.trap 9).WF ∧
    Between (runs {}) 0 0 ∧ bit (({} : Regs).uie).toNat 17 = false ∧ Between (runs routing) 0 0 ∧ bit routing.uie.toNat 17 = true ∧
    ((runs {}).ctx (.ctx 0 0)).lvl = .user ∧ ((runs {}).regs (.ctx 0 0)).act = false ∧ ((runs {}).regs (.ctx 0 0)).tpend = [] ∧
    Between (runs {} .sup) 0 0 ∧ ((runs {} .sup).ctx (.ctx 0 0)).lvl = .sup ∧ bit (({} : Regs).sstat).toNat 3 = false :=
  ⟨rfl, (Instr.wf_iff _).1 rfl, rfl, (Instr.wf_iff _).1 rfl, runs_between _ _, rfl, runs_between _ _, by decide, rfl, rfl, rfl, runs_between _ _, rfl, rfl⟩
/-- A trap that uie routes and one that it does not; a handler that runs; the supervisor with crit clear and set; a trap with a protection record; the Iluet, and the Iluet with crit set. -/
theorem witness_TrapEntry :
    (Between (runs routing) 0 0 ∧ (8 ∈ [8, 9, 12, 13, 17] ∧ bit routing.uie.toNat 8 = true) ∧ ((runs routing).ctx (.ctx 0 0)).lvl = .user ∧ routing.act = false) ∧
    (Between (runs {}) 0 0 ∧ ¬ (bit (({} : Regs).uie).toNat 8 = true)) ∧ (Between (runs { act := true }) 0 0 ∧ ((runs { act := true }).regs (.ctx 0 0)).act = true) ∧
    (Between (runs {} .sup) 0 0 ∧ bit (({} : Regs).sstat).toNat 3 = false) ∧ (Between (runs { sstat := 8 } .sup) 0 0 ∧ bit ((8 : W64)).toNat 3 = true ∧ (runs { sstat := 8 } .sup).jobOf 0 = none) ∧
    (∃ tr : Trap, tr.plb = some (1, 7, 0)) ∧
    (({} : State).iluet.chunk.run = false ∧ ({} : State).iluet.r.tpend = [] ∧ bit (({} : State).fw.fstat).toNat 3 = false) ∧
    bit (({ fw := { fstat := 8 } } : State).fw.fstat).toNat 3 = true :=
  ⟨⟨runs_between _ _, by decide, rfl, rfl⟩, ⟨runs_between _ _, by decide⟩, ⟨runs_between _ _, rfl⟩, ⟨runs_between _ _, by decide⟩, ⟨runs_between _ _, by decide, by decide +kernel⟩,
   ⟨{ cause := 4, info := 0, plb := some (1, 7, 0) }, rfl⟩, ⟨rfl, rfl, by decide⟩, by decide⟩
theorem witness_SupervisorOnly : supervisorOnly (.plbw 5 6) = true ∧ (Instr.plbw 5 6).WF ∧ (runs {}).cur = .ctx 0 0 ∧ ((runs {}).ctx (.ctx 0 0)).lvl = .user := ⟨rfl, (Instr.wf_iff _).1 rfl, rfl, rfl⟩
theorem witness_Returns : (Between (runs {} .sup) 0 0 ∧ ((runs {} .sup).ctx (.ctx 0 0)).lvl = .sup ∧ ((runs {} .sup).regs (.ctx 0 0)).tpend = [] ∧ bit (({} : Regs).sstat).toNat 4 = false ∧
      bit (({} : Regs).sstat).toNat 5 = false) ∧
    (let s : State := { iluet := { st := .ready } }
     s.cur = .iluet ∧ s.iluet.st = .ready ∧ s.iluet.chunk.run = false) ∧
    (Between (runs { act := true }) 0 0 ∧ ((runs { act := true }).regs (.ctx 0 0)).act = true) ∧ (Between (runs {}) 0 0 ∧ ((runs {}).regs (.ctx 0 0)).act = false) :=
  ⟨⟨runs_between _ _, rfl, rfl, by decide, by decide⟩, ⟨rfl, rfl, rfl⟩, ⟨runs_between _ _, rfl⟩, ⟨runs_between _ _, rfl⟩⟩
/-- Causes that uie routes and others, of which each kind's lowest is to enter, at a boundary of a context. -/
def causes (lvl : Level) (r : Regs) (pend : List (Nat × W64)) (probes : List (Nat × W64) := []) : Ctx := { st := .ready, lvl := lvl, r := r, pend := pend, probes := probes }
/-- An unrouted cause goes before a routed one of lower code; PROBE with two to deliver; TIMER, routed; PREEMPT at supervisor level, and none deliverable. -/
theorem witness_AsynchronousEntry :
    (let c := causes .user { uie := 0x200000000 } [(0x21, 5), (0x23, 6), (0x22, 7)]
     let s : State := { holds c with args := [(Agent.ctx 0 0).code] }
     s.args = [(Agent.ctx 0 0).code] ∧ (s.ctx (.ctx 0 0)).chunk.run = false ∧ (s.ctx (.ctx 0 0)).r.tpend = [] ∧ (s.ctx (.ctx 0 0)).asked = none ∧ ((s.ctx (.ctx 0 0)).pend.map (·.1)).Nodup ∧
       (s.ctx (.ctx 0 0)).lvl = .user ∧ FirstPending (s.ctx (.ctx 0 0)) (ForSupervisor (s.ctx (.ctx 0 0))) 0x22 7) ∧
    (let c := causes .sup { sstat := 1 } [(0x24, 5), (0x0F, 6), (0x22, 7)] [(8, 9), (1, 2)]
     bit c.r.sstat.toNat 0 = true ∧ FirstPending c (ForSupervisor c) 0x0F 6 ∧ c.probes = (8, 9) :: [(1, 2)]) ∧
    (let c := causes .user routing [(0x21, 5), (0x20, 6)]
     c.lvl = .user ∧ c.r.act = false ∧ (∀ e ∈ c.pend, ¬ ForSupervisor c e.1) ∧ FirstPending c (fun k => toUser c.r k = true) 0x20 6) ∧
    (let c := causes .sup { routing with sstat := 1 } [(0x24, 5), (0x21, 6)]
     ∀ e ∈ c.pend, ¬ ((c.lvl = .user ∨ bit c.r.sstat.toNat 0 = true) ∧ ForSupervisor c e.1) ∧ ¬ ((c.lvl = .user ∧ c.r.act = false) ∧ toUser c.r e.1 = true)) := by
  unfold FirstPending ForSupervisor
  decide
theorem witness_FencesAndWaits : Between (runs {}) 0 0 ∧ ((runs {}).ctx (.ctx 0 0)).unackedScratch = 0 ∧ ((runs {}).ctx (.ctx 0 0)).unackedPeer = [] ∧ ((runs {}).ctx (.ctx 0 0)).flowMarks = [] ∧
    Between (holds { st := .ready, unackedScratch := 1 }) 0 0 ∧ ((holds { st := .ready, unackedScratch := 1 }).ctx (.ctx 0 0)).unackedScratch ≠ 0 ∧
    Between (holds { st := .ready, flowMarks := [(3, 4)] }) 0 0 ∧ ((holds { st := .ready, flowMarks := [(3, 4)] }).ctx (.ctx 0 0)).flowMarks = [(3, 4)] ∧
    Between (runs {} .sup) 0 0 ∧ ((runs {} .sup).ctx (.ctx 0 0)).lvl = .sup ∧ ((runs {} .sup).ctx (.ctx 0 0)).pend = [] ∧
    Between (holds { st := .ready, lvl := .sup, pend := [(0x20, 0)] }) 0 0 ∧ ((holds { st := .ready, lvl := .sup, pend := [(0x20, 0)] }).ctx (.ctx 0 0)).pend ≠ [] :=
  ⟨runs_between _ _, rfl, rfl, rfl, ⟨⟨rfl, rfl, (by decide : (0 : Nat) < 511), (by decide : (0 : Nat) < 32), rfl, rfl, rfl, rfl, rfl, rfl, rfl, rfl, rfl⟩, rfl⟩, by decide,
   ⟨⟨rfl, rfl, (by decide : (0 : Nat) < 511), (by decide : (0 : Nat) < 32), rfl, rfl, rfl, rfl, rfl, rfl, rfl, rfl, rfl⟩, rfl⟩, rfl, runs_between _ _, rfl, rfl,
   ⟨⟨rfl, rfl, (by decide : (0 : Nat) < 511), (by decide : (0 : Nat) < 32), rfl, rfl, rfl, rfl, rfl, rfl, rfl, rfl, rfl⟩, rfl⟩, by decide⟩
/-- An entry of 64 KiB (the least size) that keeps the rules, and one of a size below it. -/
theorem witness_PlbInstructions : Between (runs (holding 0 16 (BitVec.ofNat 64 (2 ^ 48 + 0x9F))) .sup) 0 0 ∧ Present (runs (holding 0 16 (BitVec.ofNat 64 (2 ^ 48 + 0x9F))) .sup) 0 0 [6, 7] ∧
    (let x := 16
     let y := 2 ^ 48 + 0x9F
     bits x 63 56 = 0 ∧ bits x 15 6 = 0 ∧ 16 ≤ bits x 5 0 ∧ bits x 5 0 ≤ 56 ∧ (bits x 55 16 * 2 ^ 16) % 2 ^ bits x 5 0 = 0 ∧ bits y 47 46 = 0 ∧ bits y 39 8 = 0 ∧ bits y 6 5 = 0) ∧ ¬ 16 ≤ bits 15 5 0 :=
  ⟨runs_between _ _, runs_present _ _ _ ⟨rfl, rfl⟩, by decide, by decide⟩

/-- Context 0 runs with these registers, and its helpers are as listed. -/
def helped (r : Regs) (hs : Tab Ctx) : State := { runs r with cores := [(0, { ctxs := (0, { r := r, st := .ready }) :: hs, plb := [(0, allRights)] })] }
/-- An even and an odd target, an idle helper and none; helpers that are idle, and one that is not; a context that yields. -/
theorem witness_HelperContexts : Between (runs (holding 0x100 5 6)) 0 0 ∧ Present (runs (holding 0x100 5 6)) 0 0 [5, 6, 7] ∧ ((runs {}).core 0).courier = none ∧ ((holding 0x100 5 6).S 5).getLsbD 0 = false ∧
    (runs (holding 0x100 5 6)).idleCtx 0 1 = some 1 ∧ (helped (holding 0x100 5 6) [(1, { st := .ready }), (2, { st := .ready }), (3, { st := .ready })]).idleCtx 0 1 = none ∧ ((holding 0x101 5 6).S 5).getLsbD 0 = true ∧
    (∀ h, 1 ≤ h → h ≤ 3 → ((runs (holding 0 0xE 0)).ctx (.ctx 0 h)).st = .idle) ∧
    (((holding 0 2 0).S 6).getLsbD 1 = true ∧ ((helped (holding 0 2 0) [(1, { st := .ready })]).ctx (.ctx 0 1)).st ≠ .idle) ∧ Plain (runs {}) 0 0 :=
  ⟨runs_between _ _, runs_present _ _ _ ⟨rfl, rfl⟩, rfl, by decide, by decide +kernel, by decide +kernel, by decide,
   fun h h1 _ => by rw [show (runs (holding 0 0xE 0)).ctx (.ctx 0 h) = {} from holds_ctx _ _ (by simp; omega)], ⟨by decide, by decide⟩, runs_plain _ _⟩
/-- A helper that ends, a control context that ends, one that waits for its helper, one whose helpers have ended, and a courier that waits. -/
theorem witness_ContextsEnd : Between (runs {}) 0 0 ∧ ((runs {}).regs (.ctx 0 0)).act = false ∧ (runs {}).control (.ctx 0 0) = none ∧ ((runs {}).ctx (.ctx 0 0)).mcmds = 0 ∧ ((runs {}).ctx (.ctx 0 0)).taps = 0 ∧
    ((runs {}).ctx (.ctx 0 0)).probes = [] ∧ (runs {}).jobOf 0 = none ∧ ((runs {}).ctx (.ctx 0 0)).entries = [] ∧ (runs {}).tokenHolder = none ∧ (runs {}).tokenQ = [] ∧
    (∀ h, 1 ≤ h → h < 4 → ((runs {}).ctx (.ctx 0 h)).live = false) ∧
    (1 ≤ 1 ∧ 1 < 4 ∧ ((helped {} [(1, { st := .ready })]).ctx (.ctx 0 1)).live = true) ∧
    (let s : State := { holds { st := .waiting, why := 4, retiring := true } with args := [0] }
     s.args = [0] ∧ (s.ctx (.ctx 0 0)).st = .waiting ∧ (s.ctx (.ctx 0 0)).why = 4 ∧ (s.ctx (.ctx 0 0)).retiring = true ∧ s.jobOf 0 = none) ∧
    (let s : State := { cores := [(0, { courier := some { pc := 0x100, x := 1, y := 2, src := 4, ack := true, tag := 0, payload := 0, dom := 0 } })], args := [0] }
     ∃ c, (s.core 0).courier = some c ∧ s.idleCtx 0 0 = some 0 ∧ c.src < 401408) :=
  ⟨runs_between _ _, rfl, by decide +kernel, rfl, rfl, rfl, by decide +kernel, rfl, rfl, rfl,
   fun h h1 _ => by rw [show (runs {}).ctx (.ctx 0 h) = {} from holds_ctx _ _ (by simp; omega)]; rfl, by decide, by decide +kernel, ⟨_, rfl, by decide +kernel, by decide⟩⟩


/-! ## Witnesses: saves, messages -/

theorem ok_eq {ε α : Type} (x : Except ε α) (v : α) (h : x.toOption = some v) : x = .ok v := by
  cases x with
  | error e => simp [Except.toOption] at h
  | ok p => simpa [Except.toOption] using h
theorem error_some {ε α : Type} (x : Except ε α) (h : x.toOption.isSome = false) : ∃ tr, x = .error tr := by
  cases x with
  | error e => exact ⟨e, rfl⟩
  | ok p => simp [Except.toOption] at h
theorem ok_some {ε α : Type} (x : Except ε α) (h : x.toOption.isSome = true) : ∃ v, x = .ok v := by
  cases x with
  | error e => simp [Except.toOption] at h
  | ok p => exact ⟨p, rfl⟩

/-- The column of core 0 belongs to partition 0, whose domain table stands at 0x300000. -/
def owned (s : State) : State := { s with parts := [(0, { pcols := [(0, 1)], pdomt := 0x300000 })] }

theorem witness_SaveAreaLayout : (1 : Nat) < 4 ∧ bit ({ smask := 2, full := false, index := 3 } : LiveMap).smask 1 = true ∧ bit ({ vmask := 1, full := false, index := 3 } : LiveMap).vmask 0 = true := by decide
/-- No request; a request that is delivered, and one that is saved, with a live map at lmbase. -/
theorem witness_SafePoints : Between (runs {}) 0 0 ∧ (runs {}).jobOf 0 = none ∧ ((runs {}).regs (.ctx 0 0)).preReq = false ∧
    Between (runs { preReq := true, preDlv := true, lmbase := 0x100000 }) 0 0 ∧ ((runs { preReq := true, preDlv := true, lmbase := 0x100000 }).liveMap (.ctx 0 0) 3).isSome = true ∧
    (runs { preReq := true, preDlv := true, lmbase := 0x100000 }).jobOf 0 = none ∧
    Between (runs { preReq := true, lmbase := 0x100000 }) 0 0 ∧ ((runs { preReq := true, lmbase := 0x100000 }).liveMap (.ctx 0 0) 3).isSome = true ∧ (runs { preReq := true, lmbase := 0x100000 }).jobOf 0 = none :=
  ⟨runs_between _ _, by decide +kernel, rfl, runs_between _ _, by decide +kernel, by decide +kernel, runs_between _ _, by decide +kernel, by decide +kernel⟩

/-- A context whose save in full, at its deadline, is in progress, into an area at 0x200000. -/
def saved : State := { owned (holds { st := .stalled, r := { save := 0x200000, preReq := true }, saving := some (2, 0) }) with args := [(Agent.ctx 0 0).code] }
theorem witness_Preemption : (∃ t, saved.args = [(Agent.ctx 0 0).code] ∧ (saved.ctx (.ctx 0 0)).saving = some (2, 0) ∧ (saved.ctx (.ctx 0 0)).parked = false ∧ (saved.ctx (.ctx 0 0)).probes = [] ∧
      saved.saveReady 0 0 = true ∧ saved.makeSave 0 0 (2, 0) = .ok t) ∧
    (saved.tokenHolder = none ∧ ∃ ts, saved.areaTargets 0 (saved.ctx (.ctx 0 0)).r.save.toNat wrR ((saved.areaBlocks 0 0 (saved.saveMap (.ctx 0 0) (2, 0)) (saved.ctx (.ctx 0 0)).r.pc
      (if (saved.core 0).holder = some 0 then some (saved.ctx (.ctx 0 0)).rsvSpent else none)).map (fun b => (b.1, b.2.length))) = .ok ts) ∧
    (let s : State := { holds { st := .ready, deadline := 6, r := { preReq := true } } with args := [(Agent.ctx 0 0).code, 6] }
     s.args = [(Agent.ctx 0 0).code, 6] ∧ (s.ctx (.ctx 0 0)).deadline = 6 ∧ (s.ctx (.ctx 0 0)).r.preReq = true ∧ (s.ctx (.ctx 0 0)).lvl = .user ∧ (s.ctx (.ctx 0 0)).st = .ready ∧ (s.ctx (.ctx 0 0)).saving = none) ∧
    (let s : State := { runs {} with args := [(Agent.ctx 0 0).code] }
     s.args = [(Agent.ctx 0 0).code] ∧ s.jobOf 0 = none ∧ (s.ctx (.ctx 0 0)).saving = none ∧ (s.core 0).resident = false ∧ (s.ctx (.ctx 0 0)).r.preReq = false) := by
  have h := ok_some (saved.makeSave 0 0 (2, 0)) (by decide +kernel)
  obtain ⟨t, ht⟩ := h
  exact ⟨⟨t, rfl, rfl, rfl, rfl, by decide +kernel, ht⟩, ⟨rfl, ok_some _ (by decide +kernel)⟩, by decide, by decide +kernel⟩

theorem witness_RegisterHappenings : ((owned (runs {})).ctx (.ctx 0 0)).chunk.run = false ∧ (owned (runs {})).partOfCol (colOf 0) = some 0 ∧ bits 0x3FF 15 10 = 0 ∧
    (∃ slice tag key va, (owned (runs {})).errWord (.ctx 0 0) 1 false = .ok (some (.mem slice tag key, va))) ∧ (∃ slice tag key va, (owned (runs {})).errWord (.ctx 0 0) 1 true = .ok (some (.mem slice tag key, va))) ∧
    (owned (runs {})).tokenHolder = none ∧ NoChunks (owned (runs {})) ∧ NoBankOps (owned (runs {})) ∧ (owned (runs {})).noBad = true ∧
    (let s := { runs { tmrCmp := 9 } with time := 9 }
     (s.regs (.ctx 0 0)).tmrCmp ≠ 0 ∧ (s.regs (.ctx 0 0)).tmrCmp.toNat ≤ s.time ∧ (s.ctx (.ctx 0 0)).live = true) :=
  ⟨rfl, by decide +kernel, by decide, ⟨0, { va := 0x3000, key := 0x3000, home := 0, ty := 0, own := 0 }, 0x300008, 0x300008, ok_eq _ _ (by decide +kernel)⟩,
   ⟨0, { va := 0x3000, key := 0x3000, home := 0, ty := 0, own := 0 }, 0x300008, 0x300008, ok_eq _ _ (by decide +kernel)⟩, rfl, runs_noChunks _ _, quietBank rfl, rfl, by decide⟩

/-- A message of each kind that a scratchpad receives; the reader asks. -/
theorem witness_RemoteScratchpadAccesses :
    (∃ m, (arriving { chan := 0, ev := ⟨.remoteStoreGroup, [4]⟩, src := 4, stores := [⟨0, 0, .raw [1, 2]⟩] }).msg? 4 = some m ∧ m.stores = [⟨0, 0, .raw [1, 2]⟩]) ∧
    (arriving { chan := 0, ev := ⟨.scratchStoreAck, [4]⟩, src := 4 }).tokenHolder = none ∧ (runs {}).noBad = true ∧ NoChunks (runs {}) ∧
    (let s : State := { holds { st := .stalled, asked := some 4 } with args := [4], flight := [(4, { chan := 0, ev := ⟨.remoteRead, [4]⟩, src := 0, words := [1, 0, 8] })] }
     ∃ m, s.msg? 4 = some m ∧ m.words = [1, 0, 8] ∧ (s.ctx (.ofCode m.src)).asked = some 4) ∧
    (let s : State := { holds { st := .stalled, asked := some 4 } with args := [4], flight := [(4, { chan := 0, ev := ⟨.remoteAtomic, [4]⟩, src := 0, words := [1, 0, 8, 0, 5, 0] })] }
     ∃ m, s.msg? 4 = some m ∧ m.words = [1, 0, 8, 0, 5, 0] ∧ (s.ctx (.ofCode m.src)).asked = some 4) :=
  ⟨⟨_, rfl, rfl⟩, rfl, rfl, runs_noChunks _ _, ⟨_, rfl, rfl, rfl⟩, ⟨_, rfl, rfl, rfl⟩⟩

/-- A SENDR to context 1 of core 1 for s5, with the target as listed. -/
def sent (c : Ctx) (dom : Nat) : State :=
  { cores := [(1, { ctxs := [(1, c)] })], args := [4], flight := [(4, { chan := 0, ev := ⟨.sendrDelivery, [4]⟩, src := 0, words := [1, 1, 5, 77, 3, 1, 9, dom] })] }
/-- A message of 8 bytes for core 0 with `k` entries of its inbox in use. -/
def enqueued (k : Nat) : State := { runs {} with cores := [(0, { reserved := k, plb := [(0, allRights)] })], args := [4], flight := [(4, { chan := 0, ev := ⟨.putqArrival, [4]⟩, src := 4, words := [0, 0x100, 2, 8, 3, 1, scratchVa 0x100], bytes := [1, 2, 3, 4, 5, 6, 7, 8] })] }
/-- A WSMSG at a slice with the handler table `t`. -/
def messaged (t : Tab W64) : State :=
  { slices := [(3, { table := t })], args := [4], flight := [(4, { chan := 0, ev := ⟨.wsmsgArrival, [4]⟩, src := 4, words := [3, 0x20000, 5, 6, 0] })] }
/-- A courier at core 1. -/
def couriered (cs : Tab Ctx) : State :=
  { cores := [(1, { ctxs := cs })], args := [4], flight := [(4, { chan := 0, ev := ⟨.courierArrival, [4]⟩, src := 4, words := [1, 0x100, 1, 2, 1, 3, 0, 0] })] }
/-- One message for each clause: another domain, Saved, idle, present, absent; a completion; an inbox that is full but for its reserved entries, and one with 63 in use; no handler, and one; an idle context, and none. -/
theorem witness_MessagesArrive :
    (∀ s ∈ [sent {} 0, enqueued 63, messaged [], couriered []], ∃ m, s.args = [4] ∧ s.msg? 4 = some m ∧ m.src < 401408) ∧ (sent {} 0).darkCols = [] ∧
    ((sent {} 1).ctx (.ctx 1 1)).r.dom.toNat ≠ 1 ∧ ((sent { st := .saved } 0).ctx (.ctx 1 1)).st = .saved ∧ ((sent {} 0).ctx (.ctx 1 1)).st = .idle ∧
    (((sent { st := .ready } 0).ctx (.ctx 1 1)).live = true ∧ ((sent { st := .ready } 0).ctx (.ctx 1 1)).r.absent.getLsbD 5 = false) ∧
    (((sent { st := .ready, r := { absent := 32 } } 0).ctx (.ctx 1 1)).live = true ∧ ((sent { st := .ready, r := { absent := 32 } } 0).ctx (.ctx 1 1)).r.absent.getLsbD 5 = true) ∧
    (∃ m : Msg, m.words = [1, 0, 3, 9] ∧ m.src = 4 * 0 + 0) ∧
    ((enqueued 64).tokenHolder = none ∧ NoChunks (enqueued 64) ∧ (enqueued 64).noBad = true ∧ (enqueued 64).landing (.ctx 0 0) (absolute 0x80 0 0x100) 8 (some 0) = .ok (.scratch 0 0x100) ∧
      64 ≤ ((enqueued 64).core 0).inbox.length + ((enqueued 64).core 0).reserved) ∧
    (NoChunks (enqueued 63) ∧ (enqueued 63).landing (.ctx 0 0) (absolute 0x80 0 0x100) 8 (some 0) = .ok (.scratch 0 0x100) ∧ ((enqueued 63).core 0).inbox.length + ((enqueued 63).core 0).reserved < 64) ∧
    ((messaged []).slice 3).handler 3 0x20000 0 = none ∧ ((messaged [(0, 0x20001), (1, 0x2000F)]).slice 3).handler 3 0x20000 0 = some 0 ∧ ((messaged []).slice 3).queue.length < 32 ∧
    ((couriered []).core 1).courier = none ∧ (couriered []).idleCtx 1 0 = some 0 ∧ (couriered [(0, { st := .ready }), (1, { st := .ready }), (2, { st := .ready }), (3, { st := .ready })]).idleCtx 1 0 = none := by
  refine ⟨?_, rfl, by decide, by decide, by decide, by decide, by decide, ⟨{ chan := 0, ev := ⟨.senderCompletion, [4]⟩, words := [1, 0, 3, 9] }, rfl, rfl⟩, ⟨rfl, ?_, rfl, by decide +kernel, by decide⟩,
    ⟨?_, by decide +kernel, by decide⟩, by decide +kernel, by decide +kernel, by decide, by decide, by decide +kernel, by decide +kernel⟩
  · intro s hs
    simp only [List.mem_cons, List.not_mem_nil, or_false] at hs
    rcases hs with h | h | h | h <;> subst h <;> exact ⟨_, rfl, rfl, by decide⟩
  all_goals
    intro b
    cases b with
    | iluet => rfl
    | ws k => rfl
    | ctx c n => by_cases hc : c = 0 <;> simp [State.ctx, State.core, enqueued, look, hc, Ne.symm]

/-- A core whose inbox holds one entry of its context. -/
def boxed : State := { runs {} with cores := [(0, { ctxs := [(0, { st := .ready })], inbox := [⟨0, 5, 6⟩], plb := [(0, allRights)] })] }
theorem witness_InboxInstructions : Between boxed 0 0 ∧ (Instr.ibpop 6).WF ∧ (boxed.core 0).inbox.filter (fun e => e.ctx = 0) = ⟨0, 5, 6⟩ :: [] ∧ Between (runs {}) 0 0 ∧
    ((runs {}).core 0).inbox.filter (fun e => e.ctx = 0) = [] ∧ Plain (runs {}) 0 0 ∧ (Instr.sendrArm 6).WF :=
  ⟨⟨⟨rfl, rfl, (by decide : (0 : Nat) < 511), (by decide : (0 : Nat) < 32), rfl, rfl, rfl, rfl, rfl, rfl, rfl, rfl, rfl⟩, rfl⟩, (Instr.wf_iff _).1 rfl, by decide, runs_between _ _, by decide, runs_plain _ _, (Instr.wf_iff _).1 rfl⟩

/-- Context 0 runs on core 0, all of whose inbox entries are reserved. -/
def crowded (r : Regs) : State := { runs r with cores := [(0, { ctxs := [(0, { st := .ready, r := r })], reserved := 64, plb := [(0, allRights)] })] }
theorem crowded_between (r : Regs) : Between (crowded r) 0 0 :=
  ⟨⟨rfl, rfl, (by decide : (0 : Nat) < 511), (by decide : (0 : Nat) < 32), rfl, rfl, rfl, rfl, rfl, rfl, rfl, rfl, rfl⟩, rfl⟩
theorem crowded_full (r : Regs) : ¬ RoomInInbox (crowded r) 0 := by unfold RoomInInbox; exact (by decide : ¬ ((0 : Nat) + 64 < 64))
theorem crowded_present (r : Regs) (rd : List Nat) (h : r.absent = 0 ∧ r.tpend = []) : Present (crowded r) 0 0 rd := by
  intro k _
  show Regs.present r k = true
  simp [Regs.present, h.1, h.2, has]
theorem runs_room (r : Regs) : RoomInInbox (runs r) 0 := by unfold RoomInInbox; exact (by decide : (0 : Nat) + 0 < 64)

/-- A target in the grid, with a free entry and with none, and a target off the grid. -/
theorem witness_RegisterMessagesLeave : (Instr.sendr 5 6 7).WF ∧ (∀ a, Between (runs (holding 1 a 7)) 0 0 ∧ Present (runs (holding 1 a 7)) 0 0 [6, 7] ∧ RoomInInbox (runs (holding 1 a 7)) 0) ∧
    (Between (crowded (holding 1 1 7)) 0 0 ∧ Present (crowded (holding 1 1 7)) 0 0 [6, 7] ∧ ¬ RoomInInbox (crowded (holding 1 1 7)) 0) ∧
    target179 ((holding 1 1 7).S 6).toNat (some 0) = some 1 ∧ target179 ((holding 1 0x70 7).S 6).toNat (some 0) = none :=
  ⟨(Instr.wf_iff _).1 rfl, fun _ => ⟨runs_between _ _, runs_present _ _ _ ⟨rfl, rfl⟩, runs_room _⟩, ⟨crowded_between _, crowded_present _ _ ⟨rfl, rfl⟩, crowded_full _⟩, by decide +kernel, by decide +kernel⟩

/-- `len` bytes at 0x100 of the own scratchpad, for a destination. -/
def putting (len dst : Nat) : Regs := holding (n64 len) (n64 dst) (n64 (scratchVa 0x100))
/-- Lengths of 0 and 257; a source that fails its checks; a destination outside the windows, a courier of 8 bytes; 8 bytes for core 1, with a free entry and with none; a courier of 24. -/
theorem witness_PayloadsLeave : (Instr.putq 5 6 7).WF ∧ (∀ len dst, Between (runs (putting len dst)) 0 0 ∧ Present (runs (putting len dst)) 0 0 [5, 6, 7] ∧ RoomInInbox (runs (putting len dst)) 0 ∧
      Between (crowded (putting len dst)) 0 0 ∧ Present (crowded (putting len dst)) 0 0 [5, 6, 7] ∧ ¬ RoomInInbox (crowded (putting len dst)) 0) ∧
    bits ((putting 0 0).S 5).toNat 8 0 = 0 ∧ 256 < bits ((putting 257 0).S 5).toNat 8 0 ∧
    (let r := holding 8 0 (n64 (scratchVa 0x1FFFC))
     1 ≤ bits (r.S 5).toNat 8 0 ∧ bits (r.S 5).toNat 8 0 ≤ 256 ∧ bits (r.S 7).toNat 63 48 ≠ 0xFF81 ∧ bits (r.S 7).toNat 63 48 ≠ 0xFF82 ∧ ∃ tr, ((runs r).entered (.ctx 0 0) (some 14)).check (.ctx 0 0) (r.S 7).toNat 8 rdR = .error tr) ∧
    (∀ dst ∈ [0x100000, 0xFF82000000000000], let r := putting 8 dst
     1 ≤ bits (r.S 5).toNat 8 0 ∧ bits (r.S 5).toNat 8 0 ≤ 256 ∧ bits (r.S 7).toNat 63 48 ≠ 0xFF81 ∧ bits (r.S 7).toNat 63 48 ≠ 0xFF82 ∧ (r.S 6).toNat = dst ∧
       ((runs r).entered (.ctx 0 0) (some 14)).check (.ctx 0 0) (r.S 7).toNat 8 rdR = .ok (.scratch 0 0x100)) ∧
    (let r := putting 8 (scratchVa (2 ^ 28))
     OwnBytes ((runs r).entered (.ctx 0 0) (some 14)) 0 0 (r.S 7).toNat 8 0x100 rdR ∧ OwnBytes ((crowded r).entered (.ctx 0 0) (some 14)) 0 0 (r.S 7).toNat 8 0x100 rdR ∧ bits (r.S 6).toNat 63 48 = 0xFF80 ∧
       addrCheck (.ctx 0 0) (r.S 6).toNat 8 false = .ok (some 1) ∧ rightsCheck ((runs r).core 0).plb r.dom.toNat (r.S 6).toNat (absolute 0x80 1 (bits (r.S 6).toNat 27 0)) 8 wrR = .ok () ∧
       (runs r).tapHeld (.ctx 0 0) (scratchKey 1 (bits (r.S 6).toNat 16 0)) 8 = false) ∧
    (let r := putting 24 (0xFF82 * 2 ^ 48 + 2 ^ 28)
     OwnBytes ((runs r).entered (.ctx 0 0) (some 14)) 0 0 (r.S 7).toNat 24 0x100 rdR ∧ bits (r.S 6).toNat 63 48 = 0xFF82 ∧ bits (r.S 5).toNat 8 0 = 24 ∧
       addrCheck (.ctx 0 0) (r.S 6).toNat 8 false = .ok (some 1) ∧ rightsCheck ((runs r).core 0).plb r.dom.toNat (r.S 6).toNat (absolute 0x82 1 (bits (r.S 6).toNat 27 0)) 8 wrR = .ok ()) :=
  ⟨(Instr.wf_iff _).1 rfl, fun _ _ => ⟨runs_between _ _, runs_present _ _ _ ⟨rfl, rfl⟩, runs_room _, crowded_between _, crowded_present _ _ ⟨rfl, rfl⟩, crowded_full _⟩, by decide, by decide,
   ⟨by decide, by decide, by decide, by decide, error_some _ (by decide +kernel)⟩, by decide +kernel,
   ⟨⟨by decide, by decide +kernel, fun _ => rfl, by decide +kernel, rfl, quietBank rfl⟩, ⟨by decide, by decide +kernel, fun _ => rfl, by decide +kernel, rfl, quietBank rfl⟩, by decide, by decide +kernel, by decide +kernel, by decide +kernel⟩,
   ⟨⟨by decide, by decide +kernel, fun _ => rfl, by decide +kernel, rfl, quietBank rfl⟩, by decide, by decide, by decide +kernel, by decide +kernel⟩⟩

/-- A DRAM address, with a free entry and with none; a page of registers, whose home slice its leaf gives; an address of another region that passes, and one that is unmapped. -/
theorem witness_WaystationMessagesLeave : (Instr.wsmsg 5 6 7).WF ∧ (∀ a, Between (runs (holding 1 a 7)) 0 0 ∧ Present (runs (holding 1 a 7)) 0 0 [5, 6, 7] ∧ RoomInInbox (runs (holding 1 a 7)) 0 ∧
      Between (crowded (holding 1 a 7)) 0 0 ∧ Present (crowded (holding 1 a 7)) 0 0 [5, 6, 7] ∧ ¬ RoomInInbox (crowded (holding 1 a 7)) 0) ∧
    ((runs (holding 1 0x100000 7)).entered (.ctx 0 0) (some 14)).check (.ctx 0 0) 0x100000 1 rdR (peer := false) = .ok (.mem 0 dramTag 0x100000) ∧
    (∃ x, ((runs (holding 1 (n64 (scratchVa 0x100)) 7)).entered (.ctx 0 0) (some 14)).check (.ctx 0 0) (scratchVa 0x100) 1 rdR (peer := false) = .ok x) ∧ 0x80 ≤ bits (scratchVa 0x100) 63 48 ∧ bits 0x100000 63 48 < 0x80 ∧
    (∃ tr, ((runs (holding 1 0x80000000 7)).entered (.ctx 0 0) (some 14)).check (.ctx 0 0) 0x80000000 1 rdR (peer := false) = .error tr) :=
  ⟨(Instr.wf_iff _).1 rfl, fun _ => ⟨runs_between _ _, runs_present _ _ _ ⟨rfl, rfl⟩, runs_room _, crowded_between _, crowded_present _ _ ⟨rfl, rfl⟩, crowded_full _⟩, ok_eq _ _ (by decide +kernel), ok_some _ (by decide +kernel),
   by decide, by decide, error_some _ (by decide +kernel)⟩

/-! ## Witnesses: floating point, vectors -/

/-- 1.0 and 3.0 in s6 and s7, with every enable bit of fx.status set or clear. -/
def floats (fx : W64) : Regs := { s := [(6, 0x3F800000), (7, 0x40400000)], fx := fx }
theorem witness_ScalarFloat : ∃ rd d f, floatResult (.fdiv 5 6 7) = some (rd, d, f) ∧ (Instr.fdiv 5 6 7).WF ∧ Plain (runs (floats 0)) 0 0 ∧ Present (runs (floats 0)) 0 0 rd ∧ ¬ enabled (floats 0) (f (floats 0)).2 ∧
    Plain (runs (floats 0x3F00)) 0 0 ∧ Present (runs (floats 0x3F00)) 0 0 rd ∧ enabled (floats 0x3F00) (f (floats 0x3F00)).2 :=
  ⟨_, _, _, rfl, (Instr.wf_iff _).1 rfl, runs_plain _ _, runs_present _ _ _ ⟨rfl, rfl⟩, by unfold enabled; decide +kernel, runs_plain _ _, runs_present _ _ _ ⟨rfl, rfl⟩, by unfold enabled; decide +kernel⟩
theorem witness_FloatNaNs : fp16 ∈ [fp32, fp16, bf16] ∧ (fp16.decode 0x7E00).isNan = true ∧ (fp16.decode 0x7D00).isSig = true := by decide
theorem witness_FloatRounding : bf16 ∈ [fp32, fp16, bf16] ∧ finite (bf16.decode 0x3F80) = true ∧ value (.fin false 3 0) ≠ 0 := ⟨by decide, by decide, by norm_num [value]⟩

/-- A saturating sum that clamps, with sat disabled and enabled. -/
theorem witness_VectorIntegers : ∃ d a b w f, vectorLane (.vadd 1 2 3 1 1) = some (d, a, b, w, f) ∧ (Instr.vadd 1 2 3 1 1).WF ∧ Plain (runs {}) 0 0 ∧ ¬ enabled {} 0x20 ∧ enabled { fx := 0x3F00 } 0x20 :=
  ⟨_, _, _, _, _, rfl, (Instr.wf_iff _).1 rfl, runs_plain _ _, by unfold enabled; decide, by unfold enabled; decide⟩
theorem witness_VectorFloats : ∃ d a b c f g, vectorFloat (.vfma 4 5 6 7 1) = some (d, a, b, c, f, g) ∧ (Instr.vfma 4 5 6 7 1).WF ∧ Plain (runs {}) 0 0 := ⟨_, _, _, _, _, _, rfl, (Instr.wf_iff _).1 rfl, runs_plain _ _⟩
theorem witness_VectorMoves : Plain (runs {}) 0 0 ∧ Present (runs {}) 0 0 [6] ∧ (Instr.vfcvt 3 2 3 1).WF ∧ (Instr.vdot 4 5 6).WF ∧ (Instr.vperm 1 2 3 2).WF ∧ (Instr.vbcast 1 6 2).WF ∧ (Instr.vext 5 2 3 2).WF ∧
    (Instr.vins 2 6 3 2).WF ∧ (∃ f g, reduction (.vrsum 5 2 2) = some (5, 2, 2, f, g)) ∧ (Instr.vrsum 5 2 2).WF ∧ (2 : Nat) < 3 ∧ (∃ f g, reduction (.vrmax 5 2 5) = some (5, 2, 5, f, g)) ∧ (Instr.vrmax 5 2 5).WF :=
  ⟨runs_plain _ _, runs_present _ _ _ ⟨rfl, rfl⟩, (Instr.wf_iff _).1 rfl, (Instr.wf_iff _).1 rfl, (Instr.wf_iff _).1 rfl, (Instr.wf_iff _).1 rfl, (Instr.wf_iff _).1 rfl, (Instr.wf_iff _).1 rfl, ⟨_, _, rfl⟩,
   (Instr.wf_iff _).1 rfl, by decide, ⟨_, _, rfl⟩, (Instr.wf_iff _).1 rfl⟩

/-- A strided access of eight words with stride 64 (ox4), from offset 0x100 on. -/
def striding : Regs := { pointing 0x100 with ox := [(4, n64 (2 * 2 ^ 32 + 64))] }
theorem witness_VectorLoadsAndStores : (Instr.vld 1 6 0).WF ∧ Present atScratch 0 0 [6] ∧ Plain atScratch 0 0 ∧ Room atScratch 0 0 ∧ scratchVa 0x100 % 16 = 0 ∧
    OwnBytes (atScratch.opened (.ctx 0 0) (some 12)) 0 0 (scratchVa 0x100) 32 0x100 rdR ∧ OwnBytes (atScratch.opened (.ctx 0 0) (some 13)) 0 0 (scratchVa 0x100) 32 0x100 wrR ∧
    (Between (runs striding) 0 0 ∧ NoChunks (runs striding) ∧ (runs striding).tokenHolder = none ∧ (runs striding).queued (.ctx 0 0) = false ∧ bits (striding.OX 4).toNat 33 32 = 2 ∧
      ∀ j : Nat, j < 8 → let va := ((scratchVa 0x100 : Int) + (j : Int) * toSigned 32 (bits (striding.OX 4).toNat 31 0)).emod (2 ^ 64) |>.toNat
        va % 4 = 0 ∧ OwnBytes ((runs striding).opened (.ctx 0 0) (some 12)) 0 0 va 4 (0x100 + 64 * j) rdR ∧ OwnBytes ((runs striding).opened (.ctx 0 0) (some 13)) 0 0 va 4 (0x100 + 64 * j) wrR) ∧
    bits (({ ox := [(4, n64 (3 * 2 ^ 32))] } : Regs).OX 4).toNat 33 32 = 3 := by
  refine ⟨(Instr.wf_iff _).1 rfl, runs_present _ _ _ ⟨rfl, rfl⟩, runs_plain _ _, ⟨by decide, by decide⟩, by decide, ⟨by decide, by decide +kernel, fun _ => rfl, by decide +kernel, rfl, quietBank rfl⟩,
    ⟨by decide, by decide +kernel, fun _ => rfl, by decide +kernel, rfl, quietBank rfl⟩, ⟨runs_between _ _, runs_noChunks _ _, rfl, by decide +kernel, by decide, ?_⟩, by decide⟩
  have hw : ∀ j : Nat, j < 8 → (let va := ((scratchVa 0x100 : Int) + (j : Int) * toSigned 32 (bits (striding.OX 4).toNat 31 0)).emod (2 ^ 64) |>.toNat
      va % 4 = 0 ∧ bits va 63 48 = 0xFF80 ∧ ((runs striding).opened (.ctx 0 0) (some 12)).check (.ctx 0 0) va 4 rdR = .ok (.scratch 0 (0x100 + 64 * j)) ∧
      ((runs striding).opened (.ctx 0 0) (some 13)).check (.ctx 0 0) va 4 wrR = .ok (.scratch 0 (0x100 + 64 * j)) ∧
      ((runs striding).opened (.ctx 0 0) (some 12)).tapHeld (.ctx 0 0) (scratchKey 0 (0x100 + 64 * j)) 4 = false ∧
      ((runs striding).opened (.ctx 0 0) (some 13)).tapHeld (.ctx 0 0) (scratchKey 0 (0x100 + 64 * j)) 4 = false) := by decide +kernel
  intro j hj
  obtain ⟨h1, h2, h3, h4, h5, h6⟩ := hw j hj
  exact ⟨h1, ⟨h2, h3, fun _ => rfl, h5, rfl, quietBank rfl⟩, ⟨h2, h4, fun _ => rfl, h6, rfl, quietBank rfl⟩⟩

/-- FP16 elements of a raw bank; the same of a bank of FP32. -/
theorem witness_ConvertingAccesses : (Instr.vldc 1 6 1 0).WF ∧ Plain atScratch 0 0 ∧ Room atScratch 0 0 ∧ Present atScratch 0 0 [6] ∧ resolve (.ctx 0 0) (scratchVa 0x100) = some 0 ∧ scratchVa 0x100 % 2 = 0 ∧
    (bankFmt (look 0 (atScratch.core 0).bfmt (0x100 / 2 ^ 14))).getD (regFmt 1) = regFmt 1 ∧ (regFmt 1).width / 8 = 2 ∧ (regFmt 1).regCount % (regFmt 1).group = 0 ∧ (regFmt 1).bytes (regFmt 1).regCount = 32 ∧
    OwnBytes (atScratch.opened (.ctx 0 0) (some 12)) 0 0 (scratchVa 0x100) 32 0x100 rdR true ∧ OwnBytes (atScratch.opened (.ctx 0 0) (some 13)) 0 0 (scratchVa 0x100) 32 0x100 wrR true ∧
    (regFmt 1).group = 1 ∧ (regFmt 1).bytes 1 = 2 ∧ OwnBytes (atScratch.opened (.ctx 0 0) (some 12)) 0 0 (scratchVa 0x100) 2 0x100 rdR true ∧ ¬ enabled (pointing 0x100) 0x3F ∧ enabled (floats 0x3F00) 0x10 :=
  ⟨(Instr.wf_iff _).1 rfl, runs_plain _ _, ⟨by decide, by decide⟩, runs_present _ _ _ ⟨rfl, rfl⟩, by decide +kernel, by decide, by decide +kernel, by decide, by decide, by decide,
   ⟨by decide, by decide +kernel, fun _ => rfl, by decide +kernel, rfl, quietBank rfl⟩, ⟨by decide, by decide +kernel, fun _ => rfl, by decide +kernel, rfl, quietBank rfl⟩, by decide, by decide,
   ⟨by decide, by decide +kernel, fun _ => rfl, by decide +kernel, rfl, quietBank rfl⟩, by unfold enabled; decide, by unfold enabled; decide⟩



/-! ## Witnesses: copy engine, event unit -/

/-- Context 0 runs with these registers, and its operation slot 0 is as given. -/
def engaged (r : Regs) (x : EngSlot) : State := holds { r := r, st := .ready, slots := [(0, x)] }
theorem engaged_between (r : Regs) (x : EngSlot) : Between (engaged r x) 0 0 :=
  ⟨⟨rfl, rfl, (by decide : (0 : Nat) < 511), (by decide : (0 : Nat) < 32), rfl, rfl, rfl, rfl, rfl, rfl, rfl, rfl, rfl⟩, rfl⟩
theorem engaged_present (r : Regs) (x : EngSlot) (rd : List Nat) (h : r.absent = 0 ∧ r.tpend = []) : Present (engaged r x) 0 0 rd := by
  intro k _
  show Regs.present r k = true
  simp [Regs.present, h.1, h.2, has]

/-- An idle, a running and a stopped slot; an element of 512 bytes, of 256; a rectangle of more than 2^48 bytes; a word that is no PEND. -/
theorem witness_EngineCommands : engineForm (.cpy 5 6 7) = some (0, 5, 6, 7, 2) ∧ (Instr.cpy 5 6 7).WF ∧ (∀ x, Between (engaged {} x) 0 0 ∧ Present (engaged {} x) 0 0 [5, 6, 7]) ∧
    (slotOf (engaged {} {}) (.ctx 0 0) 0).st = .idle ∧ roomy (engaged {} {}) 0 ∧ ((engaged {} {}).regs (.ctx 0 0)).OX 1 = 0 ∧
    (slotOf (engaged {} { st := .running }) (.ctx 0 0) 0).st = .running ∧ (slotOf (engaged {} { st := .stopped }) (.ctx 0 0) 0).st = .stopped ∧
    engineForm (.gath 5 6 7) = some (2, 5, 6, 7, 1) ∧ ¬ ((2 : Nat) < 2 ∨ bits ((holding 0 0 0x9000).S 7).toNat 15 12 ≤ 8) ∧ ((2 : Nat) < 2 ∨ bits ((holding 0 0 0x8000).S 7).toNat 15 12 ≤ 8) ∧
    engineForm (.cpy2d 5 6 7) = some (1, 5, 6, 7, 4) ∧ (let r : Regs := { ox := [(0, 0x1000000010000001)] }; ¬ ((1 : Nat) ≠ 1 ∨ bits (r.OX 0).toNat 63 32 * bits (r.OX 0).toNat 31 0 ≤ 2 ^ 48)) ∧
    (let r : Regs := { ox := [(1, 0xFF81000000000018)] }; ¬ ((r.OX 1).toNat = 0 ∨ bits (r.OX 1).toNat 63 48 = 0xFF81 ∧ bits (r.OX 1).toNat 11 0 < 0x400 ∧ bits (r.OX 1).toNat 11 0 % 32 = 16)) :=
  ⟨rfl, (Instr.wf_iff _).1 rfl, fun x => ⟨engaged_between _ _, engaged_present _ _ _ ⟨rfl, rfl⟩⟩, rfl, by unfold roomy; decide, rfl, rfl, rfl, rfl, by decide, by decide, rfl, by decide, by decide⟩

theorem witness_EngineSlots : (∀ r x, r.absent = 0 ∧ r.tpend = [] → Between (engaged r x) 0 0 ∧ Plain (engaged r x) 0 0 ∧ Present (engaged r x) 0 0 [6]) ∧
    bits ((holding 0 0x200 0).S 6).toNat 9 8 = 2 ∧ bits ((holding 0 0x300 0).S 6).toNat 9 8 = 3 ∧ bits ((holding 0 0x100 0).S 6).toNat 9 8 = 1 ∧
    (slotOf (engaged (holding 0 0x100 0) { st := .stopped }) (.ctx 0 0) 0).st = .stopped ∧ (slotOf (engaged {} {}) (.ctx 0 0) 0).st ≠ .stopped ∧ roomy (engaged {} { st := .stopped }) 0 :=
  ⟨fun r x h => ⟨engaged_between _ _, (engaged_between _ _).toPlain, engaged_present _ _ _ h⟩, by decide, by decide, by decide, rfl, by decide, by unfold roomy; decide⟩

/-- The operation of slot 0 is at the head of its acceptance, or of its next piece. -/
def accepting (x : EngSlot) : State := { engaged {} x with args := [0, 0] }
/-- A CPY of 16,385 bytes, one of none, and a GATH whose indexes stand outside the mesh window, or not at a multiple of four. -/
theorem witness_EngineAcceptance : (∀ x, (accepting x).args = [(Agent.ctx 0 0).code, 0]) ∧
    (∀ x ∈ ([{ st := .running, wa := 0x100000, wd := 0x200000, ox := [16385, 0] }, { st := .running, wa := 0x100000, wd := 0x200000, ox := [0, 0] },
             { st := .running, op := 2, ox := [0x100000] }, { st := .running, op := 3, ox := [n64 (scratchVa 2)] }] : List EngSlot),
      (slotOf (accepting x) (.ctx 0 0) 0) = x ∧ x.st = .running ∧ x.todo = [] ∧ x.laid = false ∧ x.mute = false ∧ bits x.wa.toNat 63 48 ≠ 0xFF80 ∧ bits x.wd.toNat 63 48 ≠ 0xFF80 ∧ x.skip = 0) ∧
    bits (0x100000 : W64).toNat 63 48 ≠ 0xFF80 ∧ (n64 (scratchVa 2)).toNat % 4 ≠ 0 := ⟨fun _ => rfl, by decide, by decide, by decide⟩

/-- The only piece of a CPY of 16 bytes within the scratchpad of core 0; the same from an address that its domain may not read. -/
def piece (wa : Nat) : State := accepting { st := .running, todo := [0], pieces := 1, unit := 256, laid := true, wa := n64 wa, wd := n64 (scratchVa 0x200), ox := [16, 0] }
theorem witness_EnginePieces : (∀ wa ∈ [scratchVa 0x100, 0xFF82000000000000], let x := slotOf (piece wa) (.ctx 0 0) 0
      x.st = .running ∧ x.todo = [0] ∧ x.fails = [] ∧ x.conv = none ∧ x.peer = [] ∧ x.mute = false ∧ x.op < 2 ∧ bits (x.ox.getD 1 0).toNat 63 0 = 0 ∧ x.flags = 0 ∧
      x.parts 0 = [(wa, 16, scratchVa 0x200)] ∧ (piece wa).noBad = true ∧ (piece wa).tokenHolder = none ∧ (piece wa).args = [(Agent.ctx 0 0).code, 0] ∧ (piece wa).pageHeld wa = false) ∧ (∀ wa, NoChunks (piece wa) ∧ NoBankOps (piece wa) ∧ (piece wa).flight = []) ∧
    (piece (scratchVa 0x100)).engTargets 0 0 (scratchVa 0x100) 16 { r := true, e := true } = .ok [(scratchVa 0x100, 16, .scratch 0 0x100)] ∧
    (piece (scratchVa 0x100)).engTargets 0 0 (scratchVa 0x200) 16 { w := true, e := true } = .ok [(scratchVa 0x200, 16, .scratch 0 0x200)] ∧
    ((piece 0xFF82000000000000).engTargets 0 0 0xFF82000000000000 16 { r := true, e := true } = .error (plbTrap 0x05 0xFF82000000000000 5 7 0xFF82000000000000)) ∧ (0x05 : Nat) < 256 := by
  refine ⟨by decide +kernel, fun wa => ⟨holds_noChunks _ rfl, quietBank rfl, rfl⟩, by decide +kernel, by decide +kernel, by decide +kernel, by decide⟩

/-- The event page of column 0 as listed, and a happening there: agent 0, the offset, a value. -/
def atUnit (u : EvUnit) (off v : Nat) : State := { cols := [(0, { ev := u })], args := [0, 0xFF81 * 2 ^ 48 + off, v] }
theorem witness_Barriers :
    (∀ off ∈ [0, 8, 16, 24], ∀ v ∈ [0, 5], (atUnit {} off v).args = 0 :: (0xFF81 * 2 ^ 48 + off) :: [v] ∧ evCol (0xFF81 * 2 ^ 48 + off) = 0) ∧
    evReg (bits (0xFF81 * 2 ^ 48) 11 0) = some (.arrive 0) ∧ evReg (bits (0xFF81 * 2 ^ 48 + 8) 11 0) = some (.cfg 0) ∧ evReg (bits (0xFF81 * 2 ^ 48 + 16) 11 0) = some (.pend 0) ∧
    evReg (bits (0xFF81 * 2 ^ 48 + 24) 11 0) = some (.stat 0) ∧
    (let s := atUnit { bars := [(0, { cfg := 0x8000000000000003 })] } 0 0
     let x := barrier s 0 0
     (s.regs (.ctx 0 0)).ticket = none ∧ x.arr + 1 < bits x.cfg.toNat 15 0 ∧ (waiters s 0).length < 1024 ∧ x.gen < 2 ^ 16) ∧
    (let s := atUnit { bars := [(0, { cfg := 0x8000000000000003, arr := 2 })], waits := [{ ag := 4, kind := .arrive, n := 0 }] } 0 0
     let x := barrier s 0 0
     let count := bits x.cfg.toNat 15 0
     (bit x.cfg.toNat 63 = true ∧ count ≠ 0 ∧ count = x.arr + 1 ∧ x.pend = 0 ∧ x.up = false) ∧ bit x.cfg.toNat 62 = false ∧ x.children = [] ∧
       ∃ w ∈ waiters s 0, w.kind = .arrive ∧ w.n = 0 ∧ w.ticket = x.gen) ∧
    (let s := atUnit { bars := [(0, { cfg := 0xC000000000000003, arr := 2 })] } 0 0
     let x := barrier s 0 0
     let count := bits x.cfg.toNat 15 0
     (bit x.cfg.toNat 63 = true ∧ count ≠ 0 ∧ count = x.arr + 1 ∧ x.pend = 0 ∧ x.up = false) ∧ bit x.cfg.toNat 62 = true) ∧
    bit 5 63 = false ∧ (barrier (atUnit {} 16 5) 0 0).pend + BitVec.ofNat 56 5 ≠ 0 := by decide +kernel
theorem witness_ChainMessages :
    (let s : State := { cols := [(0, { ev := { bars := [(0, { cfg := 0x8000000000000003 })] } })], args := [4], flight := [(4, { chan := 0, ev := ⟨.chainArrival, [4]⟩, words := [0, 0, 1, 2] })] }
     ∃ m, s.msg? 4 = some m ∧ m.words = [0, 0, 1, 2] ∧ (barrier s 0 0).arr + 1 < bits (barrier s 0 0).cfg.toNat 15 0) ∧
    (∀ up, let s : State := { cols := [(0, { ev := { bars := [(0, { up := up, arr := 3 })] } })], args := [4], flight := [(4, { chan := 0, ev := ⟨.chainRelease, [4]⟩, words := [0, 0] })] }
     (∃ m, s.msg? 4 = some m ∧ m.words = [0, 0]) ∧ (barrier s 0 0).up = up ∧ (barrier s 0 0).children = []) :=
  ⟨⟨_, rfl, rfl, by decide⟩, fun _ => ⟨⟨_, rfl, rfl⟩, rfl, rfl⟩⟩
/-- Mutex 0 and line 0, with and without an owner, waiters and the line set. -/
theorem witness_MutexesAndLines :
    evCol (0xFF81 * 2 ^ 48 + 0x400) = 0 ∧ evReg (bits (0xFF81 * 2 ^ 48 + 0x400) 11 0) = some (.lock 0) ∧ evReg (bits (0xFF81 * 2 ^ 48 + 0x408) 11 0) = some (.try_ 0) ∧
    evReg (bits (0xFF81 * 2 ^ 48 + 0x600) 11 0) = some (.wait 0) ∧ evReg (bits (0xFF81 * 2 ^ 48 + 0x800) 11 0) = some (.line 0) ∧ evReg (bits (0xFF81 * 2 ^ 48 + 0xA00) 11 0) = some (.take 0) ∧
    (waiters (atUnit {} 0x400 0) 0).length < 1024 ∧ ownerOf (atUnit {} 0x400 0) 0 0 = none ∧ ownerOf (atUnit { owners := [(0, 0)] } 0x400 0) 0 0 = some 0 ∧
    (ownerOf (atUnit { owners := [(0, 4)] } 0x400 0) 0 0 = some 4 ∧ (4 : Nat) ≠ 0 ∧ ((atUnit { owners := [(0, 4)] } 0x400 0).ctx (.ofCode 0)).lvl = .user) ∧
    (∀ w ∈ waiters (atUnit { owners := [(0, 0)] } 0x400 0) 0, ¬ (w.kind = .lock ∧ w.n = 0)) ∧
    (∃ w l2, ownerOf (atUnit { owners := [(0, 0)], waits := [⟨4, .lock, 0, 0⟩] } 0x400 0) 0 0 = some 0 ∧ waiters (atUnit { owners := [(0, 0)], waits := [⟨4, .lock, 0, 0⟩] } 0x400 0) 0 = [] ++ w :: l2 ∧
       w.kind = .lock ∧ w.n = 0) ∧
    lineSet (atUnit { lines := [0] } 0x600 0) 0 0 = true ∧ lineSet (atUnit {} 0x600 0) 0 0 = false ∧ bit 0 0 = false ∧ bit 1 0 = true ∧
    (∀ w ∈ waiters (atUnit { waits := [⟨4, .wait, 0, 0⟩] } 0x800 1) 0, ¬ (w.kind = .take ∧ w.n = 0)) ∧
    (∃ w l2, waiters (atUnit { waits := [⟨4, .take, 0, 0⟩] } 0x800 1) 0 = [] ++ w :: l2 ∧ w.kind = .take ∧ w.n = 0) := by
  refine ⟨by decide, by decide, by decide, by decide, by decide, by decide, by decide, by decide, by decide, by decide, by decide, ⟨_, _, by decide, rfl, rfl, rfl⟩, by decide, by decide, by decide, by decide,
    by decide, ⟨_, _, rfl, rfl, rfl⟩⟩


/-! ## Witnesses: the quad matrix unit -/

theorem error_trap {α : Type} (x : Try α) (h : (match x with | .error (.trap _) => true | _ => false) = true) : ∃ tr, x = .error (.trap tr) := by
  split at h
  · exact ⟨_, rfl⟩
  · cases h

/-- A state whose only context is one that runs no chunk. -/
theorem one_noChunks (s : State) (x : Core) (c : Ctx) (h1 : s.cores = [(0, x)]) (h2 : x.ctxs = [(0, c)]) (h3 : c.chunk.run = false) (h4 : s.iluet.chunk.run = false) (h5 : s.slices = []) : NoChunks s := by
  intro b
  cases b with
  | iluet => exact h4
  | ws k => simp [State.ctx, State.slice, h5, look]
  | ctx k n => by_cases hk : k = 0 <;> by_cases hn : n = 0 <;> simp [State.ctx, State.core, h1, h2, h3, look, hk, hn, Ne.symm]

/-- tcfg for tiles of one line of 16 FP8 elements and FP32 accumulators. -/
def smallTile : W64 := 0x144000100101
/-- Two claimed and loaded tiles, the first of role A, the second of role B. -/
def twoTiles : Tab SlotEntry := [(0, { claimed := true, loaded := true, fmt := 4, lines := 1, depth := 16 }), (1, { claimed := true, roleB := true, loaded := true, fmt := 4, lines := 1, depth := 16, phys := 1 })]
/-- Context 0 of core 0 as given; its quad as given; bank 0 of its scratchpad in a format. -/
def tiled (c : Ctx) (q : Quad) (f : Nat := 0) : State := { holds c with cores := [(0, { ctxs := [(0, c)], plb := [(0, allRights)], bfmt := [(0, f)] })], quads := [(0, q)] }
theorem tiled_between (r : Regs) (es : Tab SlotEntry) (q : Quad) (f : Nat) : Between (tiled { st := .ready, r := r, entries := es } q f) 0 0 :=
  ⟨⟨rfl, rfl, (by decide : (0 : Nat) < 511), (by decide : (0 : Nat) < 32), rfl, rfl, rfl, rfl, rfl, rfl, rfl, rfl, rfl⟩, rfl⟩
theorem tiled_present (r : Regs) (es : Tab SlotEntry) (q : Quad) (f : Nat) (rd : List Nat) (h : r.absent = 0 ∧ r.tpend = []) : Present (tiled { st := .ready, r := r, entries := es } q f) 0 0 rd := by
  intro k _
  show Regs.present r k = true
  simp [Regs.present, h.1, h.2, has]

/-- A port with room, and a full one. -/
theorem witness_MatrixIssue : matrixForm (.mma 6 7 0) = some ([6, 7], 0, 0, 0, 6, 7) ∧ (Instr.mma 6 7 0).WF ∧ matrixForm (.tcfgr 5) = some ([], 3, 0, 5, 0, 0) ∧ (Instr.tcfgr 5).WF ∧
    (∀ q, Plain (tiled { st := .ready } q) 0 0 ∧ Present (tiled { st := .ready } q) 0 0 [6, 7] ∧ ((tiled { st := .ready } q).ctx (.ctx 0 0)).serial = false ∧
      bits ((tiled { st := .ready } q).regs (.ctx 0 0)).fx.toNat 13 8 = 0) ∧
    (portOf (tiled { st := .ready } {}) 0).length < 2 ∧ 2 ≤ (portOf (tiled { st := .ready } { ports := [(0, [{ ag := 0, op := 2 }, { ag := 0, op := 2 }])] }) 0).length :=
  ⟨rfl, (Instr.wf_iff _).1 rfl, rfl, (Instr.wf_iff _).1 rfl, fun q => ⟨(tiled_between _ _ _ _).toPlain, tiled_present _ _ _ _ _ ⟨rfl, rfl⟩, rfl, (by decide : bits (({} : Regs).fx).toNat 13 8 = 0)⟩, by decide, by decide⟩

/-- The command at the head of port 0. -/
def taking (m : MCmd) (c : Ctx) : State := { tiled c { ports := [(0, [m])] } with args := [0] }
/-- The product of the two tiles, by MMA. -/
def product : MCmd := { ag := 0, op := 0, fa := 6, fb := 7, wa := 0x10000, wb := 0x10001 }
theorem witness_MatrixTakes :
    (∀ m ∈ [({ ag := 0, op := 2, n := 1 } : MCmd), product], ∀ c ∈ [({ st := .ready, mcmds := 1, r := { tcfg := smallTile }, entries := twoTiles } : Ctx)],
      (taking m c).args = [quadOf 0] ∧ ((taking m c).quad (quadOf 0)).nextLane = some 0 ∧ look [] ((taking m c).quad (quadOf 0)).ports 0 = m :: [] ∧ m.ag = (Agent.ctx 0 0).code ∧ m.n < 2 ∧ m.tchk = 0) ∧
    (let s := taking product { st := .ready, mcmds := 1, r := { tcfg := smallTile }, entries := twoTiles }
     let v := (s.regs (.ctx 0 0)).tcfg
     s.handle 0 0 product.wa.toNat .read product.fa = .ok (.ctx 0 0, 0) ∧ s.handle 0 0 product.wb.toNat .read product.fb = .ok (.ctx 0 0, 1) ∧
       (entryOf s (.ctx 0 0) 0).roleB = false ∧ (entryOf s (.ctx 0 0) 1).roleB = true ∧ (entryOf s (.ctx 0 0) 0).loaded = true ∧ (entryOf s (.ctx 0 0) 1).loaded = true ∧
       bits v.toNat 4 0 ≤ 16 ∧ bits v.toNat 12 8 ≤ 16 ∧ (entryOf s (.ctx 0 0) 0).fmt = bits v.toNat 39 36 ∧ (entryOf s (.ctx 0 0) 0).lines = bits v.toNat 4 0 ∧
       (entryOf s (.ctx 0 0) 0).depth = bits v.toNat 24 16 ∧ (entryOf s (.ctx 0 0) 1).fmt = bits v.toNat 43 40 ∧ (entryOf s (.ctx 0 0) 1).lines = bits v.toNat 12 8 ∧
       (entryOf s (.ctx 0 0) 1).depth = bits v.toNat 24 16 ∧ 1 ≤ bits v.toNat 4 0 ∧ 1 ≤ bits v.toNat 12 8 ∧ 1 ≤ bits v.toNat 24 16 ∧ (s.regs (.ctx 0 0)).accBad.getLsbD 0 = false) ∧
    (let s := taking product { st := .ready, mcmds := 1, chunk := { run := true } }
     (∃ tr, (takenFrom s (quadOf 0) 0 product []).accept 0 0 product (((s.quad (quadOf 0)).mc + 1) % 2 ^ 64) = .error (.trap tr)) ∧ (s.ctx (.ctx 0 0)).chunk.run = true ∧ (s.ctx (.ctx 0 0)).chunk.undo = [] ∧ (s.ctx (.ctx 0 0)).chunk.special = []) := by
  exact ⟨by decide +kernel, by decide +kernel, error_trap _ (by decide +kernel), rfl, rfl, rfl⟩

theorem witness_MatrixRetires :
    let s : State := { tiled { st := .ready, mcmds := 1, r := { tpend := [(5, 9)] } } {} with args := [4], flight := [(4, { chan := 0, ev := ⟨.matrixRetire, [4]⟩, src := 0, words := [3, 0, 5, 9, 77] })] }
    ∃ m, s.args = [4] ∧ s.msg? 4 = some m ∧ m.src = (Agent.ctx 0 0).code ∧ m.words = [3, 0, 5, 9, 77] ∧ has (s.regs (.ctx 0 0)).tpend 5 = true ∧ look 0 (s.regs (.ctx 0 0)).tpend 5 = 9 :=
  ⟨_, rfl, rfl, rfl, rfl, rfl, rfl⟩

/-- All eight entries claimed. -/
def allClaimed : Tab SlotEntry := (List.range 8).map (fun e => (e, { claimed := true, phys := e }))
/-- An operand of TCFG that is not valid, one that is, and the same forced; free entries and none; a handle that its owner holds, and 0. -/
theorem witness_MatrixConfiguration : (∀ r es q, r.absent = 0 ∧ r.tpend = [] → Between (tiled { st := .ready, r := r, entries := es } q) 0 0 ∧ Present (tiled { st := .ready, r := r, entries := es } q) 0 0 [6]) ∧
    MatrixIdle (tiled { st := .ready } {}) 0 0 ∧ ¬ goodTcfg ((holding 0 1 0).S 6) ∧ goodTcfg ((holding 0 smallTile 0).S 6) ∧ ((holding 0 smallTile 0).S 6).getLsbD 63 = false ∧
    goodTcfg ((holding 0 (smallTile ||| 0x8000000000000000) 0).S 6) ∧ ((holding 0 (smallTile ||| 0x8000000000000000) 0).S 6).getLsbD 63 = true ∧
    (∃ e, e < 8 ∧ (entryOf (tiled { entries := twoTiles } {}) (.ctx 0 0) e).claimed = true) ∧ (∀ e, e < 8 → (entryOf (tiled {} {}) (.ctx 0 0) e).claimed = false) ∧
    (let s := tiled { entries := twoTiles } { used := [0, 1] }
     (entryOf s (.ctx 0 0) 2).claimed = false ∧ (∀ j, j < 2 → (entryOf s (.ctx 0 0) j).claimed = true) ∧ 2 ∉ (s.quad (quadOf 0)).used ∧ (entryOf s (.ctx 0 0) 2).gen < 2 ^ 16) ∧
    (∀ e, e < 8 → (entryOf (tiled { entries := allClaimed } {}) (.ctx 0 0) e).claimed = true) ∧
    (let s := tiled { entries := twoTiles } { used := [0, 1] }
     s.handle 0 0 0x10001 .own 6 = .ok (.ctx 0 0, 1) ∧ (entryOf s (.ctx 0 0) 1).gen < 2 ^ 16 ∧ ∃ tr, s.handle 0 0 0 .own 6 = .error tr) :=
  ⟨fun r es q h => ⟨tiled_between _ _ _ _, tiled_present _ _ _ _ _ h⟩, ⟨rfl, fun _ => rfl, rfl, rfl⟩, by unfold goodTcfg; decide +kernel, by unfold goodTcfg; decide +kernel, by decide, by unfold goodTcfg; decide +kernel, by decide,
   ⟨0, by decide, by decide⟩, by decide, by decide, by decide, by decide +kernel, by decide, ⟨_, rfl⟩⟩

/-- The handle of entry 0 in s6, a scratchpad address in s7. -/
def moving : Ctx := { st := .ready, r := { holding 0 0x10000 (n64 (scratchVa 0x100)) with tcfg := smallTile }, entries := twoTiles }
theorem witness_TileMoves : let s := tiled moving { used := [0, 1] } 4
    Between s 0 0 ∧ Present s 0 0 [6, 7] ∧ MatrixIdle s 0 0 ∧ NoChunks s ∧ s.tokenHolder = none ∧ s.handle 0 0 ((s.regs (.ctx 0 0)).S 6).toNat .own 6 = .ok (.ctx 0 0, 0) ∧ goodTcfg (s.regs (.ctx 0 0)).tcfg ∧
      1 ≤ bits (s.regs (.ctx 0 0)).tcfg.toNat 4 0 ∧ ((s.regs (.ctx 0 0)).S 7).toNat % 16 = 0 ∧ bits ((s.regs (.ctx 0 0)).OX 1).toNat 31 0 % 16 = 0 ∧ (entryOf s (.ctx 0 0) 0).phys < 24 ∧
      lineBytes 4 16 = 16 ∧ (∀ i, i < bits (s.regs (.ctx 0 0)).tcfg.toNat 4 0 → (0x100 + 0 * i) / 2 ^ 14 = (0x100 + 0 * i + 16 - 1) / 2 ^ 14 ∧ look 0 (s.core 0).bfmt ((0x100 + 0 * i) / 2 ^ 14) = 4) ∧
      OwnBytes (s.entered (.ctx 0 0) (some 14)) 0 0 (scratchVa 0x100) 16 0x100 rdR true ∧ OwnBytes (s.entered (.ctx 0 0) (some 14)) 0 0 (scratchVa 0x100) 16 0x100 wrR true ∧
      ((s.regs (.ctx 0 0)).S 7).toNat = scratchVa 0x100 ∧ (entryOf s (.ctx 0 0) 0).loaded = true ∧ (entryOf s (.ctx 0 0) 0).fmt = 4 ∧ (entryOf s (.ctx 0 0) 0).lines = 1 ∧ (entryOf s (.ctx 0 0) 0).depth = 16 :=
  ⟨tiled_between _ _ _ _, tiled_present _ _ _ _ _ ⟨rfl, rfl⟩, ⟨rfl, fun _ => rfl, rfl, rfl⟩, one_noChunks _ _ _ rfl rfl rfl rfl rfl, rfl, by decide +kernel, by unfold goodTcfg; decide +kernel, by decide, by decide +kernel, by decide, by decide,
   by decide, by decide +kernel, ⟨by decide, by decide +kernel, fun _ => rfl, by decide +kernel, rfl, quietBank rfl⟩, ⟨by decide, by decide +kernel, fun _ => rfl, by decide +kernel, rfl, quietBank rfl⟩, by decide +kernel, rfl, rfl, rfl, rfl⟩

/-- The address in s6 and tcfg, over a bank of FP32 that ACCLD and ACCST reach. -/
def accumulating (t : W64) : State := tiled { st := .ready, r := { pointing 0x100 with tcfg := t } } {} 1
theorem witness_AccumulatorMoves :
    (Between (accumulating smallTile) 0 0 ∧ Present (accumulating smallTile) 0 0 [6] ∧ MatrixIdle (accumulating smallTile) 0 0 ∧ NoChunks (accumulating smallTile) ∧ (accumulating smallTile).tokenHolder = none) ∧
    (((accumulating smallTile).regs (.ctx 0 0)).S 6 = n64 (scratchVa 0x100) ∧ scratchVa 0x100 % 16 = 0 ∧ bits (scratchVa 0x100) 16 0 = 0x100 ∧ addrCheck (.ctx 0 0) (scratchVa 0x100) 1 false = .ok (some 0) ∧
      look 0 ((accumulating smallTile).core 0).bfmt (0x100 / 2 ^ 14) = 1) ∧
    (((bankFmt 1).getD (.flt fp32)).bytes 256 = 1024 ∧ 0x100 / 2 ^ 14 = (0x100 + 1024 - 1) / 2 ^ 14) ∧
    OwnBytes ((accumulating smallTile).entered (.ctx 0 0) (some 14)) 0 0 (scratchVa 0x100) 1024 0x100 wrR true ∧ OwnBytes ((accumulating smallTile).entered (.ctx 0 0) (some 14)) 0 0 (scratchVa 0x100) 1024 0x100 rdR true ∧
    bits ((accumulating smallTile).regs (.ctx 0 0)).tcfg.toNat 47 44 = 1 ∧ ((accumulating smallTile).regs (.ctx 0 0)).accBad.getLsbD 0 = false ∧
    ¬ enabled ((accumulating smallTile).regs (.ctx 0 0)) 0 ∧ enabled (floats 0x3F00) 0x10 ∧ bits ((accumulating 0).regs (.ctx 0 0)).tcfg.toNat 47 44 = 0 :=
  ⟨⟨tiled_between _ _ _ _, tiled_present _ _ _ _ _ ⟨rfl, rfl⟩, ⟨rfl, fun _ => rfl, rfl, rfl⟩, one_noChunks _ _ _ rfl rfl rfl rfl rfl, rfl⟩, ⟨by decide, by decide, by decide, by decide +kernel, by decide⟩, ⟨by decide +kernel, by decide⟩,
   ⟨by decide, by decide +kernel, fun _ => rfl, by decide +kernel, rfl, quietBank rfl⟩, ⟨by decide, by decide +kernel, fun _ => rfl, by decide +kernel, rfl, quietBank rfl⟩, by decide, by decide, by unfold enabled; decide, by unfold enabled; decide, by decide⟩


/-! ## Witnesses: reservoir, power, time -/

/-- Context 0 of core 0 as given; its core and column as given. -/
def sprinting (c : Ctx) (x : Core := {}) (k : Column := {}) : State := { holds c with cores := [(0, { x with ctxs := [(0, c)] })], cols := [(0, k)], boot := { stage := 7 } }
theorem sprinting_uncharged (r : Regs) (h : Nat) (m : Nat) (x : Core) (k : Column) : Uncharged (sprinting { r := r, st := .ready, rsvHeld := h, mcmds := m } x k) 0 0 := ⟨rfl, rfl, rfl, rfl, rfl, rfl, rfl, rfl⟩
theorem sprinting_told (r : Regs) (v : Nat) (x : Core) (k : Column) : Told (sprinting { r := r, st := .ready, asked := some evAsk, reply := some [v] } x k) 0 0 v := ⟨rfl, rfl, rfl, rfl, rfl, rfl⟩
theorem sprinting_present (c : Ctx) (x : Core) (k : Column) (rd : List Nat) (h : c.r.absent = 0 ∧ c.r.tpend = []) : Present (sprinting c x k) 0 0 rd := by
  intro j _
  show Regs.present c.r j = true
  simp [Regs.present, h.1, h.2, has]

/-- An amount of 0 and of 100; a holder and none; a capacity of 100 and of 99; a fill that leaves room and one that does not; an answer. -/
theorem witness_Reservations : (∀ r h x k, r.absent = 0 ∧ r.tpend = [] → Uncharged (sprinting { r := r, st := .ready, rsvHeld := h } x k) 0 0 ∧ Present (sprinting { r := r, st := .ready, rsvHeld := h } x k) 0 0 [6]) ∧
    ((holding 0 0 0).S 6).toNat = 0 ∧ 2 ^ 32 ≤ ((holding 0 0x100000000 0).S 6).toNat ∧ ((holding 0 100 0).S 6).toNat = 100 ∧ ((sprinting {} { holder := some 0 }).core 0).holder = some 0 ∧
    (((sprinting {} { holder := some 1 }).core 0).holder = some 1 ∧ (1 : Nat) ≠ 0) ∧ (((sprinting {}).core 0).holder = none ∧ ((sprinting {} {} { cap := 99 }).col (colOf 0)).cap < 100) ∧
    (let s := sprinting {} {} { cap := 100 }
     ((s.col 0).fill + outAmount s 0 + pendingAmount s 0 + 100 ≤ (s.col 0).cap ∧ ∀ r ∈ (s.col 0).pending, r.blk = false)) ∧
    (let s := sprinting {} {} { cap := 100, fill := 1 }
     100 ≤ (s.col 0).cap ∧ ¬ ((s.col 0).fill + outAmount s 0 + pendingAmount s 0 + 100 ≤ (s.col 0).cap ∧ ∀ r ∈ (s.col 0).pending, r.blk = false)) ∧
    Told (sprinting { st := .ready, asked := some evAsk, reply := some [5] }) 0 0 5 :=
  ⟨fun r h x k hr => ⟨sprinting_uncharged _ _ _ _ _, sprinting_present _ _ _ _ hr⟩, by decide, by decide, by decide, rfl, ⟨rfl, by decide⟩, ⟨rfl, by decide⟩, by decide, by decide, sprinting_told _ _ _ _⟩
theorem witness_ReservoirReads : (∀ r h m x k, r.absent = 0 ∧ r.tpend = [] → Uncharged (sprinting { r := r, st := .ready, rsvHeld := h, mcmds := m } x k) 0 0 ∧ Present (sprinting { r := r, st := .ready, rsvHeld := h, mcmds := m } x k) 0 0 [6]) ∧
    ((sprinting {}).core 0).holder ≠ some 0 ∧ (((sprinting {} { holder := some 0 }).core 0).holder = some 0 ∧ ((sprinting {} { holder := some 0 }).core 0).running 0 = 0) ∧
    (let x := bits ((holding 0 100 0).S 6).toNat 31 0
     ((sprinting {} {} { fill := 100 }).col 0).fill ≤ x ∧ x < ((sprinting {} {} { fill := 101 }).col 0).fill ∧ ((sprinting {} {} { cap := 99 }).col 0).cap < x ∧
     (let s := sprinting {} {} { cap := 100 }
      x ≤ (s.col 0).cap ∧ (s.col 0).fill + outAmount s 0 + x ≤ (s.col 0).cap) ∧
     (let s := sprinting {} {} { cap := 100, fill := 1 }
      x ≤ (s.col 0).cap ∧ (s.col 0).cap < (s.col 0).fill + outAmount s 0 + x)) ∧
    ((sprinting {}).ctx (.ctx 0 0)).mcmds = 0 ∧ (sprinting {}).darkCols.contains 0 = false ∧ 0 < ((sprinting { mcmds := 1 }).ctx (.ctx 0 0)).mcmds :=
  ⟨fun r h m x k hr => ⟨sprinting_uncharged _ _ _ _ _, sprinting_present _ _ _ _ hr⟩, by decide, ⟨rfl, by decide⟩, by decide, rfl, rfl, by decide⟩

theorem sprinting_tick (c : Ctx) (x : Core) (k : Column) : PlainTick (sprinting c x k) 0 :=
  ⟨rfl, rfl, rfl, List.nodup_singleton 0, rfl, fun j hj => by simp [Still, State.col, sprinting, look, Ne.symm hj]⟩
/-- A pending request of 100 in each of its cases, an admitted reservation, an RWAIT. -/
theorem witness_Ticks : (∀ c x k, PlainTick (sprinting c x k) 0) ∧ Still (sprinting {}) 0 ∧
    (let k (f : Nat) : Column := { capfw := 100, fill := f, pending := [{ core := 0, ctx := 0, q := 100, rank := 0, seq := 0 }] }
     (k 0).admitted = [] ∧ (k 0).waits = [] ∧ colOf 0 = 0 ∧ tickCap (sprinting {} {} { k 0 with capfw := 99 }) 0 < 100 ∧ 100 ≤ tickCap (sprinting {} {} (k 0)) 0 ∧ ((sprinting {} { holder := some 1 } (k 0)).core 0).holder ≠ none ∧
       ((sprinting {} {} (k 0)).core 0).holder = none ∧ tickFill (sprinting {} {} (k 0)) 0 + 100 ≤ tickCap (sprinting {} {} (k 0)) 0 ∧ tickCap (sprinting {} {} (k 1)) 0 < tickFill (sprinting {} {} (k 1)) 0 + 100) ∧
    (let k (f : Nat) : Column := { capfw := 100, fill := f, admitted := [⟨0, 0, 0⟩] }
     (k 0).pending = [] ∧ ((sprinting { st := .ready, rsvHeld := 100 } { holder := some 0 } (k 1)).core 0).holder = some 0 ∧ tickCap (sprinting { st := .ready, rsvHeld := 100 } { holder := some 0 } (k 1)) 0 < tickFill (sprinting {} {} (k 1)) 0 + (100 - 0) ∧
       ((sprinting { st := .ready, rsvHeld := 100 } { holder := some 0 } (k 1)).ctx (.ctx 0 0)).live = true ∧ tickFill (sprinting {} {} (k 0)) 0 + (100 - 0) ≤ tickCap (sprinting {} {} (k 0)) 0) ∧
    (let k (f : Nat) : Column := { fill := f, waits := [⟨0, 0, false, 50⟩] }
     tickFill (sprinting {} {} (k 50)) 0 ≤ 50 ∧ 50 < tickFill (sprinting {} {} (k 51)) 0) :=
  ⟨sprinting_tick, ⟨rfl, rfl, rfl⟩, by decide +kernel, by decide +kernel, by decide⟩
theorem witness_SprintCuts : let s : State := { sprinting { st := .stalled, rsvHeld := 100, rsvSpent := 90 } { holder := some 0, cut := some (0, 3, true) } with args := [0] }
    s.args = [(Agent.ctx 0 0).code] ∧ (s.core 0).cut = some (0, 3, true) ∧ (s.regs (.ctx 0 0)).tpend = [] ∧ s.queued (.ctx 0 0) = false ∧ (s.core 0).holder = some 0 ∧ (s.ctx (.ctx 0 0)).st = .stalled ∧ (s.core 0).running 0 = 0 ∧ (s.ctx (.ctx 0 0)).rsvSpent < 2 ^ 32 ∧ (let u : State := { s with cores := [(0, { (s.core 0) with cut := some (0, 3, false) })] }
     (u.core 0).cut = some (0, 3, false) ∧ (u.core 0).inflight = 0) := by decide

/-- The nominal supplies and the floor; a core at a point of its own and one at its column's; the fast throttle on and off. -/
theorem witness_NominalPoints : (let s : State := { cores := [(0, { own := some (460, 3200) })] }
      s.power.act = false ∧ (s.core 0).own = some (460, 3200) ∧ (s.core 1).own = none ∧ s.baseSupply 0 = 350 ∧ bits (s.col 0).vfReq.toNat 24 16 = 460) ∧
    ({ cols := [(0, { vfReq := n64 (300 + 460 * 2 ^ 16) })] } : State).baseSupply 0 = 300 ∧ ({ power := { act := true } } : State).power.act = true := by decide +kernel
/-- A change of a core's point in each phase, its supply rising or falling, with the FIFO of its column draining and not; a change of a column's base in each phase. -/
theorem witness_PointChanges :
    (let s (ph : Nat) (aim now : Point) : State := { cores := [(0, { holder := some 0, own := some now, move := some { aim := aim, phase := ph } })] }
     (∀ ph ∈ [0, 1, 2, 3], (s ph (460, 3200) (350, 2500)).moveOf 0 0 = some ((350, 2500), { aim := (460, 3200), phase := ph }) ∧ ¬ OtherDrains (s ph (460, 3200) (350, 2500)) 0 0) ∧
     (s 2 (350, 2500) (460, 3200)).moveOf 0 0 = some ((460, 3200), { aim := (350, 2500), phase := 2 }) ∧ OtherDrains { s 1 (460, 3200) (350, 2500) with power := { drain := some true } } 0 0) ∧
    (let s (ph : Nat) (aim : Point) : State := { cols := [(0, { move := some { aim := aim, phase := ph } })] }
     ∀ ph, (s ph (300, 1800)).moveOf 1 0 = some (({} : Column).base, { aim := (300, 1800), phase := ph }) ∧ ¬ OtherDrains (s ph (300, 1800)) 1 0 ∧
       aimOf (s ph (({} : State).baseAim 0)) 1 0 = ({} : State).baseAim 0) := by
  refine ⟨⟨fun ph hp => ?_, rfl, Or.inl rfl⟩, fun ph => ⟨rfl, ?_, rfl⟩⟩
  · simp only [List.mem_cons, List.not_mem_nil, or_false] at hp
    obtain rfl | rfl | rfl | rfl := hp <;> exact ⟨rfl, by rintro (h | ⟨-, h⟩) <;> simp [State.col, look, drains] at h⟩
  · rintro (h | ⟨h, -⟩) <;> simp at h
/-- A division that is asked for and one that is there already, with a FIFO that drains and none; the throttle held and released; a firmware throttle level with a live context of a column, its THROTTLE enabled and not; an operating
point within the limits, of a base that then differs, and one outside. -/
theorem witness_OperatingPoints :
    (∀ w, w < 2 → ∃ s : State, s.args = [2, w, 0] ∧ s.power.act = decide (w = 1)) ∧
    (∀ w, w < 2 → ∃ s : State, s.args = [2, w, 0] ∧ s.power.act ≠ decide (w = 1) ∧ ¬ OtherDrains s 2 0) ∧
    (∀ w, w < 2 → ∃ s : State, s.args = [2, w, 0] ∧ s.power.act ≠ decide (w = 1) ∧ OtherDrains s 2 0) ∧
    (let s : State := { args := [2, 1, 1], power := { pin := true, drain := some true } }
     s.args = [2, 1, 1] ∧ s.power.pin = true) ∧
    (let s : State := { args := [2, 0, 1], time := 500, power := { act := true, drain := some false } }
     s.args = [2, 0, 1] ∧ s.power.pin = false ∧ s.power.sense = false ∧ s.time < s.power.clearAt + 1000 * max 1 s.power.hold) ∧
    (let s : State := { holds { st := .ready, r := routing } with args := [0, 0, 0x300] }
     s.args = [0, 0, 0x300] ∧ (0, s.core 0) ∈ s.cores ∧ (s.cores.map (·.1)).Nodup ∧ colOf 0 = 0 ∧ max (bits 0x300 11 8) (s.col 0).thrArb ≠ (s.col 0).level ∧ (s.ctx (.ctx 0 0)).live = true ∧
       bit (({ uie := 0x400000000 } : Regs).uie).toNat 34 = true ∧ bit (({} : Regs).uie).toNat 34 = false) ∧
    (let base := bits (330 + 400 * 2 ^ 16) 8 0
     let sprint := bits (330 + 400 * 2 ^ 16) 24 16
     300 ≤ base ∧ base ≤ 350 ∧ base % 5 = 0 ∧ base + 5 ≤ sprint ∧ sprint ≤ 480 ∧ sprint % 5 = 0) ∧ ¬ (300 ≤ bits 299 8 0) ∧
    (let t : State := { cols := [(0, { vfReq := n64 (330 + 400 * 2 ^ 16) })] }
     (t.col 0).base.1 ≠ t.baseSupply 0) := by
  have noDrain (a : List Nat) (b : Bool) : ¬ OtherDrains ({ args := a, power := { act := b } } : State) 2 0 := by
    rintro (h | ⟨_, h, _⟩ | ⟨_, h, _⟩) <;> simp at h
  refine ⟨fun w _ => ⟨{ args := [2, w, 0], power := { act := decide (w = 1) } }, rfl, rfl⟩, fun w _ => ⟨{ args := [2, w, 0], power := { act := !decide (w = 1) } }, rfl, ?_, noDrain _ _⟩,
    fun w _ => ⟨{ args := [2, w, 0], power := { act := !decide (w = 1), drain := some true } }, rfl, ?_, Or.inl rfl⟩, by decide, by decide,
    ⟨rfl, List.mem_singleton.2 rfl, List.nodup_singleton 0, by decide, by decide, by decide, by decide, by decide⟩, by decide, by decide, by decide⟩
  · cases h : decide (w = 1) <;> simp
  · cases h : decide (w = 1) <;> simp
/-- Power above, below and between the limits, with the scale and the levels at their ends. -/
theorem witness_PowerSamples :
    (∀ p ∈ [({ power := 1000, high := 900, scale := 16, step := 16 } : Power)], p.high < p.power ∧ 0 < p.scale ∧ p.scale ≤ p.step ∧ ({ iluet := { st := .ready } } : State).iluet.live = true) ∧
    (let p : Power := { power := 1000, high := 900, scale := 0 }
     p.high < p.power ∧ p.scale = 0) ∧
    (let s : State := { power := { power := 100, high := 900, low := 200 }, cols := [(0, { thrArb := 1 })] }
     s.power.power ≤ s.power.high ∧ s.power.power < s.power.low ∧ (s.cols.map (·.1)).Nodup ∧ 0 < (s.col 0).thrArb) ∧
    (let s : State := { power := { power := 100, high := 900, low := 200, scale := 100 }, cols := [(0, {})] }
     (∀ e ∈ s.cols, e.2.thrArb = 0) ∧ s.power.scale < 256) ∧
    (let p : Power := { power := 500, high := 900, low := 200 }
     p.low ≤ p.power ∧ p.power ≤ p.high) := by decide
theorem witness_FastThrottle : (99 : Nat) < 100 ∧ (100 : Nat) ≤ 100 ∧ ({} : State).power.act = false ∧ ({ iluet := { st := .ready } } : State).iluet.live = true ∧
    (let p : Power := { pin := true, pinEnd := 5, hold := 1 }
     p.pin = true ∧ p.sense = false ∧ p.pinEnd ≤ 5 ∧ 1 ≤ p.hold) ∧
    (let s : State := { time := 1005, power := { act := true, clearAt := 5, hold := 1 } }
     s.power.pin = false ∧ s.power.sense = false ∧ s.power.act = true ∧ 1 ≤ s.power.hold ∧ s.power.clearAt + 1000 * s.power.hold ≤ s.time) := by decide
theorem witness_TimeSteps : (let s : State := { args := [0, 5] }
      s.args = [0, 5] ∧ s.tm.ctl.getLsbD 0 = false) ∧ (let s : State := { args := [0, 5], tm := { ctl := 1 } }
      s.args = [0, 5] ∧ s.tm.ctl.getLsbD 0 = true) := by decide
/-- Port 2 and domain 7, in each role, with what each message answers; another domain and another port. -/
theorem witness_TimingMessages :
    (let c (role : Nat) : W64 := n64 (2 ^ 34 + 7 * 2 ^ 8 + role * 2)
     let port : TmPort := { sync := some (5, 100), last := some (90, 100), asked := some (5, 110), peerAsked := some (5, 120), peerResp := some (5, 130, 140) }
     let s (role type : Nat) : State := { args := [0, 2, 7, type, 5, 80], tm := { ctl := c role, ports := [(2, port)], good := 15 } }
     (∀ type, (s 1 type).args = [0, 2, 7, type, 5, 80]) ∧ bit (c 1).toNat (32 + 2) = true ∧ bit (c 1).toNat (32 + 3) = false ∧ bits (c 1).toNat 15 8 = 7 ∧ bits (c 1).toNat 2 1 = 1 ∧ bits (c 2).toNat 2 1 = 2 ∧
       bits (c 0).toNat 2 1 = 0 ∧ timePort (s 1 8) 2 = port ∧ 15 ≤ (s 1 8).tm.good ∧ (∀ q, q < 18 → (bit (c 2).toNat (32 + q) = true ↔ q = 2)) ∧ (∀ q, q < 18 → (bit (c 1).toNat (32 + q) = true ↔ q = 2)) ∧
       (∀ q, q < 18 → (bit (c 0).toNat (32 + q) = true ↔ q = 2))) ∧
    (let ofs (x : Nat) : Int := (x : Int) - 90 - 0
     (ofs 100).natAbs ≤ 10 ∧ 100 < (ofs 191).natAbs ∧ (10 < (ofs 190).natAbs ∧ (ofs 190).natAbs ≤ 100)) :=
  ⟨⟨fun _ => rfl, by decide +kernel, by decide +kernel, by decide +kernel, by decide +kernel, by decide +kernel, by decide +kernel, rfl, by decide, by decide +kernel, by decide +kernel, by decide +kernel⟩, by decide⟩
/-- Slack control on, with the band from -100 to 100: no figure; slack of -101 at its third window, with room and without; of 101 at its fifth; of 100. -/
theorem witness_SlackControl :
    let p : Power := { csCtl := 1, csBand := n64 (100 * 2 ^ 32 + (2 ^ 32 - 100)), waited := 500 }
    let s : State := { power := p }
    let low := toSigned 32 (bits p.csBand.toNat 31 0)
    let high := toSigned 32 (bits p.csBand.toNat 63 32)
    p.csCtl.getLsbD 0 = true ∧ low < high ∧ s.slackWaiter = false ∧ s.power.fresh = false ∧ ((399 : Int) - 500 < low) ∧ (high < (601 : Int) - 500) ∧ (low ≤ (600 : Int) - 500 ∧ (600 : Int) - 500 ≤ high) ∧
      (∀ f ∈ [399, 601, 600], ({ p with fresh := true, figures := [(3, f)], nl := 2, nh := 4, k := 1 } : Power).figures = [(3, f)]) ∧ p.raisedAt = none ∧
      (∀ c, c < 512 → 300 + 25 * (0 + 1) ≤ bits (s.col c).vfReq.toNat 8 0) ∧ ¬ (300 + 25 * (2 + 1) ≤ bits (s.col 0).vfReq.toNat 8 0) := by
  refine ⟨by decide, by decide, by decide, rfl, by decide, by decide, by decide, by decide, rfl, fun c _ => ?_, by decide⟩
  exact (by decide : 300 + 25 * (0 + 1) ≤ bits (({} : Column).vfReq).toNat 8 0)


/-! ## Witnesses: the equivalence engine -/

def memTarget (t : Except Trap Target) (key : Nat) : Bool :=
  match t with
  | .ok (.mem _ _ k) => k = key
  | _ => false
theorem memTarget_ok {t : Except Trap Target} {key : Nat} (h : memTarget t key = true) : ∃ slice tag, t = .ok (.mem slice tag key) := by
  unfold memTarget at h
  split at h
  · simp at h; subst h; exact ⟨_, _, rfl⟩
  · simp at h
def entryAt (s : State) (f : Forest) (i va n key v : Nat) : Bool := memTarget (s.eqAt f i va n) key && s.value key n = v && !s.bad (key / 64) && !s.pageHeld va
theorem entry_of {s : State} {f : Forest} {i va n key v : Nat} (h : entryAt s f i va n key v = true) : Entry s f i va n key v := by
  simp only [entryAt, Bool.and_eq_true, decide_eq_true_eq, Bool.not_eq_true'] at h
  exact ⟨memTarget_ok h.1.1.1, h.1.1.2, h.1.2, h.2⟩
theorem writable_of {s : State} {f : Forest} {i va n key : Nat} (h : memTarget (s.eqAt f i va n) key = true) (hh : s.pageHeld va = false) : Writable s f i va n := by
  obtain ⟨a, b, hab⟩ := memTarget_ok h
  exact ⟨hh, a, b, key, hab⟩
/-- The writes of an engine with identity addresses, each checked where the last left the state. -/
def storedAt (ag : Agent) (f : Forest) : State → List (Nat × Nat × Nat × Nat) → Bool
  | _, [] => true
  | s, (i, va, n, v) :: l =>
    match s.eqAt f i va n with
    | .ok (.mem slice tag key) => key = va && !s.pageHeld va && storedAt ag f (s.devWrite (some ag) (.mem slice tag key) va (leBytes n v)) l
    | _ => false
theorem stored_of {ag : Agent} {f : Forest} : ∀ {s : State} {l : List (Nat × Nat × Nat × Nat)}, storedAt ag f s l = true → Stored ag f s l (l.map (·.2))
  | _, [], _ => rfl
  | s, (i, va, n, v) :: l, h => by
    unfold storedAt at h
    split at h
    · rename_i slice tag key hk
      simp only [Bool.and_eq_true, decide_eq_true_eq, Bool.not_eq_true'] at h
      obtain ⟨⟨hv, hh⟩, h⟩ := h
      subst hv
      exact ⟨slice, tag, _, l.map (·.2), rfl, hk, hh, stored_of h⟩
    · simp at h

/-- A forest of four elements: parents at 0x100000, sizes at 0x200000, log at 0x400000. -/
def small : Forest := { pbase := 0x100000, sbase := 0x200000, lbase := 0x400000, lsize := 4, n := 4, count := 2 }
/-- Bytes of 32-bit words. -/
def words32 (l : List Nat) : List Byte := l.flatMap (leBytes 4)
/-- Context 0 runs with registers `r`; its partition has `f` open under handle 0; the parents, the sizes and the log are as listed, and a descriptor stands at 0x100 of the scratchpad. -/
def forested (r : Regs) (f : Forest) (ps : List Nat) (log : List Nat := []) (desc : List Byte := []) : State :=
  { owned (runs r) with forests := [(0, f)],
                        mem := ((((({ mem := tableCells } : State).writeBytes 0x100000 (words32 ps)).writeBytes 0x200000 (words32 [3, 1, 1, 1])).writeBytes 0x400000 (log.flatMap (leBytes 8))).writeBytes
                          (scratchKey 0 0x100) desc).mem }
theorem forested_open (r : Regs) (f : Forest) (hf : f.n = 4) (ps log : List Nat) (desc : List Byte) : OpenForest (forested r f ps log desc) 0 0 0 0 f :=
  ⟨⟨⟨rfl, rfl, (by decide : (0 : Nat) < 511), (by decide : (0 : Nat) < 32), rfl, rfl, rfl, rfl, rfl, rfl, rfl, rfl, rfl⟩, rfl⟩, by rfl, rfl, by decide, by rw [hf]; decide, runs_noChunks _ _, rfl, quietBank rfl⟩
theorem forested_present (r : Regs) (f : Forest) (ps log : List Nat) (desc : List Byte) (rd : List Nat) (h : r.absent = 0 ∧ r.tpend = []) : Present (forested r f ps log desc) 0 0 rd := by
  intro k _
  show Regs.present r k = true
  simp [Regs.present, h.1, h.2, has]

theorem witness_ForestTraps : handleForm (.eqcount 5 6) = some 6 ∧ (Instr.eqcount 5 6).WF ∧ elementForm (.eqfind 5 6) = some 6 ∧ (Instr.eqfind 5 6).WF ∧
    (∀ r, r.absent = 0 ∧ r.tpend = [] → Between (forested r small []) 0 0 ∧ Present (forested r small []) 0 0 [6]) ∧ 16 ≤ ((holding 0 16 0).S 6).toNat ∧ ((holding 0 15 0).S 6).toNat < 16 ∧
    (∃ p, (forested {} small []).partOf (.ctx 0 0) = some p ∧ (forested {} small []).forest? p 15 = none) ∧ bit ((holding 0 0x80000000 0).S 6).toNat 31 = true ∧
    (let w := ((holding 0 4 0).S 6).toNat
     w < 2 ^ 36 ∧ bit w 31 = false ∧ (forested {} small []).partOf (.ctx 0 0) = some 0 ∧ (forested {} small []).forest? 0 (bits w 35 32) = some small ∧ small.n ≤ bits w 30 0) ∧
    (let w := ((holding 0 0xF00000000 0).S 6).toNat
     w < 2 ^ 36 ∧ bit w 31 = false ∧ (forested {} small []).forest? 0 (bits w 35 32) = none) :=
  ⟨rfl, (Instr.wf_iff _).1 rfl, rfl, (Instr.wf_iff _).1 rfl, fun r h => ⟨(forested_open r small rfl [] [] []).toBetween, forested_present _ _ _ _ _ _ h⟩, by decide, by decide, ⟨0, rfl, by decide⟩, by decide,
   ⟨by decide, by decide, rfl, by decide, by decide⟩, by decide⟩

theorem shallow_of {s : State} {f : Forest} {x r kx kr : Nat} (hx : x < f.n) (hr : r < f.n) (hb : r ≤ x) (h1 : entryAt s f x (parentOf f x) 4 kx r = true) (h2 : entryAt s f r (parentOf f r) 4 kr r = true) : Shallow s f x r :=
  ⟨hx, hr, fun _ => hb, ⟨kx, entry_of h1⟩, ⟨kr, entry_of h2⟩⟩
/-- s6 as given, and the state of the forest as an instruction of class `cls` meets it. -/
def meeting (w : W64) (f : Forest) (ps : List Nat) (cls : Nat := 6) : State := (forested (holding 0 w 0) f ps).entered (.ctx 0 0) (some cls)
/-- An element whose parent is the root; one two links away, while the log is active and not; a parent that is no element. -/
theorem witness_Finds : (∀ w f ps, f.n = 4 → OpenForest (forested (holding 0 w 0) f ps) 0 0 0 0 f ∧ Present (forested (holding 0 w 0) f ps) 0 0 [6]) ∧ (holding 0 1 0).S 6 = BitVec.ofNat 64 (0 * 2 ^ 32 + 1) ∧
    Shallow (meeting 1 small [0, 0, 1, 3]) small 1 0 ∧ Entry (meeting 1 small [0, 0, 1, 3]) small 0 (sizeOf_ small 0) 4 0x200000 3 ∧
    (∀ l, let f := { small with log := l }
      Entry (meeting 2 f [0, 0, 1, 3]) f 2 (parentOf f 2) 4 0x100008 1 ∧ Entry (meeting 2 f [0, 0, 1, 3]) f 1 (parentOf f 1) 4 0x100004 0 ∧ Entry (meeting 2 f [0, 0, 1, 3]) f 0 (parentOf f 0) 4 0x100000 0) ∧
    (∃ sl tg, (meeting 2 small [0, 0, 1, 3]).eqAt small 2 (parentOf small 2) 4 = .ok (.mem sl tg 0x100008) ∧
      Entry ((meeting 2 small [0, 0, 1, 3]).devWrite (some (.ctx 0 0)) (.mem sl tg 0x100008) (parentOf small 2) (leBytes 4 0)) small 0 (parentOf small 0) 4 0x100000 0) ∧
    Entry (meeting 2 small [0, 0, 4, 3]) small 2 (parentOf small 2) 4 0x100008 4 ∧ small.n ≤ 4 ∧ (holding 0 0 0).S 6 = BitVec.ofNat 64 0 := by
  refine ⟨fun w f ps h => ⟨forested_open _ _ h _ _ _, forested_present _ _ _ _ _ _ ⟨rfl, rfl⟩⟩, rfl, shallow_of (by decide) (by decide) (by decide) (kx := 0x100004) (kr := 0x100000) (by decide +kernel) (by decide +kernel),
    entry_of (by decide +kernel), ?_, ?_, entry_of (by decide +kernel), by decide, rfl⟩
  · intro l
    cases l <;> exact ⟨entry_of (by decide +kernel), entry_of (by decide +kernel), entry_of (by decide +kernel)⟩
  · exact ⟨0, dramTag, ok_eq _ _ (by decide +kernel), entry_of (by decide +kernel)⟩

/-- The unions of 1 with 0, of one class; of 1 with 3, while the log has no room, and with the log active. -/
theorem witness_Unions : (∀ f, f.n = 4 → OpenForest (forested (holding 0 1 3) f [0, 0, 1, 3]) 0 0 0 0 f ∧ Present (forested (holding 0 1 3) f [0, 0, 1, 3]) 0 0 [6, 7]) ∧
    (holding 0 1 3).S 6 = BitVec.ofNat 64 (0 * 2 ^ 32 + 1) ∧ (holding 0 1 3).S 7 = BitVec.ofNat 64 (0 * 2 ^ 32 + 3) ∧
    (let f := { small with log := true }
     let s1 := (forested (holding 0 1 3) f [0, 0, 1, 3]).entered (.ctx 0 0) (some 6)
     Shallow s1 f 1 0 ∧ Shallow s1 f 0 0 ∧ Shallow s1 f 3 3 ∧ (f.used + 2 ≤ f.lsize ∧ ({ f with used := 3 } : Forest).lsize < 3 + 2) ∧ Entry s1 f 0 (sizeOf_ f 0) 4 0x200000 3 ∧ Entry s1 f 3 (sizeOf_ f 3) 4 0x20000C 1 ∧
       (let writes := [(3, logOf f f.used, 8, 3 * 2 ^ 32 + 3), (0, logOf f (f.used + 1), 8, 2 ^ 63 + 0 * 2 ^ 32 + 3), (3, parentOf f 3, 4, 0), (0, sizeOf_ f 0, 4, 3 + 1)]
        (∀ e ∈ writes, Writable s1 f e.1 e.2.1 e.2.2.1) ∧ ∃ ks, Stored (.ctx 0 0) f s1 writes ks)) := by
  refine ⟨fun f h => ⟨forested_open _ _ h _ _ _, forested_present _ _ _ _ _ _ ⟨rfl, rfl⟩⟩, rfl, rfl, shallow_of (by decide) (by decide) (by decide) (kx := 0x100004) (kr := 0x100000) (by decide +kernel) (by decide +kernel),
    shallow_of (by decide) (by decide) (by decide) (kx := 0x100000) (kr := 0x100000) (by decide +kernel) (by decide +kernel),
    shallow_of (by decide) (by decide) (by decide) (kx := 0x10000C) (kr := 0x10000C) (by decide +kernel) (by decide +kernel), by decide, entry_of (by decide +kernel), entry_of (by decide +kernel), ?_, ⟨_, stored_of (by decide +kernel)⟩⟩
  intro e he
  simp only [List.mem_cons, List.not_mem_nil, or_false] at he
  rcases he with h | h | h | h <;> subst h
  · exact writable_of (key := 0x400000) (by decide +kernel) (by decide +kernel)
  · exact writable_of (key := 0x400008) (by decide +kernel) (by decide +kernel)
  · exact writable_of (key := 0x10000C) (by decide +kernel) (by decide +kernel)
  · exact writable_of (key := 0x200000) (by decide +kernel) (by decide +kernel)

/-- A forest without a log, with one that is idle, active and empty, and one that holds the merge of 3 into 0. -/
theorem witness_ForestLogs : (∀ f, f.n = 4 → OpenForest (forested (holding 0 0 0) f [0, 0, 1, 0] [3 * 2 ^ 32 + 3, 2 ^ 63 + 3]) 0 0 0 0 f ∧ Present (forested (holding 0 0 0) f [0, 0, 1, 0] [3 * 2 ^ 32 + 3, 2 ^ 63 + 3]) 0 0 [6]) ∧
    (holding 0 0 0).S 6 = BitVec.ofNat 64 0 ∧ ({ small with lsize := 0 } : Forest).lsize = 0 ∧ small.lsize ≠ 0 ∧ small.log = false ∧ ({ small with log := true } : Forest).used = 0 ∧
    (let f := { small with log := true, used := 2 }
     let s1 := (forested (holding 0 0 0) f [0, 0, 1, 0] [3 * 2 ^ 32 + 3, 2 ^ 63 + 3]).entered (.ctx 0 0) (some 14)
     f.log = true ∧ f.used = 2 ∧ Entry s1 f 0 (logOf f 0) 8 0x400000 (3 * 2 ^ 32 + 3) ∧ Entry s1 f 0 (logOf f 1) 8 0x400008 (2 ^ 63 + 0 * 2 ^ 32 + 3) ∧ Writable s1 f 0 (sizeOf_ f 0) 4 ∧ Writable s1 f 3 (parentOf f 3) 4 ∧
       ∃ ks, Stored (.ctx 0 0) f s1 [(0, sizeOf_ f 0, 4, 3), (3, parentOf f 3, 4, 3)] ks) := by
  exact ⟨fun f h => ⟨forested_open _ _ h _ _ _, forested_present _ _ _ _ _ _ ⟨rfl, rfl⟩⟩, rfl, rfl, by decide, rfl, rfl, rfl, rfl, entry_of (by decide +kernel), entry_of (by decide +kernel),
    writable_of (key := 0x200000) (by decide +kernel) (by decide +kernel), writable_of (key := 0x10000C) (by decide +kernel) (by decide +kernel), ⟨_, stored_of (by decide +kernel)⟩⟩

/-- A descriptor of the small forest, without a log. -/
def described (n init : Nat) : List Byte := leBytes 8 0x100000 ++ leBytes 8 0x200000 ++ leBytes 4 n ++ [0, BitVec.ofNat 8 init] ++ List.replicate 18 0
/-- Its address in s6; nothing is open in the partition. -/
def opening (n init : Nat) (ps : List Nat) : State := { forested (holding 0 (n64 (scratchVa 0x100)) 0) small ps [] (described n init) with forests := [] }
theorem run_ok {α β : Type} {x : Try (State × α × β)} (s0 : State) (h : x.toOption.isSome = true) : ∃ bs k, x = .ok ((match x with | .ok (s, _) => s | _ => s0), bs, k) := by
  cases x with
  | error e => simp [Except.toOption] at h
  | ok p => exact ⟨_, _, rfl⟩
def openingAt (n init : Nat) (ps : List Nat) : State :=
  match ((opening n init ps).entered (.ctx 0 0) (some 14)).loadRun (.ctx 0 0) 0 (.scratch 0 0x100) (scratchVa 0x100) 40 with
  | .ok (s, _) => s
  | _ => {}
/-- The forest that the descriptor names. -/
def bare : Forest := { pbase := 0x100000, sbase := 0x200000, n := 4 }
theorem opening_between (n init : Nat) (ps : List Nat) : Between (opening n init ps) 0 0 :=
  ⟨⟨rfl, rfl, (by decide : (0 : Nat) < 511), (by decide : (0 : Nat) < 32), rfl, rfl, rfl, rfl, rfl, rfl, rfl, rfl, rfl⟩, rfl⟩
theorem witness_ForestOpens : (∀ n init ps, Between (opening n init ps) 0 0 ∧ NoChunks (opening n init ps) ∧ (opening n init ps).tokenHolder = none ∧ (opening n init ps).partOf (.ctx 0 0) = some 0 ∧ NoBankOps (opening n init ps)) ∧
    (n64 (scratchVa 0x101)).toNat % 8 ≠ 0 ∧ ((holding 0 (n64 (scratchVa 0x100)) 0).S 6).toNat % 8 = 0 ∧ OwnBytes ((opening 0 0 []).entered (.ctx 0 0) (some 14)) 0 0 (scratchVa 0x100) 40 0x100 rdR ∧
    bits ((opening 0 0 []).value (scratchKey 0 0x100) 40) 159 128 = 0 ∧
    (∀ init ∈ [0, 1], (∃ bs k, ((opening 4 init [0, 0, 0, 3]).entered (.ctx 0 0) (some 14)).loadRun (.ctx 0 0) 0 (.scratch 0 0x100) (scratchVa 0x100) 40 = .ok (openingAt 4 init [0, 0, 0, 3], bs, k)) ∧
      (∃ tg, (openingAt 4 init [0, 0, 0, 3]).eqAt bare 0 bare.pbase 4 = .ok (.mem 0 tg 0x100000)) ∧ descriptor ((opening 4 init [0, 0, 0, 3]).value (scratchKey 0 0x100) 40) = some (bare, decide (init = 1)) ∧
      bare.ranges.mapM ((openingAt 4 init [0, 0, 0, 3]).eqRange (.ctx 0 0)) = .ok [([0], true), ([0], true)] ∧ pairsOverlap bare.ranges = false ∧ (opening 4 init [0, 0, 0, 3]).forest? 0 0 = none) ∧
    (∀ h, h < 16 → (({ opening 4 1 [] with forests := (List.range 16).map (fun h => (h, small)) } : State).forest? 0 h).isSome = true) ∧
    (∃ ks, Stored (.ctx 0 0) bare (openingAt 4 1 [0, 0, 0, 3]) ((List.range bare.n).flatMap (fun i => [(i, parentOf bare i, 4, i), (i, sizeOf_ bare i, 4, 1)])) ks) ∧
    (∀ i, i < bare.n → Shallow (openingAt 4 0 [0, 0, 0, 3]) bare i (if i = 3 then 3 else 0)) := by
  refine ⟨fun n init ps => ⟨opening_between _ _ _, one_noChunks _ _ _ rfl rfl rfl rfl rfl, rfl, rfl, quietBank rfl⟩, by decide, by decide, ⟨by decide, by decide +kernel, fun _ => rfl, by decide +kernel, rfl, quietBank rfl⟩, by decide +kernel, ?_, by decide,
    ⟨_, stored_of (by decide +kernel)⟩, ?_⟩
  · intro init hinit
    simp only [List.mem_cons, List.not_mem_nil, or_false] at hinit
    rcases hinit with h | h <;> subst h <;> exact ⟨run_ok {} (by decide +kernel), ⟨dramTag, ok_eq _ _ (by decide +kernel)⟩, by decide +kernel, ok_eq _ _ (by decide +kernel), by decide, by decide⟩
  intro i hi
  have hi : i < 4 := hi
  have h : i = 0 ∨ i = 1 ∨ i = 2 ∨ i = 3 := by omega
  rcases h with h | h | h | h <;> subst h
  · exact shallow_of (by decide) (by decide) (by decide) (kx := 0x100000) (kr := 0x100000) (by decide +kernel) (by decide +kernel)
  · exact shallow_of (by decide) (by decide) (by decide) (kx := 0x100004) (kr := 0x100000) (by decide +kernel) (by decide +kernel)
  · exact shallow_of (by decide) (by decide) (by decide) (kx := 0x100008) (kr := 0x100000) (by decide +kernel) (by decide +kernel)
  · exact shallow_of (by decide) (by decide) (by decide) (kx := 0x10000C) (kr := 0x10000C) (by decide +kernel) (by decide +kernel)

/-- A range of two elements, labels to 0x500000; a reduction with its values there and its results at 0x600000, and at an address that is no multiple of four. -/
theorem witness_ForestWideIssue : (∀ y, let s := forested (holding 0x700000000 0x500000 y) small [0, 0, 0, 3]
      OpenForest s 0 0 0 0 small ∧ Present s 0 0 [5, 6, 7] ∧ roomy s 0) ∧ (holding 0x700000000 0x500000 0).S 5 = BitVec.ofNat 64 (7 * 2 ^ 32 + 0) ∧ ((holding 0x700000000 0x500000 0).S 6).toNat % 4 = 0 ∧
    (holding 0x700000000 0x500000 0x200000002).S 7 = BitVec.ofNat 64 (2 * 2 ^ 32 + 2) ∧
    (∀ i, i < [0, 3].length → Shallow ((forested (holding 0x700000000 0x500000 0x200000002) small [0, 0, 0, 3]).entered (.ctx 0 0) (some 14)) small (2 + i) ([0, 3].getD i 0)) ∧
    reduceForm (.eqreduceAddI32 5 6 7) = some (4, 5, 6, 7) ∧ ((holding 0x700000000 0x500000 0x600000).S 7).toNat % 4 = 0 ∧ [0, 0, 0, 3].length = small.n ∧
    (∀ i, i < [0, 0, 0, 3].length → Shallow ((forested (holding 0x700000000 0x500000 0x600000) small [0, 0, 0, 3]).entered (.ctx 0 0) (some 14)) small i ([0, 0, 0, 3].getD i 0)) ∧
    ((holding 0x700000000 0x500000 0x600002).S 7).toNat % 4 ≠ 0 := by
  refine ⟨fun y => ⟨forested_open _ _ rfl _ _ _, forested_present _ _ _ _ _ _ ⟨rfl, rfl⟩, by unfold roomy; exact (by decide : (0 : Nat) < 64)⟩, rfl, by decide, rfl, ?_, rfl, by decide, rfl, ?_, by decide⟩
  · intro i hi
    have h : i = 0 ∨ i = 1 := by simp at hi; omega
    rcases h with h | h <;> subst h
    · exact shallow_of (by decide) (by decide) (by decide) (kx := 0x100008) (kr := 0x100000) (by decide +kernel) (by decide +kernel)
    · exact shallow_of (by decide) (by decide) (by decide) (kx := 0x10000C) (kr := 0x10000C) (by decide +kernel) (by decide +kernel)
  · intro i hi
    have h : i = 0 ∨ i = 1 ∨ i = 2 ∨ i = 3 := by simp at hi; omega
    rcases h with h | h | h | h <;> subst h
    · exact shallow_of (by decide) (by decide) (by decide) (kx := 0x100000) (kr := 0x100000) (by decide +kernel) (by decide +kernel)
    · exact shallow_of (by decide) (by decide) (by decide) (kx := 0x100004) (kr := 0x100000) (by decide +kernel) (by decide +kernel)
    · exact shallow_of (by decide) (by decide) (by decide) (kx := 0x100008) (kr := 0x100000) (by decide +kernel) (by decide +kernel)
    · exact shallow_of (by decide) (by decide) (by decide) (kx := 0x10000C) (kr := 0x10000C) (by decide +kernel) (by decide +kernel)

/-- A labelling or reduction under way at element `i` of four. -/
def forestWide (kind x i : Nat) : State :=
  { owned (runs {}) with args := [4], flight := [(4, { chan := 0, ev := ⟨.eqAsyncCompletion, [4]⟩, words := [kind, 0, 0, 0, 0, 7, x, (if kind = 0 then 0 else 0x600000), i, 2 ^ 32 - 1, 0, 0, 0] ++ [0, 0, 0, 3] })] }
/-- The last element done; a label that is written and one that fails; an element that is no root, and the root of three. -/
theorem witness_ForestWideWork : (∀ kind ∈ [0, 4], ∀ x ∈ [0x500000, 0x40000000], ∀ i ∈ [0, 1, 4], ∃ m, (forestWide kind x i).msg? 4 = some m ∧ (forestWide kind x i).tokenHolder = none ∧ NoBankOps (forestWide kind x i) ∧ (∀ va ∈ [0x500004, 0x600000, 0x500000, 0x500008, 0x40000004], (forestWide kind x i).pageHeld va = false) ∧
      m.words = [kind, 16 * 0 + 0, 0, 0, 0, 7, x, (if kind = 0 then 0 else 0x600000), i, 2 ^ 32 - 1, 0, 0, 0] ++ [0, 0, 0, 3]) ∧ (∀ kind x i, NoChunks (forestWide kind x i)) ∧
    (∃ sl tg, (forestWide 0 0x500000 1).eqTarget 0 0 0x500004 { w := true, e := true } = .ok (.mem sl tg 0x500004)) ∧ (∃ tr, (forestWide 0 0x40000000 1).eqTarget 0 0 0x40000004 { w := true, e := true } = .error tr) ∧
    (∀ j ∈ [0, 1, 2], (∃ sl tg, (forestWide 4 0x500000 0).eqTarget 0 0 (0x500000 + 4 * j) { r := true, e := true } = .ok (.mem sl tg (0x500000 + 4 * j))) ∧ (forestWide 4 0x500000 0).bad ((0x500000 + 4 * j) / 64) = false) ∧
    (List.range [0, 0, 0, 3].length).filter (fun j => [0, 0, 0, 3].getD j 0 = 0) = [0, 1, 2] ∧ (∃ sl tg, (forestWide 4 0x500000 0).eqTarget 0 0 0x600000 { w := true, e := true } = .ok (.mem sl tg 0x600000)) := by
  refine ⟨fun kind _ x _ i _ => ⟨_, rfl, rfl, oneBank _ _ rfl (fun h => nomatch h), fun _ _ => by rfl, rfl⟩, fun _ _ _ => runs_noChunks _ _, memTarget_ok (by decide +kernel), error_some _ (by decide +kernel), ?_, by decide, memTarget_ok (by decide +kernel)⟩
  intro j hj
  simp only [List.mem_cons, List.not_mem_nil, or_false] at hj
  rcases hj with h | h | h <;> subst h <;> exact ⟨memTarget_ok (by decide +kernel), rfl⟩
/-- A class of one element, its value a NaN that carries a payload, with a sign; and one that is a number. -/
theorem witness_ClassOfOne : (∀ v ∈ [0x7FA00001, 0xFFC00000], (fp32.decode v).isNan = true) ∧ (fp32.decode 0x80000000).isNan = false ∧
    (List.range [0, 0, 0, 3].length).filter (fun j => [0, 0, 0, 3].getD j 0 = 3) = [3] := by decide


/-! ## Witnesses: taps, waystation handlers -/

/-- A row address in s6, a control word in s7, a stride and a length in ox0 and ox1. -/
def tapping (sa c stride x : Nat) : Regs := { holding 0 (n64 sa) (n64 c) with ox := [(0, n64 stride), (1, n64 x)] }
theorem witness_TapIssue : tapForm (.tapPre 6 7) = some (6, 7, 0) ∧ (Instr.tapPre 6 7).WF ∧ (∀ sa c stride x, Between (runs (tapping sa c stride x)) 0 0 ∧ Present (runs (tapping sa c stride x)) 0 0 [6, 7]) ∧
    (portOf (runs {}) 0).length < 2 ∧ roomy (runs {}) 0 ∧
    (let fields (c x : Nat) : Prop := bits c 63 48 = 0 ∧ bits c 31 17 = 0 ∧ bits c 15 14 = 0 ∧ bits c 7 6 = 0 ∧ bits x 63 15 = 0 ∧ 1 ≤ bits x 14 0 ∧ bits x 14 0 ≤ 16384
     ¬ fields 0 0 ∧ fields 0 16 ∧ fields 0x100 16) ∧
    ((tapping (scratchVa 0x101) 0 0 16).S 6).toNat % 4 ≠ 0 ∧ ((tapping (scratchVa 0x100) 0 0 16).S 6).toNat % 4 = 0 ∧ ((tapping (scratchVa 0x100) 0x100 64 16).OX 0).toNat % 4 = 0 ∧
    bits (tapRow 0x100000 0 0) 63 48 ≠ 0xFF80 ∧ (bits (tapRow (scratchVa 0x1FFF0) 0 0) 63 48 = 0xFF80 ∧ ∃ tr, (runs (tapping (scratchVa 0x1FFF0) 0 0 16)).check (.ctx 0 0) (scratchVa 0x1FFF0) 64 { r := true, w := true } = .error tr) ∧
    (∀ stride ∈ [32, 64], ∀ q ∈ [0, 1], bits (tapRow (scratchVa 0x100) stride q) 63 48 = 0xFF80 ∧
      (runs (tapping (scratchVa 0x100) 0x100 stride 16)).check (.ctx 0 0) (tapRow (scratchVa 0x100) stride q) 64 { r := true, w := true } = .ok (.scratch 0 (0x100 + stride * q))) ∧
    (let key (stride q : Nat) := scratchKey 0 (0x100 + stride * q)
     (key 32 1 < key 32 0 + 64 ∧ key 32 0 < key 32 1 + 64) ∧ (key 64 0 + 64 ≤ key 64 1 ∨ key 64 1 + 64 ≤ key 64 0)) :=
  ⟨rfl, (Instr.wf_iff _).1 rfl, fun _ _ _ _ => ⟨runs_between _ _, runs_present _ _ _ ⟨rfl, rfl⟩⟩, by decide, by unfold roomy; decide, by decide, by decide, by decide, by decide, by decide,
   ⟨by decide, error_some _ (by decide +kernel)⟩, by decide +kernel, by decide⟩
theorem witness_TapReads : (∀ a, Between (runs (holding 0 a 0)) 0 0 ∧ Present (runs (holding 0 a 0)) 0 0 [6]) ∧ ((runs {}).ctx (.ctx 0 0)).taps = 0 ∧ bits ((holding 0 1 0).S 6).toNat 1 0 = 1 ∧
    2 ≤ bits ((holding 0 2 0).S 6).toNat 1 0 ∧ ((holds { taps := 1 }).ctx (.ctx 0 0)).taps ≠ 0 := ⟨fun _ => ⟨runs_between _ _, runs_present _ _ _ ⟨rfl, rfl⟩⟩, rfl, by decide, by decide, by decide⟩

/-- The batch's message. -/
def batchMsg : Msg := { chan := 0, ev := ⟨.tapAccept, [4]⟩, src := 0, words := [9, 0, scratchVa 0x100, 0, 0, 16, 0, 0] }
/-- The probe of the tap point: its action, threshold and bias, of 16 weights that are 0. -/
def probeBytes (act thr bias : Nat) : List Byte :=
  BitVec.ofNat 8 (act * 64) :: List.replicate 31 0 ++ leBytes 2 16 ++ [0, 0] ++ leBytes 4 0 ++ leBytes 4 thr ++ leBytes 4 bias ++ leBytes 8 0x730000 ++ leBytes 8 0x720000
/-- A batch of one row at 0x100 of the scratchpad of core 0, bank 0 in a format; the table at `base`. -/
def batched (fmt base : Nat) (dark : List Nat) (probe : List Byte) : State :=
  { owned (runs {}) with cores := [(0, { ctxs := [(0, { st := .ready, taps := 1, tapBytes := [(9, scratchKey 0 0x100, 64)] })], plb := [(0, allRights)], bfmt := [(0, fmt)], tapTbase := n64 base })], darkCols := dark,
                         args := [4], flight := [(4, batchMsg)], mem := ((({ mem := tableCells } : State).writeBytes 0x700000 (leBytes 8 0x81 ++ leBytes 8 0x710000)).writeBytes 0x710000 probe).mem }
theorem batched_ok (fmt base : Nat) (dark : List Nat) (probe : List Byte) : TapBatch (batched fmt base dark probe) 0 0 4 9 (scratchVa 0x100) 0 0 16 0 0 0 0 0x100 batchMsg :=
  ⟨rfl, rfl, rfl, rfl, ⟨by decide, by decide⟩, rfl, ⟨by decide +kernel, by decide⟩, one_noChunks _ _ _ rfl rfl rfl rfl rfl, rfl, oneBank _ _ rfl (fun h => nomatch h), .inl rfl, rfl, rfl, ⟨by decide, by decide⟩⟩
theorem fault_some {α : Type} (x : Except TableStop α) (h : (match x with | .error (.fault _ []) => true | _ => false) = true) : ∃ c, x = .error (.fault c []) := by
  split at h
  · exact ⟨_, rfl⟩
  · cases h
/-- A bank of FP16; a dark column; a table at an address that is no multiple of 16; one of no probes; a probe that does not cross, one that steers, one that traps. -/
theorem witness_TapOutcome : (∀ fmt base dark probe, ∃ m, TapBatch (batched fmt base dark probe) 0 0 4 9 (scratchVa 0x100) 0 0 16 0 0 0 0 0x100 m) ∧
    ¬ ((batched 2 0 [] []).bankAt 0 0x100 = 0 ∨ (batched 2 0 [] []).bankAt 0 0x100 = 1) ∧ (∀ o, o < 64 → (batched 0 0 [] []).bankAt 0 (0x100 + o) = 0) ∧
    (batched 0 0 [0] []).darkCols.contains (colOf 0) = true ∧ (batched 0 0 [] []).darkCols.contains (colOf 0) = false ∧ (batched 0 0 [] []).noBad = true ∧
    (∃ cause, ((batched 0 1 [] []).drop 4).readTable 0 [] 0 0 16 = .error (.fault cause [])) ∧ ((batched 0 0x600000 [] []).drop 4).readTable 0 [] 0 0 16 = .ok ([], 0) ∧
    (∀ act ∈ [2, 3], ∀ tb ∈ [(0x3F800000, 0), (0, 0x3F800000)], ∃ p : Probe, ((batched 0 0x700000 [] (probeBytes act tb.1 tb.2)).drop 4).readTable 0 [] 0 0 16 = .ok ([p], 0) ∧ p.p < 64 ∧ p.act = act ∧
      crosses p (score p (List.replicate 16 (fp32.decode 0))) = decide (tb.1 = 0)) ∧
    bits ((batched 0 0 [] []).regs (.ctx 0 0)).tringSize.toNat 15 0 = 0 := by
  refine ⟨fun _ _ _ _ => ⟨_, batched_ok _ _ _ _⟩, by decide, by decide +kernel, by decide, by decide, rfl, fault_some _ (by decide +kernel), by decide +kernel, ?_, by decide⟩
  intro act ha tb htb
  simp only [List.mem_cons, List.not_mem_nil, or_false] at ha htb
  refine ⟨{ p := 0, act := act, dir := false, bias := tb.2, thr := tb.1, alpha := 0, w := List.replicate 16 (fp32.decode 0), v := if act = 2 then List.replicate 16 (fp32.decode 0) else [] }, ?_⟩
  rcases ha with h | h <;> rcases htb with h' | h' <;> subst h <;> subst h' <;> decide +kernel
/-- The same batch with its table in a page of another module on flow 2, which has the accesses `out` outstanding. -/
def batchedPeer (out : List (Nat × Nat)) : State :=
  { batched 0 0x40000000 [] [] with
    cores := [(0, { ctxs := [(0, { st := .ready, taps := 1, tapBytes := [(9, scratchKey 0 0x100, 64)], unackedPeer := out })], plb := [(0, allRights)], bfmt := [(0, 0)], tapTbase := 0x40000000 })],
    mem := (({ mem := tableCells } : State).writeBytes 0x4008 [0x23, 0x02]).mem, flows := [(2, n64 (2 ^ 63))] }
/-- A read of the table that needs another module, with credit on its flow and without. -/
theorem witness_TapOutcome_peer : (∀ out, TapBatch (batchedPeer out) 0 0 4 9 (scratchVa 0x100) 0 0 16 0 0 0 0 0x100 batchMsg) ∧
    (∀ out ∈ [[], (List.range 256).map (fun q => (2, q))], ((batchedPeer out).drop 4).readTable 0 [] 0 0 16 = .error (.peer 2 false 0 16)) ∧
    (batchedPeer []).credit 2 1 = true ∧ (batchedPeer ((List.range 256).map (fun q => (2, q)))).credit 2 1 = false ∧ bit (look 0 (batchedPeer []).flows 2).toNat 62 = false :=
  ⟨fun _ => ⟨rfl, rfl, rfl, rfl, ⟨by decide, by decide⟩, rfl, ⟨by decide +kernel, by decide⟩, one_noChunks _ _ _ rfl rfl rfl rfl rfl, rfl, oneBank _ _ rfl (fun h => nomatch h), .inl rfl, rfl, rfl, ⟨by decide, by decide⟩⟩,
   by decide +kernel, by decide +kernel, by decide +kernel, by decide +kernel⟩
theorem witness_Crossing : (fp32.decode 0x7FC00000).isNan = true ∧ finite (fp32.decode 0x3F800000) = true ∧ finite (fp32.decode 0) = true := by decide

/-- Waystation 0 runs a handler for an event, with registers, over the sectors, handler table and queue that are given. -/
def handling (ev : WsEvent) (r : Regs) (l : Slice := {}) : State := { cur := .ws 0, mem := tableCells, trRoot := 0x1001, slices := [(0, { l with run := some ev, ctx := { r := r, st := .ready } })] }
theorem handling_ok (ev : WsEvent) (r : Regs) (l : Slice) (h : r.absent = 0 ∧ r.tpend = []) : Handling (handling ev r l) 0 ev :=
  ⟨rfl, rfl, rfl, rfl, h.2, fun j _ => by show Regs.present r j = true; simp [Regs.present, h.1, h.2, has], rfl, ⟨rfl, rfl, rfl, rfl⟩, ⟨rfl, rfl, rfl⟩⟩
/-- A fill, a message, an eviction with and without its line. -/
theorem witness_EventReads : (∀ ev a, Handling (handling ev (holding 0 a 0)) 0 ev) ∧ (∀ x ∈ [2 ^ 63, 2 ^ 63 + 1, 2 ^ 63 + 2, 2 ^ 63 + 3, 2 ^ 63 + 4, 2 ^ 63 + 5, 8, 4, 1024], ((holding 0 (n64 x) 0).S 6).toNat = x) ∧
    (let ev : WsEvent := { kind := 1, entry := 0, va := 0x100000, sectors := 1 }
     ev.kind ≠ 3 ∧ bit ev.sectors (8 / 256) = true ∧ (ev.kind = 2 → ev.holdCopy = true) ∧ bit ev.sectors (256 / 256) = false) ∧
    (let ev : WsEvent := { kind := 2, entry := 0, va := 0x100000, sectors := 1 }
     ev.kind = 2 ∧ ev.holdCopy = false) := ⟨fun _ _ => handling_ok _ _ _ ⟨rfl, rfl⟩, by decide, by decide, by decide⟩
/-- A misaligned address; no sector; a sector of another domain, of its own, and of its own over a poisoned granule. -/
theorem witness_EventUpdates : updateForm (.wsupdAdd 5 6 7) = some (5, 6, 7, fun o y => o + y) ∧ (Instr.wsupdAdd 5 6 7).WF ∧ (∀ ev a l, Handling (handling ev (holding 0 a 1) l) 0 ev) ∧
    ((holding 0 0x100004 1).S 6).toNat % 8 ≠ 0 ∧ ((holding 0 0x100000 1).S 6).toNat % 8 = 0 ∧ ((handling { kind := 1, entry := 0, va := 0 } {}).slice 0).find 0x100000 = none ∧
    (let s := handling { kind := 1, entry := 0, va := 0 } (holding 0 0x100000 1) { sectors := [{ tag := dramTag }] }
     (s.slice 0).find 0x100000 = some { tag := dramTag } ∧ dramTag.own = 0 ∧ s.bad ((dramTag.key * 256 + 0x100000 % 256) / 64) = false ∧ s.tokenHolder = none ∧ s.pageHeld 0x100000 = false ∧ NoBankOps s) ∧
    ({ handling { kind := 1, entry := 0, va := 0 } {} with poison := [0x4000] } : State).poison.contains ((dramTag.key * 256 + 0x100000 % 256) / 64) = true ∧
    (∀ ev r l, NoChunks (handling ev r l)) := by
  refine ⟨rfl, (Instr.wf_iff _).1 rfl, fun _ _ _ => handling_ok _ _ _ ⟨rfl, rfl⟩, by decide, by decide, by decide, ⟨by decide, by decide, by decide, by decide, by decide, quietBank rfl⟩, by decide, ?_⟩
  intro ev r l b
  cases b with
  | iluet => rfl
  | ctx k n => rfl
  | ws k => by_cases hk : k = 0 <;> simp [State.ctx, State.slice, handling, look, hk, Ne.symm]

/-- An address whose page belongs to another domain than the event's. -/
theorem witness_EventActions_other : (let s := handling { kind := 1, entry := 0, va := 0, dom := 1 } (holding 0 0x100000 1) {}
     Handling s 0 { kind := 1, entry := 0, va := 0, dom := 1 } ∧ s.pageHeld 0x100000 = false ∧ addrCheck (.ws 0) 0x100000 1 false = .ok none ∧ ∃ l, s.leafFor (.ws 0) 0x100000 = .ok l ∧ l.own ≠ 1) := by
  refine ⟨handling_ok _ _ _ ⟨rfl, rfl⟩, rfl, by decide +kernel, ?_⟩
  obtain ⟨l, hl⟩ := ok_some ((handling { kind := 1, entry := 0, va := 0, dom := 1 } (holding 0 0x100000 1) {}).leafFor (.ws 0) 0x100000) (by decide +kernel)
  have h : ((handling { kind := 1, entry := 0, va := 0, dom := 1 } (holding 0 0x100000 1) {}).leafFor (.ws 0) 0x100000).toOption.map (·.own) = some 0 := by decide +kernel
  refine ⟨l, hl, ?_⟩
  rw [hl] at h
  simp only [Except.toOption, Option.map_some, Option.some.injEq] at h
  omega
/-- A handler that takes fills of every line of domain 0. -/
def fills : Tab W64 := [(0, 1), (1, 0xFFFFFFFFFFFF0002)]
theorem witness_EventActions : (∀ ev a l, Handling (handling ev (holding 0 a 1) l) 0 ev ∧ NoBankOps (handling ev (holding 0 a 1) l) ∧ ∀ va, (handling ev (holding 0 a 1) l).pageHeld va = false) ∧ (∃ tr, addrCheck (.ws 0) 0x8000000000000000 1 false = .error tr) ∧
    (let s := handling { kind := 1, entry := 0, va := 0 } (holding 0 0x100000 1) { table := fills }
     addrCheck (.ws 0) 0x100000 1 false = .ok none ∧ (∃ l, s.leafFor (.ws 0) 0x100000 = .ok l ∧ l.ty < 2 ∧ l.own = 0 ∧ homeSlice l.stack 0x100000 = 0 ∧ s.darkLine ⟨0x100000 / 256, l.key 0x100000 / 256, 0, l.ty, l.own⟩ = false) ∧
       bits 0x100000 55 48 ≠ 0x81 ∧ (s.slice 0).find 0x100000 = none ∧ (s.slice 0).handler 1 (0x100000 / 256 * 256 / 1024 * 1024) 0 = some 0 ∧ (s.slice 0).queue.length ≤ 30) ∧
    ((handling { kind := 1, entry := 0, va := 0 } {} { sectors := [{ tag := dramTag }] }).slice 0).find 0x100000 ≠ none ∧ (∃ core, coreOfId (coreId 5) = some core) ∧ coreOfId 0xFFFFF = none ∧
    (let ev : WsEvent := { kind := 2, entry := 0, va := 0x100000, sectors := 1, holdCopy := true, tags := [dramTag] }
     let s := handling ev {}
     ev.kind = 2 ∧ ev.holdCopy = true ∧ ((s.slice 0).ways (ev.va / 1024)).length < 16 ∧ (∀ w ∈ (s.slice 0).ways (ev.va / 1024), w.1 = ev.va / 1024 → w.2.2 = true) ∧ ∀ g ∈ ev.tags, g.va / 4 = ev.va / 1024 ∧ g.key / 4 = dramTag.key / 4) := by
  refine ⟨fun _ _ _ => ⟨handling_ok _ _ _ ⟨rfl, rfl⟩, quietBank rfl, fun _ => by rfl⟩, error_some _ (by decide +kernel), ⟨by decide +kernel, ?_, by decide, by decide, by decide +kernel, by decide⟩, by decide, ⟨5, by decide +kernel⟩, by decide +kernel, by decide +kernel⟩
  obtain ⟨l, hl⟩ := ok_some ((handling { kind := 1, entry := 0, va := 0 } (holding 0 0x100000 1) { table := fills }).leafFor (.ws 0) 0x100000) (by decide +kernel)
  refine ⟨l, hl, ?_⟩
  have h : ((handling { kind := 1, entry := 0, va := 0 } (holding 0 0x100000 1) { table := fills }).leafFor (.ws 0) 0x100000).toOption.map (fun l => (l.ty, l.own, l.stack, l.key 0x100000)) = some (0, 0, 0, 0x100000) := by decide +kernel
  rw [hl] at h
  simp only [Except.toOption, Option.map_some, Option.some.injEq, Prod.mk.injEq] at h
  obtain ⟨h1, h2, h3, h4⟩ := h
  rw [h1, h2, h3, h4]
  decide +kernel
/-- An event that is about to start; a handler at the end of its budget and one before it; a forward to a context of its domain, and of another. -/
theorem witness_HandlerRuns :
    (let s : State := { args := [0], slices := [(0, { queue := [{ kind := 1, entry := 0, va := 0x100000 }] })] }
     s.args = [0] ∧ (s.slice 0).run = none ∧ (s.slice 0).queue = { kind := 1, entry := 0, va := 0x100000 } :: []) ∧
    (∀ t ∈ [9, 10], let s : State := { handling { kind := 1, entry := 0, va := 0 } {} { runEnd := 10 } with args := [0], time := t }
     s.args = [0] ∧ (s.slice 0).run = some { kind := 1, entry := 0, va := 0 } ∧ ((s.slice 0).runEnd ≤ s.time ∨ s.time < (s.slice 0).runEnd)) ∧
    Handling (handling { kind := 1, entry := 0, va := 0 } {}) 0 { kind := 1, entry := 0, va := 0 } ∧
    (∀ dom ∈ [0, 1], let s : State := { runs {} with args := [4], flight := [(4, { chan := 0, ev := ⟨.wsfwdArrival, [4]⟩, src := (Agent.ws 3).code, words := [0, 0, 7, 8, dom, 0, 1] })] }
     ∃ m, s.msg? 4 = some m ∧ m.src = (Agent.ws 3).code ∧ m.words = [0, 0, 7, 8, dom, 0, 1] ∧ (s.regs (.ctx 0 0)).dom.toNat = 0 ∧ (s.core 0).inbox.length + (s.core 0).reserved < 64) :=
  ⟨by decide, by decide, handling_ok _ _ _ ⟨rfl, rfl⟩, fun _ _ => ⟨_, rfl, rfl, rfl, rfl, (by decide : (0 : Nat) + 0 < 64)⟩⟩
/-- An entry that is live and one that is not; a window and budget that are allowed and an entry of none; an offset in the window of entry 0, and one beyond it. -/
theorem witness_Registration : (let s : State := { runs {} with slices := [(3, { table := fills })], args := [0, 2 ^ 17 * 3 + 32 * 0 + 8 * 1, 5] }
      s.args = [(Agent.ctx 0 0).code, 2 ^ 17 * 3 + 32 * 0 + 8 * 1, 5] ∧ bit ((s.slice 3).word 0 0) 0 = true) ∧ bit (({} : Slice).word 0 0) 0 = false ∧
    (let l : Slice := { table := [(2, 0x10000), (3, 0x10000)] }
     EntryAllowed l 0 0 ∧ ¬ EntryAllowed {} 0 0 ∧ OwnWindow l 0 1023 ∧ ¬ OwnWindow l 0 1024) := by
  refine ⟨by decide, by decide, ⟨by decide, by decide, by decide, by decide, by decide, by decide⟩, fun h => h.2.1 (by decide), ⟨0, by decide⟩, ?_⟩
  rintro ⟨e, he, h⟩
  revert e
  decide


/-! ## Witnesses: the scheduler -/

def isBad {α : Type} (x : Except PostStop α) : Bool := match x with | .error .bad => true | _ => false
theorem bad_of {α : Type} {x : Except PostStop α} (h : isBad x = true) : x = .error .bad := by
  unfold isBad at h
  split at h
  · rfl
  · cases h
def isTrap {α : Type} (x : Except PostStop α) : Bool := match x with | .error (.trap _) => true | _ => false
theorem trap_of {α : Type} {x : Except PostStop α} (h : isTrap x = true) : ∃ tr, x = .error (.trap tr) := by
  unfold isTrap at h
  split at h
  · exact ⟨_, rfl⟩
  · cases h

/-- A card of no records of one byte, for one core anywhere, and its shape word; the same with a record size of 0. -/
def cardBytes (rsize : Nat) : List Byte := List.replicate 20 0 ++ leBytes 2 rsize ++ List.replicate 38 0
/-- Memory with a card at 0x800000, one without a record size at 0x800100, and a route of one join at 0x800200. -/
def cardMem : List Host.Cell :=
  ((((({ mem := tableCells } : State).writeBytes 0x800000 (cardBytes 1)).writeBytes 0x800100 (cardBytes 0)).writeBytes 0x800200 (leBytes 8 0x800300 ++ leBytes 8 1 ++ leBytes 8 0)).writeBytes 0x800300
    (List.replicate 16 0 ++ [2] ++ List.replicate 15 0)).mem
/-- Context 0 of core 0 runs with registers `r`, and its partition's scheduler is `d`. -/
def posting (r : Regs) (d : Sched) : State := { owned (runs r) with mem := cardMem, scheds := [(0, d)] }
def poster : Poster := { ag := .ctx 0 0, rights := [(0, allRights)] }
theorem witness_Cards : (∃ tr, (posting {} {}).postRead poster 0x40000000 0x38 = .error (.trap tr)) ∧
    (∀ rsize ∈ [0, 1], let va := if rsize = 1 then 0x800000 else 0x800100
      (posting {} {}).postRead poster va 0x38 = .ok ((cardBytes rsize).take 0x38) ∧ (posting {} {}).postRead poster (va + 0x38) (4 * (bits (leNat ((cardBytes rsize).take 0x38)) 205 200 + 1)) = .ok [0, 0, 0, 0] ∧
        bits (leNat ((cardBytes rsize).take 0x38)) 214 208 = 0 ∧ bits (leNat ((cardBytes rsize).take 0x38)) 447 384 = 0) ∧
    (CardFits (leNat ((cardBytes 1).take 0x38)) ∧ ShapeFits (posting {} {}) 0 0 ∧ (posting {} {}).placeable 0 [0] = true) ∧ ¬ CardFits (leNat ((cardBytes 0).take 0x38)) := by
  refine ⟨trap_of (by decide +kernel), ?_, ⟨by unfold CardFits; decide +kernel, by unfold ShapeFits; decide +kernel, by decide +kernel⟩, by unfold CardFits; decide +kernel⟩
  intro rsize h
  simp only [List.mem_cons, List.not_mem_nil, or_false] at h
  rcases h with h | h <;> subst h <;> exact ⟨ok_eq _ _ (by decide +kernel), ok_eq _ _ (by decide +kernel), by decide +kernel, by decide +kernel⟩

/-- The same while a chunk of context 1 of core 0 has written a granule of the scratchpad. -/
def contended (r : Regs) (d : Sched) : State :=
  { posting r d with cores := [(0, { ctxs := [(0, { r := r, st := .ready }), (1, { st := .ready, chunk := { run := true, undo := [(scratchKey 0 0x100 / 64, List.replicate 64 0)] } })], plb := [(0, allRights)] })] }
def isWait {α : Type} (x : Except PostStop α) : Bool := match x with | .error (.wait _) => true | _ => false
theorem wait_of {α : Type} {x : Except PostStop α} (h : isWait x = true) : ∃ need, x = .error (.wait need) := by
  unfold isWait at h
  split at h
  · exact ⟨_, rfl⟩
  · cases h
/-- Bytes of a card and of a predicate word that have to be waited for. -/
theorem witness_PostsThatWait : (∃ need, (contended {} {}).postRead poster (scratchVa 0x100) 0x38 = .error (.wait need)) ∧
    (let s1 := (contended (holding 0 (n64 (scratchVa 0x100)) 0) {}).entered (.ctx 0 0) (some 14)
     Between (contended (holding 0 (n64 (scratchVa 0x100)) 0) {}) 0 0 ∧ (∃ need, s1.readCard 0 { s1.posterOf 0 with tag := [0, 0] } (scratchVa 0x100) false = .error (.wait need))) ∧
    (∃ need, (contended {} {}).readCard 0 ((contended {} {}).storePoster 0 0 (scratchVa 0x100)) (scratchVa 0x100) false = .error (.wait need)) ∧
    (∃ need, (contended {} {}).postRead { poster with tag := [2, 0, 3, 1] } (scratchVa 0x100) 8 = .error (.wait need)) :=
  ⟨wait_of (by decide +kernel), ⟨⟨⟨rfl, rfl, (by decide : (0 : Nat) < 511), (by decide : (0 : Nat) < 32), rfl, rfl, rfl, rfl, rfl, rfl, rfl, rfl, rfl⟩, rfl⟩, wait_of (by decide +kernel)⟩,
   wait_of (by decide +kernel), wait_of (by decide +kernel)⟩

theorem posting_between (r : Regs) (d : Sched) : Between (posting r d) 0 0 :=
  ⟨⟨rfl, rfl, (by decide : (0 : Nat) < 511), (by decide : (0 : Nat) < 32), rfl, rfl, rfl, rfl, rfl, rfl, rfl, rfl, rfl⟩, rfl⟩
/-- 64 manifests that wait in queue 0; 16 routes. -/
def crowd : Sched := { jobs := (List.range 64).map (fun k => (k, { id := k })), routes := (List.range 16).map (fun k => (k, { id := k })) }
/-- A context of no partition; a bit that must be zero; a misaligned address; a card that traps, a bad one, a good one, with room and without; a route; the same by a store to POST. -/
theorem witness_Posts : (∀ r d, Between (posting r d) 0 0) ∧ (∀ x y, Present (posting (holding x y 0) {}) 0 0 [6, 7, 5]) ∧ (runs {}).partOf (.ctx 0 0) = none ∧ (posting {} {}).partOf (.ctx 0 0) = some 0 ∧
    bits ((holding 0 0 32).S 7).toNat 63 5 ≠ 0 ∧ (bits ((holding 0 0x800004 0).S 7).toNat 63 5 = 0 ∧ ((holding 0 0x800004 0).S 6).toNat % 8 ≠ 0) ∧
    (let s1 := (posting (holding 0 0x800000 0) {}).entered (.ctx 0 0) (some 14)
     let who : Poster := { s1.posterOf 0 with tag := [0, 0] }
     (∃ tr, s1.readCard 0 who 0x40000000 false = .error (.trap tr)) ∧ s1.readCard 0 who 0x800100 false = .error .bad ∧ (∃ card, s1.readCard 0 who 0x800000 false = .ok card ∧ card.prio = 0) ∧
       ∃ route, s1.readRoute 0 who 0x800200 = .ok route) ∧
    ((posting {} {}).sched 0).qlen 0 < 64 ∧ 64 ≤ ((posting {} crowd).sched 0).qlen 0 ∧ 16 ≤ ((posting {} crowd).sched 0).routes.length ∧ bit ((holding 0 0x800200 16).S 7).toNat 4 = true ∧
    (∀ v ∈ [2, 0x40000000, 0x800100, 0x800000], ({ posting {} {} with args := [0, 0, v] } : State).args = [0, 0, v]) ∧ bits 2 2 1 ≠ 0 ∧ bits 0x800000 2 0 = 0 ∧
    (let s := posting {} {}
     (∃ tr, s.readCard 0 (s.storePoster 0 0 0x40000000) 0x40000000 false = .error (.trap tr)) ∧ s.readCard 0 (s.storePoster 0 0 0x800100) 0x800100 false = .error .bad ∧
       (∃ card, s.readCard 0 (s.storePoster 0 0 0x800000) 0x800000 false = .ok card ∧ card.prio = 0) ∧
       (s.sched 0).nextId < 2 ^ 32) := by
  have card (s : State) (who : Poster) (h : (s.readCard 0 who 0x800000 false).toOption.map (·.prio) = some 0) : ∃ card, s.readCard 0 who 0x800000 false = .ok card ∧ card.prio = 0 := by
    cases hc : s.readCard 0 who 0x800000 false with
    | error e => rw [hc] at h; cases h
    | ok c => rw [hc] at h; exact ⟨c, rfl, by simpa [Except.toOption] using h⟩
  refine ⟨posting_between, fun x y k _ => by rw [show (posting (holding x y 0) {}).regs (.ctx 0 0) = holding x y 0 from rfl]; simp [Regs.present, holding, has], rfl, rfl, by decide, by decide, ⟨trap_of (by decide +kernel), bad_of (by decide +kernel), card _ _ (by decide +kernel), ok_some _ (by decide +kernel)⟩,
    by decide, by decide +kernel, by decide, by decide, by decide, by decide, by decide, ⟨trap_of (by decide +kernel), bad_of (by decide +kernel), card _ _ (by decide +kernel), by decide⟩⟩

/-- A route whose middle node has one incoming edge, resolved as given, and one outgoing edge. -/
def middle (e kind addr : Nat) : State := posting {} { routes := [(3, { id := 9, nodes := [{ succ := [1], edges := [e] }, { kind := kind, addr := addr, nt := 1, succ := [2], edges := [0] }, {}], poster := poster })] }
theorem witness_RouteNodes : (∀ e ∈ [1, 2], ∀ kind ∈ [1, 2], ∃ r x, (middle e kind 0).route? 0 3 = some r ∧ r.nodes[1]? = some x ∧ x.succ ≠ [] ∧ x.kind = kind ∧
      r.nodes.flatMap (fun y => (y.succ.zip y.edges).filterMap (fun z => if z.1 = 1 then some z.2 else none)) = [e]) ∧
    (middle 1 1 0x800000).postRead { poster with tag := [2, 0, 3, 1] } 0x800000 8 = .ok (List.replicate 8 0) ∧ (middle 1 1 0x800200).postRead { poster with tag := [2, 0, 3, 1] } 0x800200 8 = .ok (leBytes 8 0x800300) ∧
    ∃ tr, (middle 1 1 0x40000000).postRead { poster with tag := [2, 0, 3, 1] } 0x40000000 8 = .error (.trap tr) :=
  ⟨fun e _ kind _ => ⟨_, _, rfl, rfl, by simp, rfl, rfl⟩, ok_eq _ _ (by decide +kernel), ok_eq _ _ (by decide +kernel), trap_of (by decide +kernel)⟩
theorem witness_Placement : (0, -32768) ∈ (posting {} {}).scores 0 ∧ ([(0, (0 : Int))].map (·.1)).Pairwise (· < ·) ∧ placeBands [(0, 0)] 0 (fun _ => true) [] [0] [none] [] = some [⟨0, 0, 0, 1, 1⟩] ∧
    placeBands [(0, 0)] 0 (fun _ => false) [] [0] [none] [] = none := ⟨by decide +kernel, by simp, by decide +kernel, by decide +kernel⟩

/-- The attempt of a partition that holds one manifest. -/
def attempting (j : Job) (cols : W64) : State := { posting {} { jobs := [(3, j)] } with args := [0], parts := [(0, { pcols := [(0, cols)] })] }
/-- A manifest whose reservation is under way, one without records, one that finds a place, and ones of effective priority 7 and 6 that find none. -/
theorem witness_Attempts : (∀ j cols, (attempting j cols).args = [0] ∧ OnlyJob (attempting j cols) 0 3 j ∧ (attempting j cols).agenda = []) ∧ ({ id := 1, st := .reserving } : Job).st = .reserving ∧
    (let j : Job := { id := 1 }
     j.st = .waiting ∧ j.mask = none ∧ j.card.count = 0 ∧ j.route = none ∧ j.edges = [] ∧ j.card.notify = 0) ∧
    (∀ q ∈ [6, 7], let j : Job := { id := 1, card := { count := 5, shapes := [0] }, queue := q }
     let place (cols : W64) := placeBands ((attempting j cols).scores 0) ((attempting j cols).sched 0).kband (attempting j cols).coreFree [] j.card.shapes (j.parity.map some) []
     j.st = .waiting ∧ j.mask = none ∧ 0 < j.card.count ∧ place 0 = none ∧ (place 1).isSome = true ∧ (if ((attempting j 0).sched 0).age = 0 then j.queue else 0) = q) :=
  ⟨fun _ _ => ⟨rfl, ⟨rfl, rfl⟩, rfl⟩, rfl, by decide, by decide +kernel⟩
/-- The reservation of core 5, which has the last answer or not; a caravan of core 1 that starts. -/
def reserving (j : Job) (mark : Bool) : State :=
  { scheds := [(0, { jobs := [(3, j)] })], args := [4], flight := [(4, { chan := 0, ev := ⟨.coreReservation, [4]⟩, words := [0, 3, 5] })], cores := [(5, { mark := mark })] }
theorem keyed_of (s : State) (j : Job) (d : Sched) (h : s.scheds = [(0, d)]) (hd : d.jobs = [(3, j)]) : Keyed s 0 3 j :=
  ⟨by rw [h]; exact List.nodup_singleton 0, by simp [State.sched, h, look, hd], by simp [State.job?, State.sched, h, look, hd]⟩
theorem witness_Reserving : (∀ j mark, (∃ m, (reserving j mark).msg? 4 = some m ∧ m.words = [0, 3, 5]) ∧ Keyed (reserving j mark) 0 3 j) ∧ ({ id := 1, asked := [5, 6] } : Job).asked = 5 :: 6 :: [] ∧
    (reserving { id := 1 } false).coreFree 5 = true ∧ (reserving { id := 1 } true).coreFree 5 = false ∧ ({ id := 1, asked := [5] } : Job).refused = false ∧
    (let j : Job := { id := 1, st := .starting, bands := [⟨0, 0, 1, 1, 1⟩], cores := [1], card := { count := 5 } }
     let s : State := { scheds := [(0, { jobs := [(3, j)] })], args := [0, 3] }
     Keyed s 0 3 j ∧ j.st = .starting ∧ j.saved = none ∧ j.live = [] ∧ (j.bands.flatMap Band.cores).Nodup ∧ j.bands[0]? = some ⟨0, 0, 1, 1, 1⟩ ∧ (⟨0, 0, 1, 1, 1⟩ : Band).cores[0]? = some 1 ∧ j.cores = [1] ∧
       j.dealt = 0 ∧ 0 < j.card.count) :=
  ⟨fun j mark => ⟨⟨_, rfl, rfl⟩, keyed_of _ _ _ rfl rfl⟩, rfl, by decide, by decide, rfl, ⟨keyed_of _ _ _ rfl rfl, rfl, rfl, rfl, by decide +kernel, rfl, by decide, rfl, rfl, by decide⟩⟩
/-- Records that are all dealt, and records left. -/
theorem witness_Dealing : ({ id := 1 } : Job).card.count ≤ 0 ∧
    (let j : Job := { id := 1, st := .resident, card := { count := 5 }, cores := [0], live := [0] }
     let s := posting {} { jobs := [(3, j)] }
     j.dealt < j.card.count ∧ j.cores ≠ [] ∧ Between s 0 0 ∧ (s.regs (.ctx 0 0)).act = false ∧ s.jobOf 0 = some (0, 3, j) ∧ 0 ∈ j.live ∧ j.cores[0]? = some 0 ∧ ∃ d, j.deal = some d) :=
  ⟨by decide, by decide, by decide, posting_between _ _, rfl, by decide, by decide, rfl, ⟨_, rfl⟩⟩

theorem stop_of {α : Type} {x : Try α} (h : (match x with | .error (.trap _) => true | _ => false) = true) : ∃ tr, x = .error (.trap tr) := by
  split at h
  · exact ⟨_, rfl⟩
  · cases h
/-- A resident caravan of core 0 with a save area, whose control context is `c`. -/
def caravan (save : Nat) (preempt : Option Bool) : Job := { id := 7, st := .resident, card := { save := save, count := 5 }, cores := [0], live := [0], preempt := preempt }
def preempting (c : Ctx) (j : Job) (a : List Nat) : State := { owned (holds c) with scheds := [(0, { jobs := [(3, j)] })], args := a }
theorem preempting_keyed (c : Ctx) (j : Job) (a : List Nat) : Keyed (preempting c j a) 0 3 j := keyed_of _ _ _ rfl rfl
/-- Another partition's caravan; one without a save area, one with a frozen context, one that receives its request, at its tick, when a context is still to stop, and when it is held, with a save area that takes the save and with one that does not. -/
theorem witness_CaravanPreemption : bits (2 ^ 32 + 7) 63 32 ≠ 0 ∧ (∀ c j a, Keyed (preempting c j a) 0 3 j) ∧
    (bits 7 63 32 = 0 ∧ bits 7 31 0 = 7 ∧ ∀ e ∈ ((preempting {} (caravan 0 none) [0, 0, 7]).sched 0).jobs, e.2.id = 7 → e = (3, caravan 0 none)) ∧ (caravan 0 none).card.save = 0 ∧ (caravan 0x200000 none).card.save ≠ 0 ∧
    (let s := preempting { st := .waiting, why := 6 } (caravan 0x200000 none) [0, 0, 7]
     ∃ c ∈ (caravan 0x200000 none).cores, ∃ n, n < 4 ∧ (s.ctx (.ctx c n)).st = .waiting ∧ (s.ctx (.ctx c n)).why = 6) ∧
    (let s := preempting { st := .ready } (caravan 0x200000 none) [0, 0, 7]
     ∀ c ∈ (caravan 0x200000 none).cores, ∀ n, n < 4 → ¬ ((s.ctx (.ctx c n)).st = .waiting ∧ (s.ctx (.ctx c n)).why = 6)) ∧
    (caravan 0x200000 (some false)).preempt = some false ∧ (caravan 0 none).cores.Nodup ∧ (caravan 0x200000 (some true)).saved = none ∧
    (let s := preempting { st := .ready } (caravan 0x200000 (some true)) [0, 3]
     ∃ c ∈ (caravan 0x200000 (some true)).cores, ∃ n, n < 4 ∧ (s.ctx (.ctx c n)).live = true ∧ (s.ctx (.ctx c n)).st ≠ .waiting ∧ (s.ctx (.ctx c n)).parked = false) ∧
    (let s := preempting { st := .stalled, r := { save := 0x200000, preReq := true }, saving := some (2, 0), parked := true } (caravan 0x200000 (some true)) [0, 3]
     (s.ctx (.ctx 0 0)).live = true ∧ (s.ctx (.ctx 0 0)).parked = true ∧ (s.ctx (.ctx 0 0)).st ≠ .waiting ∧ (s.ctx (.ctx 0 0)).probes = [] ∧ (∀ i, i < 4 → i ≠ 0 → (s.ctx (.ctx 0 i)).live = false) ∧ s.saveReady 0 0 = true ∧
       ∃ s1, s.makeSave 0 0 ((s.ctx (.ctx 0 0)).saving.getD (2, 0)) = .ok s1) ∧
    (let s := preempting { st := .stalled, r := { save := 0x40000000, preReq := true }, saving := some (2, 0), parked := true } (caravan 0x40000000 (some true)) [0, 3]
     (s.ctx (.ctx 0 0)).live = true ∧ (s.ctx (.ctx 0 0)).lvl = .user ∧ (s.ctx (.ctx 0 0)).chunk.run = false ∧ (s.regs (.ctx 0 0)).tpend = [] ∧ s.saveReady 0 0 = true ∧
       ∃ tr, s.makeSave 0 0 ((s.ctx (.ctx 0 0)).saving.getD (2, 0)) = .error (.trap tr)) :=
  ⟨by decide, preempting_keyed, by decide, rfl, by decide, ⟨0, by decide, 0, by decide⟩, by decide, rfl, by decide, rfl, ⟨0, by decide, 0, by decide⟩,
   ⟨by decide, rfl, by decide, rfl, by decide, by decide +kernel, ok_some _ (by decide +kernel)⟩, ⟨by decide, rfl, rfl, rfl, by decide +kernel, stop_of (by decide +kernel)⟩⟩
/-- Nothing that is named; a faulted job with one open entry, with and without room in the queue; one with a notify word and without; a caravan that runs and one that waits. -/
theorem witness_SupervisorActs : (let s := posting {} {}
      (s.sched 0).jobs = [] ∧ (s.sched 0).routes = []) ∧
    (let j (notify : Nat) : Job := { id := 7, st := .faulted, card := { succ := [0x800000], notify := notify }, edges := [0], poster := poster }
     let d (notify : Nat) (js : Tab Job) : Sched := { jobs := (3, j notify) :: js, sigmask := 1, nextKey := 100 }
     let others := (List.range 64).map (fun k => (k + 10, ({ id := 100 + k } : Job)))
     let faulted (e : Nat × Job) : Bool := e.2.id = 7 && e.2.route.isNone && e.2.st = .faulted
     (∀ notify ∈ [0, 0x900000], ∀ js ∈ [[], others], Keyed (posting {} (d notify js)) 0 3 (j notify) ∧ (d notify js).jobs.find? faulted = some (3, j notify) ∧
       (d notify js).jobs.find? (fun e => faulted e && e.2.edges.contains 0) = some (3, j notify)) ∧ 0x800000 % 8 = 0 ∧
     (∀ js ∈ [[], others], ∃ card, ((posting {} (d 0 js)).setJob 0 3 { j 0 with mask := some 1 }).readCard 0 { poster with tag := [3, 0, 3] } 0x800000 false = .ok card) ∧ (posting {} (d 0x900000 [])).errands = [] ∧ (d 0 []).qlen 0 < 64 ∧ 64 ≤ (d 0 others).qlen 0 ∧
     NoChunks (posting {} (d 0x900000 [])) ∧ (posting {} (d 0x900000 [])).tokenHolder = none ∧ NoBankOps (posting {} (d 0x900000 [])) ∧ (posting {} (d 0x900000 [])).pageHeld 0x900000 = false ∧
       ∃ sl tg, (posting {} (d 0x900000 [])).postCheck poster 0x900000 8 wrR = .ok (.mem sl tg 0x900000)) ∧
    (let s := preempting { st := .ready } (caravan 0 none) [0, 0, 7]
     (∃ c ∈ (caravan 0 none).cores, ∃ n, n < 4 ∧ (s.ctx (.ctx c n)).live = true) ∧ (caravan 0 none).cores.Nodup ∧ (∀ c ∈ (caravan 0 none).cores, ∀ n, n < 4 → (s.ctx (.ctx c n)).st ≠ .waiting ∧ (s.ctx (.ctx c n)).parked = false ∧ (s.ctx (.ctx c n)).loading = false) ∧
       Keyed s 0 3 (caravan 0 none) ∧ ∀ e ∈ (s.sched 0).jobs, e.2.id = 7 → e = (3, caravan 0 none)) ∧
    (let s := preempting { st := .waiting, why := 2 } (caravan 0 none) [0, 0, 7]
     (caravan 0 none).cores = [0] ∧ (caravan 0 none).route = none ∧ s.jobOf 0 = some (0, 3, caravan 0 none) ∧ (s.ctx (.ctx 0 0)).st = .waiting ∧ (s.ctx (.ctx 0 0)).chunk.run = false ∧ (s.core 0).holder ≠ some 0 ∧
       ∀ i, i < 4 → i ≠ 0 → (s.ctx (.ctx 0 i)).live = false) := by
  refine ⟨by decide, ⟨?_, by decide, ?_, rfl, by decide, by decide +kernel, one_noChunks _ _ _ rfl rfl rfl rfl rfl, rfl, quietBank rfl, by decide, memTarget_ok (by decide +kernel)⟩,
    ⟨⟨0, by decide, 0, by decide⟩, by decide, by decide, preempting_keyed _ _ _, by decide⟩, ⟨rfl, rfl, rfl, rfl, rfl, by decide, by decide⟩⟩
  · intro notify hn js hj
    simp only [List.mem_cons, List.not_mem_nil, or_false] at hn hj
    rcases hn with h | h <;> rcases hj with h' | h' <;> subst h <;> subst h' <;> exact ⟨⟨by decide, by decide +kernel, rfl⟩, rfl, rfl⟩
  · intro js hj
    simp only [List.mem_cons, List.not_mem_nil, or_false] at hj
    rcases hj with h | h <;> subst h <;> exact ok_some _ (by decide +kernel)


/-! ## Witnesses: partitions, dark tiers, snapshots -/

/-- PCOLS 0 of partition 0 is written while partition 1 has column 1, and context 0 of core 0 is as given. -/
def joining (c : Ctx) (old v : W64) : State := { holds c with parts := [(0, { pcols := [(0, old)] }), (1, { pcols := [(0, 2)] })], args := [0, 4096 * 0 + 8 * 0, v.toNat] }
theorem joining_quiet (old v : W64) (col : Nat) : QuietColumn (joining {} old v) col := by
  intro core _
  refine ⟨?_, fun n _ => ?_⟩
  · by_cases h : core = 0 <;> simp [State.core, joining, holds, look, h, Ne.symm]
  · by_cases h : core = 0 <;> by_cases hn : n = 0 <;> simp [State.ctx, State.core, joining, holds, look, h, hn, Ctx.live, Ne.symm]
/-- A column of another partition; one in use that would leave; one that joins. -/
theorem witness_Membership : (∀ c old v, (joining c old v).args = [0, 4096 * 0 + 8 * 0, v.toNat] ∧ ((joining c old v).parts.map (·.1)).Nodup) ∧
    (∃ q c, q ≠ 0 ∧ c < 64 ∧ HasColumn (joining {} 0 3) q (64 * 0 + c) ∧ bit 3 c = true) ∧ (∃ c, c < 64 ∧ bit 1 c ≠ bit 0 c ∧ ¬ QuietColumn (joining { st := .ready } 1 0) (64 * 0 + c)) ∧
    (¬ (∃ q c, q ≠ 0 ∧ c < 64 ∧ HasColumn (joining {} 0 1) q (64 * 0 + c) ∧ bit 1 c = true) ∧ ¬ (∃ c, c < 64 ∧ bit 0 c ≠ bit 1 c ∧ ¬ QuietColumn (joining {} 0 1) (64 * 0 + c)) ∧ bit 0 0 = false ∧ bit 1 0 = true) := by
  refine ⟨fun c old v => ⟨rfl, (by decide : [0, 1].Nodup)⟩, ⟨1, 1, by decide, by decide, by unfold HasColumn; decide, by decide⟩, ⟨0, by decide, by decide, fun h => ?_⟩, ?_, fun ⟨c, _, _, h⟩ => h (joining_quiet 0 1 _), by decide, by decide⟩
  · have h := (h 0 (by decide)).2 0 (by decide)
    simp [State.ctx, State.core, joining, holds, look, Ctx.live] at h
  · rintro ⟨q, c, hq, _, h, hb⟩
    have hc : c = 0 := by
      by_contra hc
      have : bit 1 c = false := by
        have : ∀ c : Fin 64, c.val ≠ 0 → bit 1 c.val = false := by decide
        exact this ⟨c, by assumption⟩ hc
      rw [this] at hb; cases hb
    subst hc
    have h2 := h.2
    by_cases h1 : q = 1
    · subst h1; revert h2; decide
    · simp [State.part, joining, look, Ne.symm hq, Ne.symm h1, bit] at h2

/-- A band that is not there, one that has stopped, one that stops beside a band that goes on. -/
def twoBands : Job := { id := 7, st := .resident, card := { count := 5 }, bands := [⟨0, 0, 0, 1, 1⟩, ⟨0, 0, 1, 1, 1⟩], cores := [0, 1], live := [0, 1] }
def banded (c : Ctx) (stopped : Bool) : State := { posting {} { jobs := [(3, twoBands)] } with cores := [(0, { ctxs := [(0, c)], stopped := stopped }), (1, { ctxs := [(0, { st := .ready })] })], args := [0, 0, 7] }
theorem witness_BandStops : (∀ e ∈ ((posting {} {}).sched 0).jobs, e.2.st ≠ .resident ∨ e.2.id ≠ bits 7 31 0) ∧ (∀ c b, (banded c b).args = [0, 0, 7] ∧ Keyed (banded c b) 0 3 twoBands) ∧ bits 7 37 32 = 0 ∧ twoBands.st = .resident ∧
    twoBands.id = bits 7 31 0 ∧ (∀ e ∈ ((banded {} false).sched 0).jobs, e.2.id = bits 7 31 0 → e = (3, twoBands)) ∧ twoBands.bands[bits 7 53 48]? = some ⟨0, 0, 0, 1, 1⟩ ∧ (∃ c ∈ (⟨0, 0, 0, 1, 1⟩ : Band).cores, ((banded {} true).core c).stopped = true) ∧
    (∀ c ∈ (⟨0, 0, 0, 1, 1⟩ : Band).cores, ((banded {} false).core c).stopped = false) ∧ twoBands.cores.Nodup ∧ (0 ∈ (⟨0, 0, 0, 1, 1⟩ : Band).cores ∧ 1 ∉ (⟨0, 0, 0, 1, 1⟩ : Band).cores) ∧
    (∀ st ∈ [CtxSt.ready, CtxSt.waiting], ((banded { st := st } false).ctx (.ctx 0 0)).live = true ∧ ((banded { st := st } false).ctx (.ctx 1 0)).live = true) :=
  ⟨by decide, fun _ _ => ⟨rfl, keyed_of _ _ _ rfl rfl⟩, by decide, rfl, by decide, by decide +kernel, by decide, by decide, by decide, by decide, by decide, by decide⟩
theorem witness_PartitionReset : let s : State := { owned (runs {}) with args := [0, 0, 1] }
    s.args = 0 :: 0 :: [1] ∧ NoChunks s ∧ (s.cores.map (·.1)).Nodup ∧ HasColumn s 0 0 := ⟨rfl, runs_noChunks _ _, List.nodup_singleton 0, by unfold HasColumn; decide⟩
/-- A band index that the caravan does not have; an engine operation that runs in a column of the partition that is reset. -/
theorem witness_BandIndexAndRunningEngine : (bits (5 * 2 ^ 48 + 7) 37 32 = 0 ∧ (∀ e ∈ ((banded {} false).sched 0).jobs, e.2.id = bits (5 * 2 ^ 48 + 7) 31 0 → e = (3, twoBands)) ∧ twoBands.bands[bits (5 * 2 ^ 48 + 7) 53 48]? = none) ∧
    (let s : State := { owned (holds { st := .ready, slots := [(2, { st := .running })] }) with args := [0, 0, 1] }
     HasColumn s 0 (colOf 0) ∧ (look {} (s.ctx (.ctx 0 0)).slots 2).st = .running ∧ NoChunks s ∧ (s.cores.map (·.1)).Nodup) :=
  ⟨⟨by decide, by decide +kernel, by decide⟩, by unfold HasColumn; decide, by decide, holds_noChunks _ rfl, List.nodup_singleton 0⟩
/-- A tier with a sector held for it; a column of a partition and one of none. -/
theorem witness_DarkTiers : (let s : State := { args := [0, 0, 0], dark := [0], slices := [(0, { sectors := [{ tag := dramTag, kept := true }] })] }
      ∃ l ∈ s.slices, ∃ e ∈ l.2.sectors, e.kept = true ∧ isDram (e.tag.key * 256) = true ∧ tierOf (e.tag.key * 256) = 8 * 0 + 0) ∧
    (let s : State := { owned (runs {}) with args := [1, 0, 0] }
     (s.partOfCol (64 * 0 + 0)).isSome = true) ∧ (({ args := [1, 0, 0] } : State).partOfCol (64 * 0 + 0) = none ∧ ({ args := [1, 0, 0] } : State).darkCols.contains (64 * 0 + 0) = false) := by
  refine ⟨⟨_, List.mem_singleton.2 rfl, _, List.mem_singleton.2 rfl, rfl, by decide, by decide⟩, by decide +kernel, rfl, rfl⟩
/-- The pin and the timer armed, the timer passed and not; a trigger that is pending, and a core with a holder. -/
theorem witness_Snapshots : bit (({ snap := { ctl := 4 } } : State).snap.ctl).toNat 2 = true ∧ bit (({} : State).snap.ctl).toNat 2 = false ∧
    (let s : State := { time := 9, snap := { ctl := 2, tcmp := 9 } }
     bit s.snap.ctl.toNat 1 = true ∧ s.snap.tcmp ≠ 0 ∧ s.snap.tcmp.toNat ≤ s.time) ∧ ({ time := 8, snap := { ctl := 2, tcmp := 9 } } : State).time < (9 : W64).toNat ∧ ({} : State).snap.due = none ∧
    (let s : State := { snap := { due := some 1000 }, cores := [(0, { holder := some 0 })] }
     s.snap.due = some 1000 ∧ s.snap.latched + 1 < 2 ^ 32 ∧ (s.core 0).holder = some 0 ∧ (s.core 1).holder = none) ∧ (bit (({ snap := { ctl := 0x200 } } : State).snap.ctl).toNat 9 = true) ∧
    (({ darkCols := [7] } : State).darkCols.contains 7 = true ∧ ({ darkCols := [7] } : State).darkCols.contains 8 = false) := by decide


/-! ## Witnesses: translation, migration, promotion, fills -/

/-- The pages of 64 KiB below 2 MiB lie in frames 64 to 95, in the order of their addresses; the next 2 MiB are one page. -/
def pagedMem : List Host.Cell :=
  ((({ mem := tableCells } : State).writeBytes 0x4000 (leBytes 8 0x6001)).writeBytes 0x6000 (leBytes 8 0x7001 ++ leBytes 8 0x200003) |>.writeBytes 0x7000 ((List.range 32).flatMap (fun i => leBytes 8 ((64 + i) * 2 ^ 16 + 3)))).mem
def pagedState (x : Xlat) (a : List Nat) (fl : Tab Msg) : State := { mem := pagedMem, trRoot := 0x1001, xlat := x, args := a, flight := fl }
theorem idle_noChunks (s : State) (h1 : s.cores = []) (h2 : s.iluet.chunk.run = false) (h3 : s.slices = []) : NoChunks s := by
  intro b
  cases b with
  | iluet => exact h2
  | ws k => simp [State.ctx, State.slice, h3, look]
  | ctx k n => simp [State.ctx, State.core, h1, look]
/-- The leaf of page 5. -/
def pageFive : Leaf := { frame := 69, size := 16, level := 4, entry := 0x7028 }

/-- A malformed TINV and a good one; a granule of a chunk with priority, and of one without; a dirty sector. -/
theorem witness_Invalidation : ¬ GoodTinv 15 ∧ GoodTinv (0x100000 + 16) ∧ InRange (bits (0x100000 + 16) 55 16 * 2 ^ 16) (2 ^ bits (0x100000 + 16) 5 0) (0x1000 * 256) ∧
    (∀ tok, let s : State := { holds { st := .ready, token := tok, chunk := { run := true, vas := [0x1000] } } with args := [0, 0x100000 + 16], tokenHolder := if tok then some 0 else none }
      (s.ctx (.ofCode 0)).token = tok ∧ (s.ctx (.ofCode 0)).chunk.run = true ∧ 0x1000 ∈ (s.ctx (.ofCode 0)).chunk.vas ∧ Agent.ctx 0 0 ∈ s.agents ∧ (tok = false → s.tokenHolder = none) ∧ (tok = true → s.tokenHolder = some 0)) ∧
    (let s : State := { args := [0, 0x100000 + 16], slices := [(0, { sectors := [{ tag := dramTag, dirty := true }] })] }
     InRange 0x100000 (2 ^ 16) (dramTag.va * 256) ∧ s.darkAt (dramTag.key * 256) = false ∧ s.tokenHolder = none) :=
  ⟨by unfold GoodTinv; decide, by unfold GoodTinv; decide, by unfold InRange; decide, fun tok => ⟨rfl, rfl, List.mem_singleton.2 rfl, by simp [State.agents, holds], by simp, by simp⟩, by unfold InRange; decide⟩

/-- A migration count of page 5, or of page 0x100000000. -/
def counting (x : Xlat) (words : List Nat) : State := pagedState x [4] [(4, { chan := 0, ev := ⟨.migrationCount, [4]⟩, words := words })]
/-- A pool ring for stack 1 and pages of 64 KiB, with one entry. -/
def pooled : Xlat := { rings := [(0x120, 0x200000), (0x128, n64 (4 * 2 ^ 48 + 1))] }
/-- No threshold; a page whose count is met: pinned, held by no engine, with an empty pool and with a frame in it. -/
theorem witness_Counting : (∀ thresh ∈ [0, 1], ∃ m, (counting pooled [0x50000, 0, 1, thresh]).msg? 4 = some m ∧ m.words = [0x50000, 0, 1, thresh]) ∧ ¬ ((0 : Nat) ≠ 0) ∧
    ((1 : Nat) ≠ 0 ∧ (1 : Nat) ≠ 0 ∧ 1 ≤ min 65535 (unitCount (counting pooled []) (64 * 0 + bits 0x50000 21 16) (bits 0x50000 55 16) 1 + 1) ∧
      unitCount (counting pooled []) (64 * 0 + bits 0x50000 21 16) (bits 0x50000 55 16) 0 < min 65535 (unitCount (counting pooled []) (64 * 0 + bits 0x50000 21 16) (bits 0x50000 55 16) 1 + 1)) ∧
    (counting pooled []).walk 0x50000 = .ok pageFive ∧ pageFive.ty = 0 ∧ pageFive.pin = false ∧ pageFive.size ≠ 30 ∧ pageFive.stack = 0 ∧ (counting pooled []).heldOver (bits 0x50000 55 0 / 2 ^ 16 * 2 ^ 16) (2 ^ 16) = false ∧
    (∃ l, (runs {}).walk 0x100000 = .ok l ∧ l.size = 30) ∧ PoolEmpty (counting {} []) 0x120 ∧ (counting pooled []).darkAt (pageFive.key 0x50000) = false ∧
    PoolHead (counting pooled []) 0x120 0 (4 * 2 ^ 48 + 0 * 2 ^ 32 + 1 * 2 ^ 16 + 1) := by
  refine ⟨fun thresh _ => ⟨_, rfl, rfl⟩, by decide, by decide, ok_eq _ _ (by decide +kernel), rfl, rfl, by decide, rfl, by decide, ?_, by unfold PoolEmpty; decide, by decide, ?_⟩
  · have h : ((runs {}).walk 0x100000).toOption.map (·.size) = some 30 := by decide +kernel
    cases hw : (runs {}).walk 0x100000 with
    | error e => rw [hw] at h; cases h
    | ok l => rw [hw] at h; exact ⟨l, rfl, by simpa [Except.toOption] using h⟩
  · obtain ⟨sl, tg, ht⟩ := memTarget_ok (t := (counting pooled []).devCheck none 0x200000 8 rdR) (key := 0x200000) (by decide +kernel)
    exact ⟨by decide, by decide, ⟨_, _, ht, rfl, rfl⟩, by decide⟩

/-- The page 5 on its way to frame 7 of stack 1, about to be copied, or with its old frame to give back. -/
def moving_ (x : Xlat) (words : List Nat) : State := pagedState x [4] [(4, { chan := 0, ev := ⟨.migrationFinish, [4]⟩, words := words })]
theorem witness_Migrations : (∃ m, Moving (moving_ {} [0x50000, 1, 7, 0, 0, 0x50000, 2 ^ 16]) 4 0x50000 1 7 0 pageFive m) ∧
    (let s := moving_ {} [0x50000, 1, 7, 0, 0, 0x50000, 2 ^ 16]
     let src := dramKey 0 (69 * 2 ^ 16)
     let dst := dramKey 1 (7 * 2 ^ 16)
     (src + 2 ^ 16 ≤ dst ∨ dst + 2 ^ 16 ≤ src) ∧ Apart s pageFive.entry src (2 ^ 16) ∧ Apart s pageFive.entry dst (2 ^ 16) ∧ s.freedRoom = 0) ∧
    (∃ m, (moving_ {} [0x50000, 1, 7, 0, 1, 0x50000, 2 ^ 16, 69]).msg? 4 = some m ∧ m.words = [0x50000, 1, 7, 0, 1, 0x50000, 2 ^ 16, 69]) ∧
    (let s := moving_ { rings := [(0x200, 0x200000), (0x208, n64 (4 * 2 ^ 48))] } [0x50000, 1, 7, 0, 1, 0x50000, 2 ^ 16, 69]
     s.freedRoom ≠ 0 ∧ NoChunks s ∧ NoBankOps s ∧ ∃ sl tg, s.devCheck none 0x200000 8 wrR = .ok (.mem sl tg 0x200000)) := by
  refine ⟨⟨_, rfl, rfl, rfl, ok_eq _ _ (by decide +kernel), .inl rfl, ⟨rfl, idle_noChunks _ rfl rfl rfl, oneBank _ _ rfl (fun h => nomatch h)⟩, by unfold State.sound; decide +kernel⟩, ⟨by decide, ?_, ?_, rfl⟩, ⟨_, rfl, rfl⟩,
    ⟨by decide, idle_noChunks _ rfl rfl rfl, oneBank _ _ rfl (fun h => nomatch h), memTarget_ok (by decide +kernel)⟩⟩ <;> (intro o ho; refine ⟨?_, rfl⟩; left)
  · have h : pageFive.entry + 8 ≤ dramKey 0 (69 * 2 ^ 16) := by decide
    omega
  · have h : pageFive.entry + 8 ≤ dramKey 1 (7 * 2 ^ 16) := by decide +kernel
    omega

/-- A store to PROMOTE, or a promotion under way, of the 2 MiB from 0. -/
def promoting_ (x : Xlat) (t : Nat) : State := pagedState x [0, t] []
def promotingNow (t : Nat) (x : Xlat := {}) : State := pagedState x [4] [(4, { chan := 0, ev := ⟨.promotionFinish, [4]⟩, words := [t, 0] })]
/-- The leaves of the 2 MiB from 0. -/
def leaves : List Leaf := (List.range 32).map (fun i => { frame := 64 + i, size := 16, level := 4, entry := 0x7000 + 8 * i })
theorem promoting_walks : ∀ x ∈ [({} : Xlat), { promoting := [0] }, { rings := [(0x200, 0x200000), (0x208, n64 (64 * 2 ^ 48))] }],
    (promoting_ x 0).walk 0 = .ok { frame := 64, size := 16, level := 4, entry := 0x7000 } ∧ (promoting_ x 0).promoteLeaves 0 false = some leaves := by
  intro x hx
  simp only [List.mem_cons, List.not_mem_nil, or_false] at hx
  rcases hx with h | h | h <;> subst h <;> exact ⟨ok_eq _ _ (by decide +kernel), by decide +kernel⟩
theorem promotingNow_leaves : (promotingNow 0x200000).promoteLeaves 0x200000 false = none ∧ (promotingNow 0).promoteLeaves 0 false = some leaves ∧ (promotingNow 0).entryKey 0 3 = some 0x6000 ∧
    (let freed := leaves.map (·.frame) ++ [bits ((promotingNow 0).rawValue 0x6000 8) 47 8 * 2 ^ 8]
     let u (x : Xlat) := ((promotingNow 0 x).drop 4).mergePages { frame := 64, size := 16, level := 4, entry := 0x7000 } leaves.tail 0x6000 0 (2 ^ 21) 16
     ((u {}).freeFrames freed).isNone = true ∧ ((u { rings := [(0x200, 0x200000), (0x208, n64 (64 * 2 ^ 48))] }).freeFrames freed).isSome = true) :=
  ⟨by decide +kernel, by decide +kernel, by decide +kernel, by decide +kernel, by decide +kernel⟩
theorem promotingNow_apart : Apart (promotingNow 0) 0x6000 (dramKey 0 (64 * 2 ^ 16 / 2 ^ 21 * 2 ^ 21)) (2 ^ 21) ∧ ∀ l ∈ leaves, Apart (promotingNow 0) 0x6000 (dramKey l.stack (l.frame * 2 ^ 16)) (2 ^ 16) := by
  refine ⟨fun o ho => ?_, fun l hl o ho => ?_⟩
  · have h : dramKey 0 (64 * 2 ^ 16 / 2 ^ 21 * 2 ^ 21) = 0x400000 := by decide
    exact ⟨by omega, rfl⟩
  · have h : ∀ l ∈ leaves, 0x400000 ≤ dramKey l.stack (l.frame * 2 ^ 16) := by decide +kernel
    have := h l hl
    exact ⟨by omega, rfl⟩
theorem promotingNow_state : ∀ t, (∃ m, (promotingNow t).msg? 4 = some m ∧ m.words = [t, 0]) ∧ (promotingNow t).args = [4] ∧ (promotingNow t).tokenHolder = none ∧ NoBankOps (promotingNow t) ∧ ((promotingNow t).unhold (bits t 55 21 * 2 ^ 21) (2 ^ 21)).heldOver (bits t 55 21 * 2 ^ 21) (2 ^ 21) = false ∧ NoChunks (promotingNow t) ∧
    State.sound (promotingNow t) :=
  fun t => ⟨⟨_, rfl, rfl⟩, rfl, rfl, oneBank _ _ rfl (fun h => nomatch h), by rfl, idle_noChunks _ rfl rfl rfl, (by decide +kernel : Memory.wf pagedMem = true)⟩
theorem witness_Promotions :
    (let base (t : Nat) := bits t 55 21 * 2 ^ 21
     bits 2 20 1 ≠ 0 ∧ (bits 0 63 56 = 0 ∧ bits 0 20 1 = 0 ∧ base 0 % 2 ^ 21 = 0) ∧ base 0x40000000 = 0x40000000 ∧ base 0x200000 = 0x200000) ∧
    (∃ e, (promoting_ {} 0x40000000).walk 0x40000000 = .error e) ∧ ((∃ f, (promoting_ {} 0x200000).walk 0x200000 = .ok f) ∧ (promoting_ {} 0x200000).promoteLeaves 0x200000 false = none) ∧
    (promoting_ {} 0).pageHeld 0 = false ∧ (promoting_ {} 0).freedRoom < leaves.length + 1 ∧ leaves.length + 1 ≤ (promoting_ { rings := [(0x200, 0x200000), (0x208, n64 (64 * 2 ^ 48))] } 0).freedRoom ∧
    leaves[5]? = some pageFive :=
  ⟨by decide, error_some _ (by decide +kernel), ⟨ok_some _ (by decide +kernel), by decide +kernel⟩, by decide, by decide, by decide, by decide⟩

/-- Fill data of a sector that no cache holds; writes of tr.root and of PRSV. -/
theorem witness_FillsAndRegisters :
    (let s : State := { pagedState {} [0, 0x100000] [] with slices := [(0, { table := fills })] }
     s.walk 0x100000 = .ok { frame := 80, size := 16, level := 4, entry := 0x7080 } ∧ homeSlice 0 0x100000 = 0 ∧ (s.slice 0).find 0x100000 = none ∧ NoBankOps s ∧ (State.makeRoom 17 s 0 (0x100000 / 256 / 4) (80 * 2 ^ 16 / 256 / 4)).2 = true ∧
       s.darkLine ⟨0x100000 / 256, 80 * 2 ^ 16 / 256, 0, 0, 0⟩ = false ∧ 0x100000 / 1024 ∉ (s.slice 0).noAlloc ∧ (s.slice 0).handler 1 (0x100000 / 256 * 256 / 1024 * 1024) 0 = some 0 ∧ (s.slice 0).queue.length ≤ 30) ∧
    (let s : State := { args := [4, 0xFF02 * 2 ^ 48, 5] }
     s.args = [4, 0xFF02 * 2 ^ 48, 5]) ∧ ({ args := [4, 0xFF04 * 2 ^ 48 + 4096 * 0 + 0x48, 5] } : State).args = [4, 0xFF04 * 2 ^ 48 + 4096 * 0 + 0x48, 5] :=
  ⟨⟨ok_eq _ _ (by decide +kernel), by decide, rfl, quietBank rfl, by decide +kernel, by decide, by decide, by decide, by decide⟩, rfl, rfl⟩


/-! ## Witnesses: starts, checkpoints, the host -/

theorem witness_Starts : ({ args := [5] } : State).args = [5] ∧ 5 < 2 ^ 64 ∧ NoChunks ({ args := [5] } : State) ∧ NoBankOps ({ args := [5] } : State) :=
  ⟨rfl, by decide, idle_noChunks _ rfl rfl rfl, quietBank rfl⟩
/-- Every stage of a start, warm with memory kept, warm without, and cold; a limit that comes in time and one that comes late. -/
theorem witness_StartSteps : (∀ k ok warm keep, let s : State := { args := [9, ok], boot := { stage := k, no := 9, isWarm := warm, keep := keep } }
      s.args = [9, ok] ∧ (9 = s.boot.no ∧ s.boot.fail = false) ∧ s.boot.stage = k ∧ s.boot.isWarm = warm ∧ s.boot.keep = keep) ∧ (8 : Nat) ≠ ({ boot := { no := 9 } } : State).boot.no ∧
    (let s : State := { args := [9], boot := { stage := 3, no := 9 } }
     9 = s.boot.no ∧ s.boot.fail = false ∧ s.boot.done = false) ∧
    (let s : State := {}
     s.boot.stage = 7 ∧ s.boot.fail = false ∧ s.boot.done = false) ∧ (let s : State := { boot := { stage := 3 } }
     s.boot.stage ≠ 7) := ⟨fun _ _ _ _ => ⟨rfl, ⟨rfl, rfl⟩, rfl, rfl, rfl⟩, by decide, by decide, by decide, by decide⟩
/-- Two reports of one start, whose stages are 3. -/
theorem witness_Attestation_same : let s (nonce : List Byte) : State := { boot := { mrun := true, stages := 3, count := 2, nonce := nonce } }
    (s []).boot.mrun = true ∧ (s [1]).boot.mrun = true ∧ (s []).boot.count = (s [1]).boot.count ∧ (s []).boot.isWarm = (s [1]).boot.isWarm ∧ (s []).boot.stages = (s [1]).boot.stages ∧ (s []).boot.stages ≤ 64 := by decide
theorem witness_Attestation : (let s : State := { args := [1], boot := { mrun := true } }
      s.boot.mrun = true) ∧ (let s : State := { args := [1] }
      s.args = [1] ∧ s.boot.mrun = false) ∧ (let s : State := { boot := { mrun := true, nonce := List.replicate 32 7 } }
      s.boot.mrun = true ∧ s.boot.nonce[3]? = some 7) := by decide
/-- A checkpoint that runs; no link and one; engines at work and none; a byte of DRAM and one of a scratchpad. -/
theorem witness_Checkpoints : ({ args := [0], boot := { ckRun := true } } : State).boot.ckRun = true ∧
    (let s : State := { args := [0] }
     s.boot.ckRun = false ∧ (s.hostPort 0).up = false ∧ (s.hostPort 1).up = false) ∧
    (let s : State := { args := [0], ports := [(0, { up := true })] }
     s.boot.ckRun = false ∧ (s.hostPort 0).up = true) ∧
    (let s : State := { engaged {} { st := .running } with boot := { ckRun := true } }
     s.boot.ckRun = true ∧ s.unitsBusy = true) ∧
    (let s : State := { holds chunky with boot := { ckRun := true } }
     .ctx 0 0 ∈ s.agents ∧ s.unitsBusy = false ∧ (s.ctx (.ctx 0 0)).chunk.run = true) ∧
    (let s : State := { runs {} with boot := { ckRun := true, ckBad := true }, dark := [0] }
     s.boot.ckRun = true ∧ s.unitsBusy = false ∧ NoChunks s ∧ NoBankOps s ∧ State.sound s ∧ s.dark.Nodup ∧ (∀ t ∈ s.dark, t < 64) ∧ s.boot.ckBad = true ∧ imageByte s (2 ^ 32 + 5) (4096 + 5) ∧
       imageByte s (scratchKey 3 7) (4096 + 63 * 2 ^ 32 + 3 * 2 ^ 17 + 7)) := by
  refine ⟨rfl, ⟨rfl, rfl, rfl⟩, ⟨rfl, rfl⟩, ⟨rfl, by decide +kernel⟩, ⟨by decide +kernel, by decide +kernel, rfl⟩, rfl, by decide +kernel, runs_noChunks {} .user, quietBank rfl, by unfold State.sound; decide +kernel, List.nodup_singleton 0, by decide, rfl, .inl ⟨1, by decide, by decide, by decide, by decide, by decide⟩,
    .inr ⟨3, 7, by decide, by decide, rfl, by decide +kernel⟩⟩
theorem witness_PortLinks : let s : State := { args := [0], boot := { ckRun := true }, ports := [(0, { up := true })] }
    s.args = [0] ∧ s.boot.ckRun = true ∧ ({ s.hostPort 0 with up := false } : Port).up = false ∧ (s.hostPort 1).up = false := by decide
/-- A ring without room and one with room; bits that break the form; a dark column, a partition that does not have the column, and one that does. -/
theorem witness_Doorbells : (∀ w0 ∈ [0, 1], ({ args := [0, w0 + 2 ^ 64 * 0x100 + 2 ^ 128 * 1 + 2 ^ 192 * 2] } : State).args = [0, w0 + 2 ^ 64 * 0x100 + 2 ^ 128 * 1 + 2 ^ 192 * 2]) ∧
    (let h : Port := {}
     ¬ (bits h.cptr.toNat 63 48 ≠ 0 ∧ ∀ i, i ≤ (owned {}).couriersOf 0 → (bits h.cptr.toNat 47 32 + 1 + i) % bits h.cptr.toNat 63 48 ≠ bits h.cptr.toNat 15 0) ∧ h.cring.toNat / 16 * 16 + 16 * 0 + 16 ≤ 2 ^ 64) ∧
    (let h : Port := { cptr := n64 (4 * 2 ^ 48) }
     bits h.cptr.toNat 63 48 ≠ 0 ∧ ∀ i, i ≤ (owned {}).couriersOf 0 → (bits h.cptr.toNat 47 32 + 1 + i) % bits h.cptr.toNat 63 48 ≠ bits h.cptr.toNat 15 0) ∧ bits 1 27 0 ≠ 0 ∧
    (bit 0 47 = false ∧ bits 0 27 0 = 0 ∧ bits 0 43 36 < 112 ∧ bits 0 35 28 < 112) ∧ coreOf 0 0 0 = 0 ∧ 0 ∈ ({ darkCols := [0] } : State).darkCols ∧
    ({} : State).partOfCol 0 ≠ some 0 ∧ (owned {}).partOfCol 0 = some (({} : Port).dom.toNat / 2 ^ 10) ∧ (∀ k, 2 ^ 64 ≤ k → has ({} : State).under k = false) := by
  refine ⟨by decide, by decide, by decide, by decide, by decide, by decide, by decide, by decide, by decide +kernel, fun _ _ => rfl⟩

/-- The host's message, to port 0 with link up, HC.RIGHTS as given. -/
def hosted (words : List Nat) (rights : Tab PlbEntry) (ckRun : Bool := false) : State :=
  { owned (runs {}) with args := [4], flight := [(4, { chan := 0, ev := ⟨.hostWrite, [4]⟩, words := words })], ports := [(0, { up := true, rights := rights })], boot := { ckRun := ckRun } }
theorem hosted_msg (words : List Nat) (rights : Tab PlbEntry) (b : Bool) : HostMsg (hosted words rights b) words := ⟨4, _, rfl, rfl, rfl⟩
/-- Every register of BAR0, an offset that is not listed, an access of 4 bytes, a window of a partition that is closed and of one that is not. -/
theorem witness_ControlBlock : (∀ words, HostMsg (hosted words []) words) ∧ (let listed (off : Nat) : Prop := off < 0x48 ∨ (0x100 ≤ off ∧ off < 0x200) ∨ ((0x400000 ≤ off ∧ off < 0x800000) ∧ bit (({} : Port).pmask).toNat ((off - 0x400000) / 2 ^ 16) = true) ∨
      (0x800000 ≤ off ∧ off < 0x801000) ∨ (0x900000 ≤ off ∧ off < 0x910000)
     ¬ listed 0x48 ∧ ¬ listed 0x400000 ∧ listed 0 ∧ ¬ ((4 : Nat) = 8)) ∧ bit 0x8000000000000000 63 = true ∧ bit 5 63 = false := ⟨fun _ => hosted_msg _ _ _, by decide, by decide, by decide⟩
/-- No entry of the domain; DRAM with the rights; a checkpoint that runs. -/
theorem witness_HostMemory : (∀ words rights ck, HostMsg (hosted words rights ck) words) ∧ ((hosted [] []).hostPort 0).abase.toNat + 0x100000 < 2 ^ 63 ∧ (∀ e ∈ ((hosted [] []).hostPort 0).rights, e.2.v = true → e.2.dom ≠ 0) ∧
    (∀ need ∈ [rdR, wrR], ∃ k tag key, (hosted [] [(0, allRights)]).hostTargets 0 0x100000 8 need = .ok [(0x100000, 8, .mem k tag key)]) ∧ (hosted [] [(0, allRights)]).noBad = true ∧
    (hosted [] [(0, allRights)]).tokenHolder = none ∧ (hosted [] [(0, allRights)]).pageHeld 0x100000 = false ∧ NoChunks (hosted [] [(0, allRights)]) ∧ NoBankOps (hosted [] [(0, allRights)]) ∧ State.sound (hosted [] [(0, allRights)]) := by
  refine ⟨hosted_msg, by decide, by decide, ?_, rfl, rfl, by decide, runs_noChunks _ _, oneBank _ _ rfl (fun h => nomatch h), by unfold State.sound; decide +kernel⟩
  intro need hn
  simp only [List.mem_cons, List.not_mem_nil, or_false] at hn
  rcases hn with h | h <;> subst h <;> exact ⟨0, dramTag, 0x100000, ok_eq _ _ (by decide +kernel)⟩
theorem witness_Snoops : (∀ words, HostMsg (hosted words [(0, allRights)]) words) ∧ (hosted [] []).tokenHolder = none ∧ NoChunks (hosted [] []) ∧ NoBankOps (hosted [] []) ∧ State.sound (hosted [] []) ∧
    (let s := hosted [0, 0x100000] [(0, allRights)]
     (∃ va k key tag, s.hostTargets 0 0x100000 1 {} = .ok [(va, 1, .mem k tag key)] ∧ s.outsideWaits [(va, 1, .mem k tag key)] = false)) ∧
    (let s : State := { hosted [0, 0x100000] [(0, allRights)] with cores := [(0, { ctxs := [(0, { st := .ready, chunk := { run := true, reads := [0x1000] } })] })] }
     Agent.ctx 0 0 ∈ s.agents ∧ (s.ctx (.ctx 0 0)).chunk.run = true ∧ (s.ctx (.ctx 0 0)).token = false ∧ 0x1000 ∈ (s.ctx (.ctx 0 0)).chunk.reads) :=
  ⟨fun _ => hosted_msg _ _ _, rfl, runs_noChunks _ _, oneBank _ _ rfl (fun h => nomatch h), by unfold State.sound; decide +kernel, ⟨0x100000, 0, 0x100000, dramTag, ok_eq _ _ (by decide +kernel), by decide +kernel⟩, by decide +kernel⟩

/-! ## Witnesses: trail links, other modules -/

/-- A message first on its channel; the links, flows and rights of other modules. -/
def linked (words : List Nat) (s : State) : State := { s with args := [4], flight := [(4, { chan := 0, ev := ⟨.trailFlitReceive, [4]⟩, words := words })] }
theorem linked_arrived (words : List Nat) (s : State) : Arrived (linked words s) 4 words := ⟨rfl, _, rfl, rfl⟩
theorem witness_Links : bit (({ args := [3] } : State).tlTrain) 3 = false ∧ bit (({ args := [3], tlTrain := 8 } : State).tlTrain) 3 = true ∧ bit (look 0 (({ flows := [(2, n64 (2 ^ 35))] } : State).flows) 2).toNat (32 + 3) = true := by decide
/-- A flit of 248 bytes and its check, to which something is added. -/
def withCheck (body : List Nat) (k : Nat) : List Nat := body ++ (List.range 8).map (fun i => (Config.crc64 (body.map (BitVec.ofNat 8)) + k) / 256 ^ i % 256)
theorem withCheck_take {body : List Nat} (k : Nat) (h : body.length = 248) : (withCheck body k).take 248 = body := by
  rw [withCheck, List.take_left' h]
theorem withCheck_digit {body : List Nat} (k : Nat) (h : body.length = 248) (i : Nat) (hi : i < 8) :
    (withCheck body k).getD (248 + i) 0 = (Config.crc64 (body.map (BitVec.ofNat 8)) + k) / 256 ^ i % 256 := by
  simp only [withCheck, List.getD_eq_getElem?_getD]
  rw [List.getElem?_append_right (by omega), show 248 + i - body.length = i by omega]
  simp [hi]
theorem withCheck_sum {body : List Nat} (k : Nat) (h : body.length = 248) : fieldAt (withCheck body k) 248 8 =
    ((List.range 8).map (fun i => (Config.crc64 (body.map (BitVec.ofNat 8)) + k) / 256 ^ i % 256 * 256 ^ i)).sum := by
  unfold fieldAt
  congr 1
  refine List.map_congr_left fun i hi => ?_
  rw [withCheck_digit k h i (List.mem_range.1 hi)]
theorem sum_digits (c n : Nat) : ((List.range n).map (fun i => c / 256 ^ i % 256 * 256 ^ i)).sum = c % 256 ^ n := by
  induction n with
  | zero => simp [Nat.mod_one]
  | succ n ih => rw [List.range_succ, List.map_append, List.sum_append, ih, Nat.mod_pow_succ, Nat.mul_comm (256 ^ n)]; simp
theorem withCheck_crc {body : List Nat} (k : Nat) (h : body.length = 248) (hk : k ≤ 1) : GoodCrc (withCheck body k) ↔ k = 0 := by
  unfold GoodCrc
  rw [withCheck_take k h, withCheck_sum k h]
  rw [sum_digits, show (256 : Nat) ^ 8 = 2 ^ 64 by norm_num]
  omega
theorem withCheck_flit {body : List Nat} (k : Nat) (h : body.length = 248) (hb : ∀ x ∈ body, x < 256) : Flit (withCheck body k) := by
  refine ⟨by simp [withCheck, h], fun x hx => ?_⟩
  rcases List.mem_append.1 hx with hx | hx
  · exact hb x hx
  · obtain ⟨i, _, rfl⟩ := List.mem_map.1 hx
    exact Nat.mod_lt _ (by decide)
theorem withCheck_field {body : List Nat} (k lo n : Nat) (h : body.length = 248) (hn : lo + n ≤ 248) : fieldAt (withCheck body k) lo n = fieldAt body lo n := by
  unfold fieldAt
  congr 1
  refine List.map_congr_left fun i hi => ?_
  have hi := List.mem_range.1 hi
  simp only [withCheck, List.getD_eq_getElem?_getD]
  rw [List.getElem?_append_left (by omega)]
/-- The bytes of a flit before its check, on flow 2. -/
def flitBody (kind ord seq : Nat) : List Nat := [kind, 2 + 32 * ord, 8, 0] ++ (leBytes 4 seq).map (·.toNat) ++ List.replicate 240 0
/-- A link that is down; a bad flit and the ninth, with a store outstanding on a flow of that link alone; flits of every kind, an unordered access, an ordered one in its turn and before it, and one beyond the reorder buffer. -/
theorem witness_Flits : (∀ words s, Arrived (linked words s) 4 words) ∧ bit (({} : State).tlUp).toNat 3 = false ∧
    (let s : State := { runs {} with tlUp := 8, tlFails := [(3, 8)], flows := [(2, n64 (2 ^ 35))], cores := [(0, { ctxs := [(0, { st := .ready, unackedPeer := [(2, 6)] })] })] }
     bit s.tlUp.toNat 3 = true ∧ look 0 s.tlFails 3 = 8 ∧ (2, 6) ∈ (s.ctx (.ctx 0 0)).unackedPeer ∧ has s.flows 2 = true ∧ bit (look 0 s.flows 2).toNat 62 = false ∧
       broken { s with tlUp := 0 } 2 = true ∧ s.agents.Nodup ∧ Agent.ctx 0 0 ∈ s.agents ∧ (s.flows.map (·.1)).Nodup ∧ (s.ctx (.ctx 0 0)).asked = none) ∧
    look 0 (({ tlUp := 8 } : State).tlFails) 3 < 8 ∧
    (∀ kind ∈ [0, 1, 2, 3, 4, 5, 7], ∀ ord ∈ [0, 1], ∀ seq ∈ [0, 5, 256], ∀ k ∈ [0, 1],
      let b := withCheck (flitBody kind ord seq) k
      Flit b ∧ (GoodCrc b ↔ k = 0) ∧ fieldAt b 0 1 = kind ∧ fieldAt b 1 1 % 32 = 2 ∧ fieldAt b 1 1 / 32 % 2 = ord ∧ fieldAt b 4 4 = seq) ∧
    (look {} (({} : State).robs) 2).next = 0 ∧ 0 ∉ (look {} (({} : State).robs) 2).seen ∧ (5 + 2 ^ 32 - 0) % 2 ^ 32 < 256 ∧ 256 ≤ (256 + 2 ^ 32 - 0) % 2 ^ 32 := by
  refine ⟨linked_arrived, by decide, by decide +kernel, by decide, ?_, rfl, by decide, by decide, by decide⟩
  intro kind hkind ord hord seq hseq k hk
  have hk1 : k ≤ 1 := by simp only [List.mem_cons, List.not_mem_nil, or_false] at hk; omega
  have h : (flitBody kind ord seq).length = 248 := by simp [flitBody, leBytes]
  have hb : ∀ kind ∈ [0, 1, 2, 3, 4, 5, 7], ∀ ord ∈ [0, 1], ∀ seq ∈ [0, 5, 256], (∀ x ∈ flitBody kind ord seq, x < 256) ∧
      fieldAt (flitBody kind ord seq) 0 1 = kind ∧ fieldAt (flitBody kind ord seq) 1 1 % 32 = 2 ∧ fieldAt (flitBody kind ord seq) 1 1 / 32 % 2 = ord ∧ fieldAt (flitBody kind ord seq) 4 4 = seq := by decide
  obtain ⟨h0, h1, h2, h3, h4⟩ := hb kind hkind ord hord seq hseq
  refine ⟨withCheck_flit k h h0, withCheck_crc k h hk1, ?_, ?_, ?_, ?_⟩
  · rw [withCheck_field k 0 1 h (by decide)]; exact h1
  · rw [withCheck_field k 1 1 h (by decide)]; exact h2
  · rw [withCheck_field k 1 1 h (by decide)]; exact h3
  · rw [withCheck_field k 4 4 h (by decide)]; exact h4
/-- A closed flow and an open one, without rights and with them. -/
theorem witness_PeerAccesses : (∀ words s, Arrived (linked words s) 4 words) ∧ bit (look 0 (({} : State).flows) 2).toNat 63 = false ∧
    (let s : State := { runs {} with flows := [(2, n64 (2 ^ 63))] }
     s.boot.ckRun = false ∧ bit (look 0 s.flows 2).toNat 63 = true ∧ ∀ e ∈ s.tlRights, e.2.v = true → e.2.dom ≠ 0) ∧
    (let s : State := { runs {} with flows := [(2, n64 (2 ^ 63))], tlRights := [(0, allRights)] }
     bit (look 0 s.flows 2).toNat 63 = true ∧ (∀ need ∈ [rdR, wrR, amoR], ∃ k tag key, s.outsideTargets s.tlRights 0 0x100000 8 need [0, 1] = .ok [(0x100000, 8, .mem k tag key)]) ∧ s.boot.ckRun = false ∧
       s.tokenHolder = none ∧ s.pageHeld 0x100000 = false ∧ s.noBad = true ∧ NoChunks s ∧ NoBankOps (linked [] s)) ∧ ({ boot := { ckRun := true } } : State).boot.ckRun = true ∧ 0x100004 % 8 ≠ 0 := by
  refine ⟨linked_arrived, by decide, by decide, ⟨by decide, ?_, rfl, rfl, by decide, rfl, runs_noChunks _ _, oneBank _ _ rfl (fun h => nomatch h)⟩, rfl, by decide⟩
  intro need hn
  simp only [List.mem_cons, List.not_mem_nil, or_false] at hn
  rcases hn with h | h | h <;> subst h <;> exact ⟨0, dramTag, 0x100000, ok_eq _ _ (by decide +kernel)⟩
/-- A load that waits, a store that is outstanding, a piece of an engine. -/
theorem witness_Acknowledgements : let s (c : Ctx) := linked [2, 6, 0, 1] (holds c)
    (∀ c, Arrived (s c) 4 (2 :: 6 :: 0 :: [1])) ∧ (s {}).agents.Nodup ∧ Agent.ctx 0 0 ∈ (s {}).agents ∧ ((s { st := .stalled, asked := some (peerAsk 2 6) }).ctx (.ctx 0 0)).asked = some (peerAsk 2 6) ∧
      ((s { unackedPeer := [(2, 6)] }).ctx (.ctx 0 0)).asked ≠ some (peerAsk 2 6) ∧ (2, 6) ∈ ((s { unackedPeer := [(2, 6)] }).ctx (.ctx 0 0)).unackedPeer ∧
      (let x : EngSlot := { st := .running, peer := [{ piece := 0, flow := 2, seq := 6, load := true }] }
       ((((s { slots := [(0, x)] }).ctx (.ctx 0 0)).slots.map (·.1)).Nodup ∧ (0, x) ∈ ((s { slots := [(0, x)] }).ctx (.ctx 0 0)).slots ∧ ∃ q ∈ x.peer, q.flow = 2 ∧ q.seq = 6 ∧ q.ack = none)) :=
  ⟨fun _ => linked_arrived _ _, by decide, by decide, rfl, by decide, by decide, by decide⟩


/-! ## What the specification works out

Every expected value is one that the specification states, or follows by hand from the operation that it states. -/

/-- The state after an instruction of context 0 that goes on. -/
def after (i : Instr) (s : State) : State := match exec i s with | .next t => t | _ => {}
/-- S(k) after an instruction on registers. -/
def result (i : Instr) (r : Regs) (k : Nat) : W64 := ((after i (runs r)).regs (.ctx 0 0)).S k

/-- R105: DIV of −7 by 2 gives −3, REM −1. -/
theorem test_div : result (.div 5 6 7) (holding 0 (-7) 2) 5 = -3 ∧ result (.rem 5 6 7) (holding 0 (-7) 2) 5 = -1 := by decide +kernel
/-- R105: the cases of a divisor of 0, and of −2^63 by −1. -/
theorem test_div_corners : result (.div 5 6 7) (holding 0 9 0) 5 = 0xFFFFFFFFFFFFFFFF ∧ result (.remn 5 6 7) (holding 0 9 0) 5 = 9 ∧
    result (.div 5 6 7) (holding 0 0x8000000000000000 (-1)) 5 = 0x8000000000000000 ∧ result (.rem 5 6 7) (holding 0 0x8000000000000000 (-1)) 5 = 0 := by decide +kernel
/-- R107: the four steps that build the address of a scratchpad. -/
theorem test_constants : result (.li 5 (-128)) {} 5 = 0xFFFFFFFFFFFFFF80 ∧ result (.lis 5 0x5255) (holding 0xFFFFFFFFFFFFFF80 0 0) 5 = 0xFFFFFFFFFF805255 ∧
    result (.lis 5 0xA000) (holding 0xFFFFFFFFFF805255 0 0) 5 = 0xFFFFFF805255A000 ∧ result (.lis 5 0) (holding 0xFFFFFF805255A000 0 0) 5 = 0xFF805255A0000000 := by decide +kernel
/-- R106: `sltni sd, sa, -1` gives 1 for every value but the greatest. -/
theorem test_sltni : result (.sltni 5 6 (-1)) (holding 0 0xFFFFFFFFFFFFFFFE 0) 5 = 1 ∧ result (.sltni 5 6 (-1)) (holding 0 0xFFFFFFFFFFFFFFFF 0) 5 = 0 := by decide +kernel
/-- R104: the greatest 32-bit number and 1 overflow upwards: OVF with the destination in its info, and S(d) as before. -/
theorem test_addv : let t := after (.addv 5 6 7) (runs (holding 3 0x7FFFFFFF 1))
    (t.regs (.ctx 0 0)).scause &&& 0xFF = 0x08 ∧ (t.regs (.ctx 0 0)).sinfo = 5 ∧ (t.regs (.ctx 0 0)).S 5 = 3 := by decide +kernel
/-- The worked nest, step 5: an inner loop of no trips whose end is the outer loop's. -/
theorem test_zero_trip : let r : Regs := { holding 0 0 0 with pc := 0x10010, loop0 := ⟨0x1000C, 0x10018, 3⟩ }
    let t := (after (.lsetup 1 6 4) (runs r)).regs (.ctx 0 0)
    t.loop1 = ⟨0x10014, 0x10018, 0⟩ ∧ t.loop0.count = 2 ∧ t.pc = 0x1000C := by decide +kernel
/-- The worked example of the coordinates: core (5, 37, 90) lies in column 22 of its stack, in lane 2 of quad 31. -/
theorem test_coordinates : colOf (coreOf 5 37 90) = 64 * 5 + 22 ∧ laneOf (coreOf 5 37 90) = 2 := by decide
/-- The worked SX4 block, from its values and back. -/
theorem test_sx4 :
    let v (x : Nat) := fp32.decode x
    let xs := [v 0x40400000, v 0xBF400000, v 0x3F000000, v 0x3E800000, v 0x3F8CCCCD, v 0, v 0x40200000, v 0x40266666] ++ List.replicate 8 (v 0)
    encodeSX xs 4 = (leNat [0x80, 0xF6, 0xA6, 0x12, 0x04, 0x55, 0, 0, 0, 0], fNX) ∧
      (decodeSX (leNat [0x80, 0xF6, 0xA6, 0x12, 0x04, 0x55, 0, 0, 0, 0]) 4).map (fun x => (fp32.round x).1) =
        [0x40400000, 0xBF800000, 0x3F000000, 0x3E800000, 0x3F800000, 0, 0x40200000, 0x40200000] ++ List.replicate 8 0 := by decide +kernel
/-- R71's conversions: two ties to BF16, an overflow to FP16, a clamp to eight bits. -/
theorem test_conversions : bf16.round (fp32.decode 0x3F808000) = (0x3F80, fNX) ∧ bf16.round (fp32.decode 0x3F818000) = (0x3F82, fNX) ∧ fp16.round (fp32.decode 0x477FF000) = (0x7C00, fOF ||| fNX) ∧
    toIntFmt (-128) 127 (fp32.decode 0xC348B333) = (-128, fNX ||| fSAT) := by decide +kernel
/-- The exact value 2^−126 × (1 − 3 × 2^−26): it is delivered as 2^−126, and is tiny: uf and nx. -/
theorem test_underflow : (fp32.fma (fp32.decode 0x3F7FFFFF) (fp32.decode 0x00800000) (.fin false 1 (-152))) = (0x00800000, fUF ||| fNX) := by decide +kernel
/-- The worked FP16 row: one group of four products whose exact sum is 1, and no flag. -/
theorem test_fp16_row : dotElem 2 ([0x6C00, 0x3C00, 0xEC00, 0].map fp16.decode) ([0x6C00, 0x3C00, 0x6C00, 0].map fp16.decode) 4 0 = (0x3F800000, 0) := by decide +kernel
/-- The same values in FP32: a chain, which ends at 0 with nx. -/
theorem test_fp32_row : dotElem 1 ([0x45800000, 0x3F800000, 0xC5800000, 0].map fp32.decode) ([0x45800000, 0x3F800000, 0x45800000, 0].map fp32.decode) 4 0 = (0, fNX) := by decide +kernel
/-- Quotients and roots, rounded to nearest: 1/3 and the root of 2. -/
theorem test_fdiv_fsqrt : fp32.divOp (fp32.decode 0x3F800000) (fp32.decode 0x40400000) = (0x3EAAAAAB, fNX) ∧ fp32.sqrtOp (fp32.decode 0x40000000) = (0x3FB504F3, fNX) := by decide +kernel
/-- The worked placement: with KBAND 64 both bands go to column 1; with 128 the second goes to column 0. -/
theorem test_placement : let sh := 6 + 13 * 16
    let all := fun (_ : Nat) => true
    placeBands [(0, 809), (1, 739)] 64 all [] [sh, sh] [none, none] [] = some [⟨1, 0, 14, 7, 14⟩, ⟨1, 7, 14, 7, 14⟩] ∧
      placeBands [(0, 809), (1, 739)] 128 all [] [sh, sh] [none, none] [] = some [⟨1, 0, 14, 7, 14⟩, ⟨0, 0, 0, 7, 14⟩] := by decide +kernel
/-- The band.id of core (0, 9, 20) there. -/
theorem test_band_id : bandWord [⟨1, 0, 14, 7, 14⟩, ⟨1, 7, 14, 7, 14⟩] 1 34 = 0x000000D601012200 ∧ (⟨1, 7, 14, 7, 14⟩ : Band).cores[34]? = some (coreOf 0 9 20) := by decide +kernel
/-- The worked deal of 100 records to four cores: 13, 11, 10 and 9 first, then 8. -/
def deals : Nat → Job → List W64
  | 0, _ => []
  | k + 1, j => match j.deal with
    | some (_, n, j) => n :: deals k j
    | none => []
theorem test_deals : deals 30 { id := 1, card := { count := 100 }, cores := [0, 1, 2, 3] } =
    [13, 11, 10, 9, 8, 7, 6, 5, 4, 4, 3, 3, 3, 2, 2, 2, 1, 1, 1, 1, 1, 1, 1, 1] := by decide +kernel
/-- R284's revocations: 95 units on a capacity of 60, the latest of the lowest rank first. -/
theorem test_revocation :
    let c (h sp : Nat) : Ctx := { st := .ready, rsvHeld := h * 256, rsvSpent := sp * 256 }
    let s : State := { cores := [(0, { ctxs := [(0, c 30 10)], holder := some 0 }), (1, { ctxs := [(0, c 40 5)], holder := some 0 }), (2, { ctxs := [(0, c 20 0)], holder := some 0 })],
                       cols := [(0, { fill := 20 * 256, capfw := 60 * 256, admitted := [⟨0, 0, 5⟩, ⟨1, 0, 2⟩, ⟨2, 0, 2⟩] })] }
    ((after .reservoirTick s).col 0).admitted = [⟨0, 0, 5⟩] := by decide +kernel

end Sys2Proof.Tests
end

section
/-!
PROOF. How contexts start, wait for each other and end (R27, R28, R31, R32, R160 to R163).
-/

namespace Sys2Proof.Machine

open Sys2Proof

/-! ## Contexts after updates of cores and messages -/

/-- An update of a core that leaves its contexts alone is seen by no context. -/
theorem State.ctx_modCore (s : State) (k : Nat) (f : Core → Core) (b : Agent) (h : (f (s.core k)).ctxs = (s.core k).ctxs) :
    (s.modCore k f).ctx b = s.ctx b := by
  cases b with
  | ctx j n =>
    by_cases hj : j = k
    · subst hj; simp [State.ctx, State.modCore, h]
    · simp [State.ctx, State.modCore, State.core_setCore_ne _ _ hj]
  | iluet => rfl
  | ws j => rfl

@[simp] theorem State.core_modCore_self (s : State) (k : Nat) (f : Core → Core) : (s.modCore k f).core k = f (s.core k) := State.core_setCore ..

theorem State.core_modCore_ne (s : State) {j k : Nat} (f : Core → Core) (h : j ≠ k) : (s.modCore k f).core j = s.core j :=
  State.core_setCore_ne _ _ h

/-- An update of a core keeps what `g` reads of it, if it does so for that core. -/
theorem State.core_modCore_congr {α : Type} (g : Core → α) (s : State) (k : Nat) (f : Core → Core) (h : g (f (s.core k)) = g (s.core k)) (j : Nat) :
    g ((s.modCore k f).core j) = g (s.core j) := by
  by_cases hj : j = k
  · subst hj; rw [State.core_modCore_self, h]
  · rw [State.core_modCore_ne _ _ hj]

/-- An update of contexts keeps what `g` reads of a core, if `g` does not read its contexts. -/
theorem State.core_modCtx_congr {α : Type} (g : Core → α) (hg : ∀ (k : Core) (t : Tab Ctx), g { k with ctxs := t } = g k) (s : State) (ag : Agent)
    (f : Ctx → Ctx) (j : Nat) : g ((s.modCtx ag f).core j) = g (s.core j) := by
  cases ag with
  | ctx k n =>
    by_cases hj : j = k
    · subst hj; exact (congrArg g (State.core_setCore ..)).trans (hg _ _)
    · exact congrArg g (State.core_setCore_ne _ _ hj)
  | iluet => rfl
  | ws k => rfl

@[simp] theorem State.courier_modCtx (s : State) (ag : Agent) (f : Ctx → Ctx) (j : Nat) : ((s.modCtx ag f).core j).courier = (s.core j).courier :=
  State.core_modCtx_congr Core.courier (fun _ _ => rfl) s ag f j
@[simp] theorem State.mark_modCtx (s : State) (ag : Agent) (f : Ctx → Ctx) (j : Nat) : ((s.modCtx ag f).core j).mark = (s.core j).mark :=
  State.core_modCtx_congr Core.mark (fun _ _ => rfl) s ag f j
@[simp] theorem State.holder_modCtx (s : State) (ag : Agent) (f : Ctx → Ctx) (j : Nat) : ((s.modCtx ag f).core j).holder = (s.core j).holder :=
  State.core_modCtx_congr Core.holder (fun _ _ => rfl) s ag f j
@[simp] theorem State.inbox_modCtx (s : State) (ag : Agent) (f : Ctx → Ctx) (j : Nat) : ((s.modCtx ag f).core j).inbox = (s.core j).inbox :=
  State.core_modCtx_congr Core.inbox (fun _ _ => rfl) s ag f j
@[simp] theorem State.scheds_modCtx (s : State) (ag : Agent) (f : Ctx → Ctx) : (s.modCtx ag f).scheds = s.scheds := State.setCtx_scheds ..

@[simp] theorem State.ctx_start (s : State) (row : Instr) (args : List Nat) (b : Agent) : (s.start row args).ctx b = s.ctx b := by
  unfold State.start; split <;> cases b <;> rfl

/-- The note of the last issue and an update of a context may be exchanged. -/
theorem State.modCore_last_modCtx (s : State) (core n m : Nat) (g : Ctx → Ctx) :
    (s.modCtx (.ctx core n) g).modCore core (fun k => { k with last := m }) =
      (s.modCore core (fun k => { k with last := m })).modCtx (.ctx core n) g := by
  simp only [State.modCtx, State.setCtx, State.modCore, State.core_setCore, State.setCore_setCore, State.ctx]

@[simp] theorem State.byte_modCore (s : State) (k : Nat) (f : Core → Core) (a : Nat) : (s.modCore k f).byte a = s.byte a := rfl

/-- The manifest that a core belongs to stands with the schedulers alone. -/
theorem State.jobOf_congr {s t : State} (h : t.scheds = s.scheds) (core : Nat) : t.jobOf core = s.jobOf core := by
  unfold State.jobOf; rw [h]

theorem State.jobOf_modCore (s : State) (k : Nat) (f : Core → Core) (core : Nat) : (s.modCore k f).jobOf core = s.jobOf core := rfl

theorem State.control_congr {s t : State} (h : t.scheds = s.scheds) (ag : Agent) : t.control ag = s.control ag := by
  unfold State.control; simp only [State.jobOf_congr h]

/-! ## Singletons of context control -/

/-- An instruction of a sprint class that makes no access of memory enters with its context noted as issued, at no charge. -/
theorem State.entered_ne (s : State) (ag : Agent) (k : Nat) (h : memoryClass (some k) = false) :
    s.entered ag (some k) = s.modCtx ag (fun c => { c with issued := true, infl := 0 }) := by
  simp [State.entered, State.stallMem_ne _ _ _ h]

theorem State.entered_control (s : State) (ag : Agent) : s.entered ag (some 14) = s.modCtx ag (fun c => { c with issued := true, infl := 0 }) :=
  State.entered_ne s ag 14 rfl

/-- Completion forgets that the instruction had issued. -/
theorem State.completed_entered (s : State) (core n : Nat) (f : Regs → Regs) :
    (s.entered (.ctx core n) (some 14)).completed core n f = s.completed core n f := by
  simp only [State.completed, State.entered_control, State.modCtx_modCtx, Ctx.noInstr]

theorem State.regs_completed (s : State) (core n : Nat) (f : Regs → Regs) : (s.completed core n f).regs (.ctx core n) = f (s.regs (.ctx core n)) := by
  simp [State.completed, State.regs, State.ctx_modCore]

theorem State.ctx_completed_ne (s : State) (core n : Nat) (f : Regs → Regs) {b : Agent} (h : b ≠ .ctx core n) : (s.completed core n f).ctx b = s.ctx b := by
  simp [State.completed, State.ctx_modCore, State.ctx_modCtx_ne _ _ h]

@[simp] theorem State.byte_completed (s : State) (core n : Nat) (f : Regs → Regs) (k : Nat) : (s.completed core n f).byte k = s.byte k := by
  simp [State.completed]

/-! ## Launches and the search for an idle context -/

/-- A context in which work has been launched at `pc`, with two arguments and a domain (R28). -/
structure Launched (c : Ctx) (pc x y dom : W64) : Prop where
  st : c.st = .ready
  lvl : c.lvl = .user
  pc : c.r.pc = pc &&& ~~~(1#64)
  scalars : ∀ k, c.r.S k = if k = 3 then x else if k = 4 then y else 0
  vectors : ∀ k, c.r.V k = 0 ∧ c.r.P k = 0
  dom : c.r.dom = dom

theorem launched (s : State) (core n : Nat) (pc x y rank dom : W64) : Launched ((s.launch core n pc x y rank dom).ctx (.ctx core n)) pc x y dom := by
  have hscalars : ∀ k, look (0 : W64) [(3, x), (4, y)] k = if k = 3 then x else if k = 4 then y else 0 := fun k => by
    simp only [look, eq_comm (a := k)]
  simp only [State.launch, State.modR, State.ctx_modCtx]
  refine ⟨rfl, rfl, rfl, fun k => ?_, fun _ => ⟨rfl, rfl⟩, rfl⟩
  by_cases hk : k = 0
  · subst hk; rfl
  · exact (if_neg hk).trans (hscalars k)

theorem State.ctx_launch_ne (s : State) (core n : Nat) (pc x y rank dom : W64) {b : Agent} (h : b ≠ .ctx core n) :
    (s.launch core n pc x y rank dom).ctx b = s.ctx b := by
  simp [State.launch, State.modR, State.ctx_modCtx_ne _ _ h]

@[simp] theorem State.byte_launch (s : State) (core n : Nat) (pc x y rank dom : W64) (k : Nat) : (s.launch core n pc x y rank dom).byte k = s.byte k := by
  simp [State.launch, State.modR]

/-- An even pc is kept as it is (R79). -/
theorem and_not_one_of_even {x : W64} (h : x.getLsbD 0 = false) : x &&& ~~~(1#64) = x := by
  refine BitVec.eq_of_getLsbD_eq fun i hi => ?_
  rcases i with _ | i
  · simp only [BitVec.getLsbD_and, h, Bool.false_and]
  · simp only [BitVec.getLsbD_and, BitVec.getLsbD_not, BitVec.getLsbD_one]
    simp [hi]

/-- What happens to context 0 alone leaves the helpers as they are. -/
theorem State.ctx_helper_modCtx (s : State) (core : Nat) (f : Ctx → Ctx) {h : Nat} (h1 : 1 ≤ h) :
    (s.modCtx (.ctx core 0) f).ctx (.ctx core h) = s.ctx (.ctx core h) := State.ctx_modCtx_ne _ _ (by simp; omega)

/-- The search for an idle helper does not look at context 0. -/
theorem State.idleCtx_modCtx (s : State) (core : Nat) (f : Ctx → Ctx) : (s.modCtx (.ctx core 0) f).idleCtx core 1 = s.idleCtx core 1 := by
  simp only [State.idleCtx, State.mark_modCtx]
  refine List.find?_congr fun n hn => ?_
  have h1 : 1 ≤ n := by simpa using (List.mem_filter.1 hn).2
  rw [State.ctx_helper_modCtx s core f h1]

/-- START finds the helpers as they were before it. -/
theorem State.idleCtx_entered (s : State) (core : Nat) : (s.entered (.ctx core 0) (some 14)).idleCtx core 1 = s.idleCtx core 1 := by
  rw [State.entered_control, State.idleCtx_modCtx]

theorem State.one_le_of_idleCtx {s : State} {core h : Nat} (hf : s.idleCtx core 1 = some h) : 1 ≤ h := by
  have := List.mem_of_find?_eq_some hf
  simpa using (List.mem_filter.1 this).2

/-- Without a courier in the slot, none starts before START does (R27). -/
theorem State.slotStart_entered {s : State} {core : Nat} (h : (s.core core).courier = none) :
    (s.entered (.ctx core 0) (some 14)).slotStart core = s.entered (.ctx core 0) (some 14) := by
  have hc : ((s.entered (.ctx core 0) (some 14)).core core).courier = none := by rw [State.entered_control, State.courier_modCtx, h]
  simp [State.slotStart, hc]

/-! ## START, JOIN and YIELD -/

theorem exec_start (a b c : Nat) (s : State) : exec (.start a b c) s = execStart a b c s := rfl
theorem exec_join (a : Nat) (s : State) : exec (.join a) s = execJoin a s := rfl
theorem exec_yield (s : State) : exec .yield s = execYield s := rfl

theorem legal_start (core n : Nat) {a b c : Nat} (ha : a < 32) (hb : b < 32) (hc : c < 32) : legalOn (.ctx core n) (.start a b c) = true :=
  legal_ctx (i := .start a b c) ⟨ha, hb, hc⟩ rfl core n

/-- The state that START leaves where context `h` is idle, but for the completion: work is launched there, and S(c) takes its number (R160). -/
def State.started (s : State) (core a b c h : Nat) : State :=
  let r := s.regs (.ctx core 0)
  (s.launch core h (r.S a) (r.S b) (r.S c) 0 r.dom).modR (.ctx core 0) (·.setS c (BitVec.ofNat 64 h))

section Start
variable {s : State} {core a b c h : Nat}

theorem State.regs_started (h1 : 1 ≤ h) : (s.started core a b c h).regs (.ctx core 0) = (s.regs (.ctx core 0)).setS c (BitVec.ofNat 64 h) := by
  have hne : Agent.ctx core 0 ≠ .ctx core h := by simp; omega
  simp only [State.started, State.regs_modR]
  simp only [State.regs, State.ctx_launch_ne _ _ _ _ _ _ _ _ hne]

theorem State.ctx_started (h1 : 1 ≤ h) : (s.started core a b c h).ctx (.ctx core h) =
    (s.launch core h ((s.regs (.ctx core 0)).S a) ((s.regs (.ctx core 0)).S b) ((s.regs (.ctx core 0)).S c) 0 (s.regs (.ctx core 0)).dom).ctx (.ctx core h) := by
  have hne : Agent.ctx core h ≠ .ctx core 0 := by simp; omega
  rw [State.started, State.modR, State.ctx_modCtx_ne _ _ hne]

@[simp] theorem State.byte_started (k : Nat) : (s.started core a b c h).byte k = s.byte k := by simp [State.started, State.modR]

theorem quiet_started (h1 : 1 ≤ h) (hq : Quiet (s.ctx (.ctx core 0))) : Quiet ((s.started core a b c h).ctx (.ctx core 0)) := by
  have hne : Agent.ctx core 0 ≠ .ctx core h := by simp; omega
  rw [State.started, State.modR, State.ctx_modCtx, State.ctx_launch_ne _ _ _ _ _ _ _ _ hne]
  exact hq.withR _

variable (hs : Between s core 0) (hp : Present s core 0 [a, b, c]) (ha : a < 32) (hb : b < 32) (hc : c < 32)
include hs hp ha hb hc

/-- START at an odd address raises ALIGN (R160). -/
theorem exec_start_odd (ho : ((s.regs (.ctx core 0)).S a).getLsbD 0 = true) :
    exec (.start a b c) s = .next (s.takeTrap (.ctx core 0) { cause := 0x03, info := (s.regs (.ctx core 0)).S a, addr := true }) :=
  calc exec (.start a b c) s
      = settle s (.ctx core 0) (.error (.trap { cause := 0x03, info := (s.regs (.ctx core 0)).S a, addr := true })) := by
        rw [exec_start, execStart]
        refine runWord_single_stop hs (legal_start core 0 ha hb hc) (by simp) hp rfl ?_
        simp only [State.regs_entered, ho, if_true]
        rfl
    _ = _ := rfl

variable (hn : (s.core core).courier = none) (he : ((s.regs (.ctx core 0)).S a).getLsbD 0 = false)
include hn he

/-- START at an even address, with no courier before it and a helper idle. -/
theorem exec_start_idle (hi : s.idleCtx core 1 = some h) :
    exec (.start a b c) s = .next (((s.entered (.ctx core 0) (some 14)).started core a b c h).completed core 0 (fun r => r.next 4)) := by
  rw [exec_start, execStart]
  refine runWord_single (nx := .fall) hs (legal_start core 0 ha hb hc) (by simp) hp rfl ?_
    (quiet_started (State.one_le_of_idleCtx hi) (quiet_entered hs.quiet _)) (by simp)
  simp only [State.regs_entered, he, State.slotStart_entered hn, State.idleCtx_entered, hi, State.started]
  rfl

/-- START at an even address, with no courier before it and no helper idle: S(c) takes 0. -/
theorem exec_start_busy (hi : s.idleCtx core 1 = none) :
    exec (.start a b c) s = .next (((s.entered (.ctx core 0) (some 14)).modR (.ctx core 0) (·.setS c 0)).completed core 0 (fun r => r.next 4)) := by
  rw [exec_start, execStart]
  refine runWord_single (nx := .fall) hs (legal_start core 0 ha hb hc) (by simp) hp rfl ?_ ?_ (by simp)
  · simp only [State.regs_entered, he, State.slotStart_entered hn, State.idleCtx_entered, hi]
    rfl
  · rw [State.modR, State.ctx_modCtx]
    exact (quiet_entered hs.quiet _).withR _

end Start

/-- Whether JOIN goes on: each helper that bits 3:1 name is idle (R163). -/
theorem helpersIdle_iff (s : State) (core : Nat) (x : W64) :
    ([1, 2, 3].all fun n => !x.getLsbD n || decide ((s.ctx (.ctx core n)).st = .idle)) = true ↔
      ∀ h, 1 ≤ h → h ≤ 3 → x.getLsbD h = true → (s.ctx (.ctx core h)).st = .idle := by
  have hmem : ∀ h, h ∈ [1, 2, 3] ↔ 1 ≤ h ∧ h ≤ 3 := fun h => by simp; omega
  simp only [List.all_eq_true, hmem, Bool.or_eq_true, Bool.not_eq_true', decide_eq_true_eq, and_imp]
  exact forall_congr' fun h => forall_congr' fun _ => forall_congr' fun _ => by cases x.getLsbD h <;> simp

section Join
variable {s : State} {core a : Nat} (hs : Between s core 0) (hp : Present s core 0 [a]) (ha : a < 32)
include hs hp ha

/-- JOIN with every helper that it names idle. -/
theorem exec_join_idle (hi : ∀ h, 1 ≤ h → h ≤ 3 → ((s.regs (.ctx core 0)).S a).getLsbD h = true → (s.ctx (.ctx core h)).st = .idle) :
    exec (.join a) s = .next (s.completed core 0 (fun r => r.next 4)) := by
  have hall := (helpersIdle_iff (s.entered (.ctx core 0) (some 14)) core _).2 fun h h1 h3 hb => by
    rw [State.entered_control, State.ctx_helper_modCtx s core _ h1]; exact hi h h1 h3 hb
  rw [← State.completed_entered, exec_join, execJoin]
  refine runWord_single (nx := .fall) hs (legal_ctx (i := .join a) ha rfl core 0) (by simp) hp rfl ?_ (quiet_entered hs.quiet _) (by simp)
  simp only [State.regs_entered, hall, if_true]

/-- JOIN with a helper that it names not idle: context 0 waits. -/
theorem exec_join_busy (hi : ∃ h, 1 ≤ h ∧ h ≤ 3 ∧ ((s.regs (.ctx core 0)).S a).getLsbD h = true ∧ (s.ctx (.ctx core h)).st ≠ .idle) :
    exec (.join a) s = .next ((s.entered (.ctx core 0) (some 14)).modCtx (.ctx core 0) (fun c => { c with st := .waiting, why := 4, held := true })) := by
  have hall : ¬ ([1, 2, 3].all fun n => !((s.regs (.ctx core 0)).S a).getLsbD n ||
      decide (((s.entered (.ctx core 0) (some 14)).ctx (.ctx core n)).st = .idle)) = true := by
    obtain ⟨h, h1, h3, hb, hst⟩ := hi
    refine fun hall => hst ?_
    rw [← State.ctx_helper_modCtx s core (fun c => { c with issued := true, infl := 0 }) h1]
    exact (helpersIdle_iff _ core _).1 hall h h1 h3 hb
  calc exec (.join a) s
      = settle s (.ctx core 0) (.error (.later
          ((s.entered (.ctx core 0) (some 14)).modCtx (.ctx core 0) (fun c => { c with st := .waiting, why := 4, held := true })))) := by
        rw [exec_join, execJoin]
        refine runWord_single_stop hs (legal_ctx (i := .join a) ha rfl core 0) (by simp) hp rfl ?_
        simp only [State.regs_entered, hall]
        rfl
    _ = _ := rfl

end Join

/-- YIELD: the context counts as the last to have issued (R162). -/
theorem exec_yield_plain {s : State} {core n : Nat} (hs : Plain s core n) :
    exec .yield s = .next (((s.beginChunk (.ctx core n)).modCore core (fun k => { k with last := n })).completed core n (fun r => r.next 4)) := by
  calc exec .yield s
      = .next (((s.opened (.ctx core n) (some 0)).modCore core (fun k => { k with last := n })).completed core n (fun r => r.next 4)) := by
        rw [exec_yield, execYield]
        refine runWord_plain (nx := .fall) hs (legal_ctx (i := .yield) trivial rfl core n) (by simp) (by simp [Present]) rfl rfl rfl ?_ (by simp)
        rw [State.ctx_modCore _ _ _ _ rfl]
        exact quiet_opened hs.quiet _
    _ = _ := by
        simp only [State.completed, State.opened, State.beginChunk, State.modCore_last_modCtx, State.modCtx_modCtx,
          State.entered_ne s (.ctx core n) 0 rfl]
        congr 3
        funext c
        by_cases hr : c.chunk.run = true <;> simp [hr, Ctx.noInstr]

/-! ## What the end of a context leaves alone -/

/-- Schedulers and inboxes are as they were, and memory is where `still` holds. -/
structure Untouched (still : Prop) (s t : State) : Prop where
  scheds : t.scheds = s.scheds
  inbox : ∀ k, (t.core k).inbox = (s.core k).inbox
  mem : still → t.mem = s.mem

namespace Untouched
variable {still : Prop} {s t u : State}

theorem refl (s : State) : Untouched still s s := ⟨rfl, fun _ => rfl, fun _ => rfl⟩

theorem trans (h : Untouched still s t) (h' : Untouched still t u) : Untouched still s u :=
  ⟨h'.scheds.trans h.scheds, fun k => (h'.inbox k).trans (h.inbox k), fun hs => (h'.mem hs).trans (h.mem hs)⟩

theorem mono {still' : Prop} (hi : still → still') (h : Untouched still' s t) : Untouched still s t := ⟨h.scheds, h.inbox, fun hs => h.mem (hi hs)⟩

theorem ite {p : Prop} [Decidable p] (h : Untouched still s t) (h' : Untouched still s u) : Untouched still s (if p then t else u) := by
  split
  · exact h
  · exact h'

theorem foldl {α : Type} {f : State → α → State} (hf : ∀ s x, Untouched still s (f s x)) (l : List α) (s : State) : Untouched still s (l.foldl f s) := by
  induction l generalizing s with
  | nil => exact refl s
  | cons x l ih => exact (hf s x).trans (ih _)

theorem modCtx (s : State) (ag : Agent) (f : Ctx → Ctx) : Untouched still s (s.modCtx ag f) :=
  ⟨State.scheds_modCtx .., State.inbox_modCtx s ag f, fun _ => State.mem_modCtx ..⟩

theorem modCore (s : State) (k : Nat) (f : Core → Core) (h : (f (s.core k)).inbox = (s.core k).inbox) : Untouched still s (s.modCore k f) :=
  ⟨rfl, State.core_modCore_congr Core.inbox s k f h, fun _ => rfl⟩

theorem counted (s : State) (k : Nat) : Untouched still s (s.modCore k (fun k => { k with retired := k.retired + 1 })) := modCore s k _ rfl

theorem modCol (s : State) (k : Nat) (f : Column → Column) : Untouched still s (s.modCol k f) := ⟨rfl, fun _ => rfl, fun _ => rfl⟩

theorem setCtx (s : State) (ag : Agent) (c : Ctx) : Untouched still s (s.setCtx ag c) := modCtx s ag (fun _ => c)

theorem setPort (s : State) (core : Nat) (l : List MCmd) : Untouched still s (s.setPort core l) := ⟨rfl, fun _ => rfl, fun _ => rfl⟩

theorem due (s : State) (t : Nat) (row : Instr) (args : List Nat) : Untouched still s (s.at t row args) := ⟨rfl, fun _ => rfl, fun _ => rfl⟩

theorem tokens (s : State) (q : List Nat) (h : Option Nat) : Untouched still s { s with tokenQ := q, tokenHolder := h } :=
  ⟨rfl, fun _ => rfl, fun _ => rfl⟩

theorem flight (s : State) (f : Tab Msg) : Untouched still s { s with flight := f } := ⟨rfl, fun _ => rfl, fun _ => rfl⟩

theorem start (s : State) (row : Instr) (args : List Nat) : Untouched still s (s.start row args) :=
  ite (refl s) ⟨rfl, fun _ => rfl, fun _ => rfl⟩

theorem startMove (s : State) (what who : Nat) (m : Option Move) : Untouched still s (s.startMove what who m) := by
  cases m with
  | none => exact refl s
  | some m => exact ite (due ..) (due ..)

theorem repoint (s : State) (core : Nat) : Untouched still s (s.repoint core) := by
  refine ite (refl s) ?_
  split
  · exact ite (modCore _ _ _ rfl) (refl s)
  · exact (modCore _ _ _ rfl).trans (startMove ..)

theorem endRsv (s : State) (core code : Nat) : Untouched still s (s.endRsv core code) := by
  unfold State.endRsv
  split
  · exact refl s
  · exact trans (trans (trans (modCtx ..) (modCore _ _ _ rfl)) (repoint ..)) (modCol ..)

theorem charge (s : State) (core n : Nat) : Untouched still s (s.charge (.ctx core n)) := by
  refine ite (refl s) ?_
  have hinfl : Untouched still s (s.modCtx (.ctx core n) (fun c => { c with infl := 0 })) := modCtx ..
  split
  · exact hinfl
  · dsimp only
    split
    · exact hinfl.trans (trans (trans (modCtx ..) (modCol ..)) (start ..))
    · exact hinfl.trans (trans (modCtx ..) (modCol ..))

theorem withdrawWait (s : State) (ag : Agent) : Untouched still s (s.withdrawWait ag) :=
  ite ((modCtx s ag _).trans ⟨rfl, fun _ => rfl, fun _ => rfl⟩) (refl s)

/-- Memory changes with a slot that is freed (R246). -/
theorem freeSlot (s : State) (quad phys : Nat) : Untouched False s (s.freeSlot quad phys) := by
  have hu : ∀ s : State, Untouched True s (s.unpoison (slotKey quad phys 0) 4096) := fun s => ite (refl s) ⟨rfl, fun _ => rfl, fun _ => rfl⟩
  exact ⟨(hu (s.setQuad quad _)).scheds, (hu (s.setQuad quad _)).inbox, False.elim⟩

theorem releaseEntry (s : State) (core : Nat) (ag : Agent) (e : Nat) : Untouched False s (s.releaseEntry core ag e) :=
  ite (trans (freeSlot ..) (modCtx ..)) (refl s)

theorem releaseAll (s : State) (core n : Nat) : Untouched ((s.ctx (.ctx core n)).entries = []) s (s.releaseAll (.ctx core n)) := by
  by_cases he : (s.ctx (.ctx core n)).entries = []
  · have hnone : s.releaseAll (.ctx core n) = s := List.foldl_fixed' (fun e => by simp [State.releaseEntry, he, look]) _
    rw [hnone]
    exact refl s
  · exact (foldl (fun s e => releaseEntry s core _ e) _ s).mono he

theorem dropCommands (s : State) (ag : Agent) : Untouched still s (s.dropCommands ag) := by
  cases ag with
  | ctx core n => exact ite (trans (setPort ..) (start ..)) (refl s)
  | iluet => exact refl s
  | ws k => exact refl s

theorem uncut (s : State) (core n : Nat) : Untouched still s (s.uncut (.ctx core n)) := by
  unfold State.uncut
  dsimp only
  split
  · exact ite (modCore _ _ _ rfl) (refl s)
  · exact refl s

theorem dropToken (s : State) (ag : Agent) : Untouched still s (s.dropToken ag) :=
  ite (ite (tokens s _ _) (trans (tokens s _ _) (start ..))) (tokens s _ _)

theorem armDeadline (s : State) (ag : Agent) : Untouched still s (s.armDeadline ag) :=
  ite (trans (setCtx ..) (due ..)) (refl s)

theorem afterIdle (s : State) (core : Nat) : Untouched still s (s.afterIdle core) := by
  unfold State.afterIdle
  extract_lets s1 s2 c0
  have h1 : Untouched still s s1 := ite (start ..) (refl s)
  have h2 : Untouched still s1 s2 := ite (refl s1) (modCore s1 core _ rfl)
  exact (h1.trans h2).trans (ite (ite (start ..) (ite (refl s2) (modCtx ..))) (refl s2))

end Untouched

/-! ## The end of a context in its parts -/

/-- The first part of the end of a context: its reservation ends, its request is withdrawn, its operand slots are released, and its matrix commands no longer
retire (R161). -/
def State.released (s : State) (core n : Nat) : State :=
  let s := if (s.core core).holder = some n then s.endRsv core 1 else s
  let s := (s.withdrawWait (.ctx core n)).releaseAll (.ctx core n)
  { s with flight := s.flight.filter (fun e => !(e.2.ev.row = Instr.matrixRetire && e.2.src = (Agent.ctx core n).code)) }

/-- The record of a context that has ended. -/
def Ctx.ended (c : Ctx) : Ctx :=
  { c.noInstr with
    mcmds := 0, taps := 0, tapBytes := [], st := .idle, why := 0, held := false, chunk := {}, pend := [], probes := [],
    slots := c.slots.filter (fun e => e.2.st = .running), saving := none, retiring := false, inThrottle := false, lvl := .user,
    parked := false, loading := false, ending := false, freezing := false, token := false, attempts := 0, serial := false }

theorem endContext_eq (s : State) (core n : Nat) :
    s.endContext (.ctx core n) = (((((((s.released core n).dropCommands (.ctx core n)).uncut (.ctx core n)).modCtx (.ctx core n) Ctx.ended).dropToken
      (.ctx core n)).armDeadline (.ctx core n)).afterIdle core) := rfl

/-- A context that sprints on no reservation, has asked for nothing and holds no operand slots. -/
structure HoldsNothing (s : State) (core n : Nat) : Prop where
  holder : (s.core core).holder = none
  asked : (s.ctx (.ctx core n)).asked = none
  entries : (s.ctx (.ctx core n)).entries = []

theorem released_untouched (s : State) (core n : Nat) :
    Untouched (HoldsNothing s core n) s (s.released core n) := by
  unfold State.released
  extract_lets s1 s2
  have h1 : ∀ {still}, Untouched still s s1 := .ite (.endRsv ..) (.refl s)
  have h2 : Untouched (HoldsNothing s core n) s s2 := by
    refine (h1.trans (.withdrawWait s1 _)).trans (.mono ?_ (.releaseAll _ core n))
    rintro ⟨hh, ha, he⟩
    simp [s1, hh, State.withdrawWait, ha, he]
  exact h2.trans (.flight s2 _)

/-- The end of a context leaves schedulers and inboxes, and that of one that holds nothing leaves memory too (R32, R161). -/
theorem endContext_untouched (s : State) (core n : Nat) :
    Untouched (HoldsNothing s core n) s (s.endContext (.ctx core n)) := by
  rw [endContext_eq]
  exact (released_untouched s core n).trans (.trans (.trans (.trans (.dropCommands ..) (.uncut ..)) (.modCtx ..))
    (.trans (.trans (.dropToken ..) (.armDeadline ..)) (.afterIdle ..)))

/-! ## The state of a context that has ended -/

/-- Idle, with no chunk and no charge. -/
structure Ended (c : Ctx) : Prop where
  idle : c.st = .idle
  infl : c.infl = 0
  noChunk : c.chunk.run = false

@[simp] theorem State.ctx_dropToken (s : State) (ag b : Agent) : (s.dropToken ag).ctx b = s.ctx b := by
  have hq : ∀ (q : List Nat) (h : Option Nat), ({ s with tokenQ := q, tokenHolder := h } : State).ctx b = s.ctx b := fun _ _ => by cases b <;> rfl
  unfold State.dropToken
  dsimp only
  split
  · split
    · exact hq _ _
    · rw [State.ctx_start]; exact hq _ _
  · exact hq _ _

/-- Arming the deadline of a request for pre-emption starts nothing that has ended (R36, R370). -/
theorem Ended.armDeadline {s : State} {ag : Agent} (h : Ended (s.ctx ag)) : Ended ((s.armDeadline ag).ctx ag) := by
  have hat : ∀ (s : State) t row args, (s.at t row args).ctx ag = s.ctx ag := fun _ _ _ _ => by cases ag <;> rfl
  unfold State.armDeadline
  dsimp only
  split
  · rw [hat, State.ctx_setCtx]
    exact ⟨h.idle, h.infl, h.noChunk⟩
  · exact h

/-- What becomes possible when a context has ended does not touch one that is idle: only a waiting context 0 wakes (R27, R32, R163). -/
theorem State.ctx_afterIdle_of_idle {s : State} {core n : Nat} (h : (s.ctx (.ctx core n)).st = .idle) :
    (s.afterIdle core).ctx (.ctx core n) = s.ctx (.ctx core n) := by
  unfold State.afterIdle
  extract_lets s1 s2 c0
  have h1 : ∀ b, s1.ctx b = s.ctx b := fun b => by unfold s1; split <;> simp
  have h2 : ∀ b, s2.ctx b = s.ctx b := fun b => by
    unfold s2
    split
    · exact h1 b
    · rw [State.ctx_modCore _ _ _ _ rfl, h1]
  split
  next hw =>
    have hn : n ≠ 0 := by
      rintro rfl
      simp [c0, h2, h] at hw
    have hne : Agent.ctx core n ≠ .ctx core 0 := by simpa using hn
    split
    · rw [State.ctx_start, h2]
    · split
      · exact h2 _
      · rw [State.wake, State.ctx_modCtx_ne _ _ hne, h2]
  next => exact h2 _

/-- A context that ends is idle, and nothing runs in it (R32, R161). -/
theorem endContext_ended (s : State) (core n : Nat) : Ended ((s.endContext (.ctx core n)).ctx (.ctx core n)) := by
  have harm : ∀ s : State, Ended (s.ctx (.ctx core n)) → Ended (((s.armDeadline (.ctx core n)).afterIdle core).ctx (.ctx core n)) := fun s h => by
    rw [State.ctx_afterIdle_of_idle h.armDeadline.idle]
    exact h.armDeadline
  rw [endContext_eq]
  refine harm _ ?_
  rw [State.ctx_dropToken, State.ctx_modCtx]
  exact ⟨rfl, rfl, rfl⟩

/-- Where a core belongs to no caravan, the end of a context has no more to follow (R420). -/
theorem State.leftCaravan_none {s : State} {core : Nat} (n : Nat) (h : s.jobOf core = none) : s.leftCaravan core n = s := by
  simp [State.leftCaravan, h]

theorem State.charge_none {s : State} {core n : Nat} (h : (s.ctx (.ctx core n)).infl = 0) : s.charge (.ctx core n) = s := by
  simp [State.charge, h]

/-- An instruction that ends its context is counted in the core, and that is all. -/
theorem retire_over {s : State} {core n : Nat} (i : Instr) (h : Ended (s.ctx (.ctx core n))) :
    retire i (.ctx core n) s .over = s.modCore core (fun k => { k with retired := k.retired + 1 }) := by
  simp [retire, State.charge_none h.infl, State.ctx_modCore_retired, h.noChunk]

/-- What a singleton does between two chunks when its meaning ends the context. -/
theorem runWord_single_over {s s2 : State} {core n : Nat} {i : Instr} {a : Attr} {m : State → Agent → Try (State × Next)}
    (h : Between s core n) (hl : legalOn (.ctx core n) i = true) (hp : a.priv = true → (s.ctx (.ctx core n)).lvl = .sup)
    (hr : Present s core n a.reads) (hs : a.single = true) (hm : m (s.entered (.ctx core n) a.cls) (.ctx core n) = .ok (s2, .over))
    (he : Ended (s2.ctx (.ctx core n))) :
    runWord i a m s = .next (s2.modCore core (fun k => { k with retired := k.retired + 1 })) := by
  simp only [runWord, h.cur, issue_single h hl hp hr hs, Except.bind, hm, settle, retire_over i he]

/-! ## RETIRE -/

theorem exec_retire (s : State) : exec .retire s = execRetire s := rfl
theorem exec_helpersEnded (s : State) : exec .helpersEnded s = execHelpersEnded s := rfl

/-- Whether a control context that ends has to wait: one of its helpers is live (R32). -/
theorem helperLive_iff (s : State) (core : Nat) :
    ((List.range 4).any fun h => decide (h ≠ 0) && (s.ctx (.ctx core h)).live) = true ↔ ∃ h, 1 ≤ h ∧ h < 4 ∧ (s.ctx (.ctx core h)).live = true := by
  simp only [List.any_eq_true, List.mem_range, Bool.and_eq_true, decide_eq_true_eq, ne_eq, ← Nat.one_le_iff_ne_zero]
  exact exists_congr fun h => by tauto

/-- Nothing delays the end that RETIRE makes of a context outside a caravan's deal (R31, R347): no user handler runs, no TCFGR is awaited, none of its
matrix commands or TAPs is under way, no PROBE is to be delivered, and no reservation holds its core. -/
structure MayEnd (s : State) (core n : Nat) : Prop where
  act : (s.ctx (.ctx core n)).r.act = false
  tpend : (s.ctx (.ctx core n)).r.tpend = []
  control : s.control (.ctx core n) = none
  mcmds : (s.ctx (.ctx core n)).mcmds = 0
  taps : (s.ctx (.ctx core n)).taps = 0
  probes : (s.ctx (.ctx core n)).probes = []
  holder : (s.core core).holder = none

theorem MayEnd.entered {s : State} {core n : Nat} (h : MayEnd s core n) : MayEnd (s.entered (.ctx core n) (some 14)) core n := by
  rw [State.entered_control]
  constructor
  case control => rw [State.control_congr (State.scheds_modCtx ..), h.control]
  case holder => rw [State.holder_modCtx, h.holder]
  all_goals rw [State.ctx_modCtx]
  exacts [h.act, h.tpend, h.mcmds, h.taps, h.probes]

/-- A context that enters RETIRE finds the helpers as they were. -/
theorem helperLive_entered (s : State) (core : Nat) :
    ((List.range 4).any fun h => decide (h ≠ 0) && ((s.entered (.ctx core 0) (some 14)).ctx (.ctx core h)).live) = true ↔
      ∃ h, 1 ≤ h ∧ h < 4 ∧ (s.ctx (.ctx core h)).live = true := by
  rw [helperLive_iff, State.entered_control]
  exact exists_congr fun h => and_congr_right fun h1 => by rw [State.ctx_helper_modCtx s core _ h1]

/-- RETIRE ends a context that nothing delays and that need not wait for helpers (R31, R32). -/
theorem exec_retire_ends {s : State} {core n : Nat} (hs : Between s core n) (he : MayEnd s core n) (hj : s.jobOf core = none)
    (hh : n = 0 → ∀ h, 1 ≤ h → h < 4 → (s.ctx (.ctx core h)).live = false) :
    exec .retire s = .next (((s.entered (.ctx core n) (some 14)).endContext (.ctx core n)).modCore core (fun k => { k with retired := k.retired + 1 })) := by
  have hsch : (s.entered (.ctx core n) (some 14)).scheds = s.scheds := by rw [State.entered_control, State.scheds_modCtx]
  have hleft := State.leftCaravan_none n
    ((State.jobOf_congr ((endContext_untouched (s.entered (.ctx core n) (some 14)) core n).scheds.trans hsch) core).trans hj)
  have hcharge : (s.entered (.ctx core n) (some 14)).charge (.ctx core n) = s.entered (.ctx core n) (some 14) :=
    State.charge_none (by rw [State.ctx_entered]; rfl)
  have hgo : (decide (n = 0) && (List.range 4).any fun h => decide (h ≠ 0) && ((s.entered (.ctx core n) (some 14)).ctx (.ctx core h)).live) = false := by
    rw [← Bool.not_eq_true, Bool.and_eq_true, decide_eq_true_eq]
    rintro ⟨rfl, hany⟩
    obtain ⟨h, h1, h4, hl⟩ := (helperLive_entered s core).1 hany
    simp [hh rfl h h1 h4] at hl
  have he' := he.entered
  rw [exec_retire, execRetire]
  refine runWord_single_over hs (legal_ctx (i := .retire) trivial rfl core n) (by simp) (by simp [Present]) rfl ?_ (endContext_ended ..)
  simp only [he'.act, he'.tpend, he'.control, he'.mcmds, he'.taps, he'.probes, he'.holder, hgo, hcharge, hleft]
  rfl

/-- Such an end leaves the inboxes, and memory where the context holds no operand slots (R32, R161). -/
theorem retired_untouched {s : State} {core n : Nat} (hs : Between s core n) :
    Untouched ((s.ctx (.ctx core n)).entries = [])
      s (((s.entered (.ctx core n) (some 14)).endContext (.ctx core n)).modCore core (fun k => { k with retired := k.retired + 1 })) := by
  rw [State.entered_control]
  refine .trans (.trans (.modCtx ..) (.mono (fun hent => ?_) (endContext_untouched _ core n))) (.counted _ core)
  constructor
  · rw [State.holder_modCtx, hs.holder]
  all_goals rw [State.ctx_modCtx]
  exacts [hs.asked, hent]

/-- A control context that nothing delays waits in RETIRE while a helper is live (R32). -/
theorem exec_retire_waits {s : State} {core : Nat} (hs : Between s core 0) (he : MayEnd s core 0)
    (hh : ∃ h, 1 ≤ h ∧ h < 4 ∧ (s.ctx (.ctx core h)).live = true) :
    exec .retire s = .next ((s.entered (.ctx core 0) (some 14)).modCtx (.ctx core 0)
      (fun c => { c with st := .waiting, why := 4, held := true, retiring := true })) := by
  have hany := (helperLive_entered s core).2 hh
  have he' := he.entered
  calc exec .retire s
      = settle s (.ctx core 0) (.error (.later ((s.entered (.ctx core 0) (some 14)).modCtx (.ctx core 0)
          (fun c => { c with st := .waiting, why := 4, held := true, retiring := true })))) := by
        rw [exec_retire, execRetire]
        refine runWord_single_stop hs (legal_ctx (i := .retire) trivial rfl core 0) (by simp) (by simp [Present]) rfl ?_
        simp only [he'.act, he'.tpend, he'.control, he'.mcmds, he'.taps, he'.probes, he'.holder, hany]
        rfl
    _ = _ := rfl

/-- The control context that waits in RETIRE ends when none of its helpers is live (R32). -/
theorem exec_helpersEnded_ends {s : State} {core : Nat} (ha : s.args = [core]) (hst : (s.ctx (.ctx core 0)).st = .waiting)
    (hwhy : (s.ctx (.ctx core 0)).why = 4) (hr : (s.ctx (.ctx core 0)).retiring = true)
    (hh : ∀ h, 1 ≤ h → h < 4 → (s.ctx (.ctx core h)).live = false) (hj : s.jobOf core = none) :
    exec .helpersEnded s = .next (((s.charge (.ctx core 0)).endContext (.ctx core 0)).modCore core (fun k => { k with retired := k.retired + 1 })) := by
  have hall : ((List.range 4).all fun n => decide (n = 0) || !(s.ctx (.ctx core n)).live) = true := by
    simp only [List.all_eq_true, List.mem_range, Bool.or_eq_true, decide_eq_true_eq, Bool.not_eq_true']
    exact fun h h4 => (Nat.eq_zero_or_pos h).imp_right fun h1 => hh h h1 h4
  have hsch : ((s.charge (.ctx core 0)).endContext (.ctx core 0)).scheds = s.scheds :=
    (endContext_untouched _ core 0).scheds.trans (Untouched.charge (still := True) s core 0).scheds
  have hjob : ((s.charge (.ctx core 0)).endContext (.ctx core 0)).jobOf core = none := (State.jobOf_congr hsch core).trans hj
  rw [exec_helpersEnded, execHelpersEnded, show s.arg 0 = core by simp [State.arg, ha]]
  simp only [hst, hwhy, hr, hall, State.leftCaravan_none 0 ((State.jobOf_modCore _ core _ core).trans hjob)]
  rfl

/-! ## The courier that waits (R27) -/

theorem exec_courierSlotStart (s : State) : exec .courierSlotStart s = execCourierSlotStart s := rfl

/-- A completion goes back to the sender, or its reservation is freed: contexts and courier slots are as they were. -/
theorem State.ctx_complete (s : State) (src from_ status tag : Nat) (payload : W64) (report : Bool) (b : Agent) :
    (s.complete src from_ status tag payload report).ctx b = s.ctx b := by
  unfold State.complete
  split
  · split
    · cases b <;> rfl
    · exact State.ctx_modCore _ _ _ _ rfl
  · rfl

theorem State.courier_complete (s : State) (src from_ status tag : Nat) (payload : W64) (report : Bool) (k : Nat) :
    ((s.complete src from_ status tag payload report).core k).courier = (s.core k).courier := by
  unfold State.complete
  split
  · split
    · rfl
    · exact State.core_modCore_congr Core.courier _ _ _ rfl k
  · rfl

/-- The courier that waits takes the lowest idle context, and its sender is told (R27, R183). -/
theorem exec_courierSlotStart_takes {s : State} {core n : Nat} {c : Courier} (ha : s.args = [core]) (hc : (s.core core).courier = some c)
    (hi : s.idleCtx core 0 = some n) (hsrc : c.src < 401408) :
    exec .courierSlotStart s = .next (((s.modCore core (fun k => { k with courier := none })).launch core n c.pc c.x c.y 0 (BitVec.ofNat 64 c.dom)).complete
      c.src core 0 c.tag c.payload c.ack) := by
  rw [exec_courierSlotStart, execCourierSlotStart, show s.arg 0 = core by simp [State.arg, ha]]
  simp only [State.slotStart, hc, hi, State.courierDone, hsrc, if_true]
  rfl

/-! ## The claims -/

/-- START, JOIN and YIELD (R28, R160, R162, R163). -/
theorem helperContexts : Claims.HelperContexts := by
  refine ⟨?_, fun s core a b c hs hp ha hb hc ho => exec_start_odd hs hp ha hb hc ho, ?_, fun s core n hs => exec_yield_plain hs⟩
  · intro s core a b c hs hp ha hb hc hn ag r he
    refine ⟨fun h hi => ⟨_, exec_start_idle hs hp ha hb hc hn he hi, ?_⟩, fun hi => ⟨_, exec_start_busy hs hp ha hb hc hn he hi, ?_⟩⟩
    · have h1 := State.one_le_of_idleCtx hi
      have hne : Agent.ctx core h ≠ .ctx core 0 := by simp; omega
      have hnew : Launched ((((s.entered (.ctx core 0) (some 14)).started core a b c h).completed core 0 (fun r => r.next 4)).ctx (.ctx core h))
          (r.S a) (r.S b) (r.S c) r.dom := by
        rw [State.ctx_completed_ne _ _ _ _ hne, State.ctx_started h1, State.regs_entered]
        exact launched ..
      refine ⟨?_, hnew.st, hnew.lvl, hnew.pc.trans (and_not_one_of_even he), hnew.dom, hnew.scalars, hnew.vectors, fun k => ?_⟩
      · rw [State.regs_completed, State.regs_started h1, State.regs_entered]
      · simp [State.entered_control]
    · refine ⟨by rw [State.regs_completed, State.regs_modR, State.regs_entered], fun b hb => ?_, fun k => ?_⟩
      · rw [State.ctx_completed_ne _ _ _ _ hb, State.modR, State.ctx_modCtx_ne _ _ hb, State.entered_control, State.ctx_modCtx_ne _ _ hb]
      · simp [State.modR, State.entered_control]
  · intro s core a hs hp ha
    refine ⟨exec_join_idle hs hp ha, fun hb => ⟨_, exec_join_busy hs hp ha hb, ?_⟩⟩
    simp [State.regs, State.entered_control]

/-- RETIRE, the end of the last helper, and the courier that waits (R27, R31, R32). -/
theorem contextsEnd : Claims.ContextsEnd := by
  refine ⟨fun s core n hs hact htp hcon hm ht hpr hj hent _ _ _ => ?_, fun s core ha _ hst hwhy hr hh hj => ?_, fun s core n c ha hc hi hsrc => ?_⟩
  · have he : MayEnd s core n := ⟨hact, htp, hcon, hm, ht, hpr, hs.holder⟩
    refine ⟨fun hh => ⟨_, exec_retire_ends hs he hj hh, ?_⟩, ?_⟩
    · have hkept := retired_untouched hs
      refine ⟨?_, fun k => congrArg (memByte · k) (hkept.mem hent), hkept.inbox core⟩
      rw [State.ctx_modCore_retired]
      exact (endContext_ended _ core n).idle
    · rintro rfl hh
      exact ⟨_, exec_retire_waits hs he hh, by simp [State.regs, State.entered_control]⟩
  · refine ⟨_, exec_helpersEnded_ends ha hst hwhy hr hh hj, ?_⟩
    rw [State.ctx_modCore_retired]
    exact (endContext_ended _ core 0).idle
  · refine ⟨_, exec_courierSlotStart_takes ha hc hi hsrc, ?_⟩
    have hnew := launched (s.modCore core (fun k => { k with courier := none })) core n c.pc c.x c.y 0 (BitVec.ofNat 64 c.dom)
    simp only [State.regs, State.ctx_complete, State.courier_complete]
    refine ⟨?_, hnew.st, hnew.pc, hnew.scalars 3, hnew.scalars 4, hnew.dom⟩
    simp only [State.launch, State.modR, State.courier_modCtx, State.core_modCore_self]

end Sys2Proof.Machine

/-- Settles O36, by what each instruction and happening does to the contexts of its core. -/
theorem contextLifecycle : Obligations.ContextLifecycle := ⟨Sys2Proof.Machine.helperContexts, Sys2Proof.Machine.contextsEnd⟩
end

section
/-!
PROOF. What the executing level may not do: special registers and supervisor instructions (R91, R94, R96, R365).
-/

namespace Sys2Proof.Machine

open Sys2Proof Sys2Proof.Claims

/-! ## Which cause a special-register number raises (R96) -/

/-- The numbers that the moves test are those that the claims name (R98). -/
theorem srAssigned_eq_assigned (num : Nat) : srAssigned num = assigned num := rfl

/-- What denies a number inside an allowed range: it is not assigned, or a move would write a read-only one (R96). -/
theorem unassigned_or_readOnly {num : Nat} {write : Bool} (h : assigned num = false ∨ write = true ∧ 0x100 ≤ num ∧ num < 0x200) :
    (!srAssigned num || (write && decide (0x100 ≤ num) && decide (num < 0x200))) = true := by
  rw [srAssigned_eq_assigned]
  rcases h with h | ⟨rfl, hlo, hhi⟩
  · simp [h]
  · simp [hlo, hhi]

/-- The first number above the range of a context's level (R96), as the moves find it. -/
theorem top_eq (lvl : Level) : (match lvl with | .user => 0x200 | .sup => 0x400 : Nat) = if lvl = .sup then 0x400 else 0x200 := by
  cases lvl <;> rfl

theorem srAllowed_above {lvl : Level} {num : Nat} (core n : Nat) (write : Bool) (h : (if lvl = .sup then 0x400 else 0x200) ≤ num) :
    srAllowed (.ctx core n) lvl num write = some cPRIV :=
  if_pos ((top_eq lvl).le.trans h)

theorem srAllowed_within {lvl : Level} {num : Nat} {write : Bool} (core n : Nat) (h : num < if lvl = .sup then 0x400 else 0x200)
    (hd : assigned num = false ∨ write = true ∧ 0x100 ≤ num ∧ num < 0x200) : srAllowed (.ctx core n) lvl num write = some cILLEGAL :=
  (if_neg (Nat.not_le.2 (h.trans_eq (top_eq lvl).symm))).trans (if_pos (unassigned_or_readOnly hd))

theorem srAllowed_iluet {num : Nat} {write : Bool} (lvl : Level)
    (hd : assigned num = false ∨ write = true ∧ 0x100 ≤ num ∧ num < 0x200) : srAllowed .iluet lvl num write = some cILLEGAL :=
  if_pos (unassigned_or_readOnly hd)

/-! ## A move that is denied -/

/-- A move of a number that its agent may not use raises the cause with its word, and does nothing else; an agent that may not run the move at all
finds ILLEGAL. -/
theorem srMove_denied {i : Instr} {num cause : Nat} {a d : Option Nat} {f : W64 → W64 → W64} {s : State}
    (h : srAllowed s.cur (s.ctx s.cur).lvl num a.isSome = some cause) (hl : legalOn s.cur i = true ∨ cause = cILLEGAL) :
    srMove i num a d f s = .next (s.takeTrap s.cur { cause := cause, info := n64 (insWord i) }) := by
  simp only [srMove, h]
  rcases hl with hl | rfl
  · rw [if_pos hl]; rfl
  · rw [ite_self]; rfl

/-- MFS, MTS, MSET and MCLR are the moves of the number they name; a move writes it if it has a source (R95). -/
theorem exec_specialNumber {i : Instr} {num : Nat} {write : Bool} (h : specialNumber i = some (num, write)) (s : State) :
    ∃ a d f, a.isSome = write ∧ exec i s = srMove i num a d f s := by
  cases i <;> cases h
  case mfs => unfold exec execMfs; exact ⟨none, _, _, rfl, rfl⟩
  case mts => unfold exec execMts; exact ⟨some _, _, _, rfl, rfl⟩
  case mset => unfold exec execMset; exact ⟨some _, _, _, rfl, rfl⟩
  case mclr => unfold exec execMclr; exact ⟨some _, _, _, rfl, rfl⟩

/-- No special-register move belongs to the waystations alone (R333). -/
theorem isWs_of_specialNumber {i : Instr} {x : Nat × Bool} (h : specialNumber i = some x) : isWs i = false := by
  cases i <;> cases h <;> rfl

/-- The instruction of a denied move raises the cause that its agent's level, its number and its direction decide (R96). -/
theorem exec_move_denied {i : Instr} {num cause : Nat} {write : Bool} {s : State} {ag : Agent} (hi : specialNumber i = some (num, write))
    (hc : s.cur = ag) (h : srAllowed ag (s.ctx ag).lvl num write = some cause) (hl : legalOn ag i = true ∨ cause = cILLEGAL) :
    exec i s = .next (s.takeTrap ag { cause := cause, info := n64 (insWord i) }) := by
  subst hc
  obtain ⟨a, d, f, rfl, he⟩ := exec_specialNumber hi s
  rw [he, srMove_denied h hl]

/-- A number above the level's range is PRIV, another one that is denied ILLEGAL (R96). -/
theorem specialRegisterDenied : SpecialRegisterDenied := by
  intro i num write hi hwf
  refine ⟨fun s core n hc => ⟨fun ht => ?_, fun ht hd => ?_⟩, fun s hc hd => ?_⟩
  · exact exec_move_denied hi hc (srAllowed_above core n write ht) (.inl (legal_ctx hwf (isWs_of_specialNumber hi) core n))
  · exact exec_move_denied hi hc (srAllowed_within core n ht hd) (.inr rfl)
  · exact exec_move_denied hi hc (srAllowed_iluet _ hd) (.inr rfl)

/-! ## Supervisor instructions at user level (R91) -/

/-- A supervisor instruction that is legal on its context raises PRIV with its word at user level, before any other part of its issue. -/
theorem runWord_user {i : Instr} {a : Attr} {m : State → Agent → Try (State × Next)} {s : State} {core n : Nat} (hc : s.cur = .ctx core n)
    (hl : legalOn (.ctx core n) i = true) (hp : a.priv = true) (hu : (s.ctx (.ctx core n)).lvl = .user) :
    runWord i a m s = .next (s.takeTrap (.ctx core n) { cause := cPRIV, info := n64 (insWord i) }) := by
  have hi : issue i a (.ctx core n) s = .error (.trap { cause := cPRIV, info := n64 (insWord i) }) := by simp [issue, hl, hp, hu]
  rw [runWord, hc, hi]; rfl

/-- ERET, WFI, PLBW and PLBINV run as instructions for the supervisor only. -/
theorem exec_supervisorOnly {i : Instr} (h : supervisorOnly i = true) (s : State) :
    ∃ a m, a.priv = true ∧ exec i s = runWord i a m s := by
  cases i <;> cases h
  case eret => unfold exec execEret; exact ⟨_, _, rfl, rfl⟩
  case wfi => unfold exec execWfi; exact ⟨_, _, rfl, rfl⟩
  case plbw => unfold exec execPlbw; exact ⟨_, _, rfl, rfl⟩
  case plbinv => unfold exec execPlbinv; exact ⟨_, _, rfl, rfl⟩

theorem isWs_of_supervisorOnly {i : Instr} (h : supervisorOnly i = true) : isWs i = false := by
  cases i <;> cases h <;> rfl

theorem supervisorOnly_raises_priv : SupervisorOnly := by
  intro i h hwf s core n hc hu
  obtain ⟨a, m, hp, he⟩ := exec_supervisorOnly h s
  rw [he]
  exact runWord_user hc (legal_ctx hwf (isWs_of_supervisorOnly h) core n) hp hu

end Sys2Proof.Machine

/-- Settles O33, by the cause that each denied number raises, and by the test of the level at issue. -/
theorem privilegeChecks : Obligations.PrivilegeChecks := ⟨Sys2Proof.Machine.specialRegisterDenied, Sys2Proof.Machine.supervisorOnly_raises_priv⟩
end

section
/-!
PROOF. TRAP, BRK and C.BRK raise their cause as their own effect, and take its entry (R166, R168, R360, R362, R366).
-/

namespace Sys2Proof.Machine

open Sys2Proof Sys2Proof.Claims

/-! ## Entry at uvec (R168) -/

/-- A run of consecutive numbers written from a function reads as the function there, and as before elsewhere. -/
theorem look_foldl_put_range {α : Type} (d : α) (b : Nat) (f : Nat → α) (t : Tab α) (n j : Nat) :
    look d ((List.range n).foldl (fun t k => put (b + k) (f (b + k)) t) t) j = if b ≤ j ∧ j < b + n then f j else look d t j := by
  induction n with
  | zero =>
    have : ¬ (b ≤ j ∧ j < b + 0) := by omega
    rw [if_neg this]; rfl
  | succ n ih =>
    simp only [List.range_succ, List.foldl_append, List.foldl_cons, List.foldl_nil, look_put, ih]
    by_cases hj : j = b + n
    · subst hj; simp
    · have : (b ≤ j ∧ j < b + (n + 1)) ↔ (b ≤ j ∧ j < b + n) := by omega
      simp only [hj, if_false, this]

/-- Entry at uvec exchanges s24 to s31 and the loop sets with their shadows. -/
theorem Regs.exchanged_userEntry (r : Regs) (cause : Nat) (info pc : W64) : Exchanged r (r.userEntry cause info pc) where
  high k hlo hhi := by
    constructor
    · exact (look_foldl_put_range 0 24 (look 0 r.shadow) r.s 8 k).trans (if_pos ⟨hlo, hhi⟩)
    · exact (look_foldl_put_range 0 24 (look 0 r.s) r.shadow 8 k).trans (if_pos ⟨hlo, hhi⟩)
  low k hk := (look_foldl_put_range 0 24 (look 0 r.shadow) r.s 8 k).trans (if_neg fun h => by omega)
  loops := ⟨rfl, rfl, rfl, rfl⟩

theorem State.regs_userEntry (s : State) (ag : Agent) (cause : Nat) (info pc : W64) :
    (s.userEntry ag cause info pc).regs ag = (s.regs ag).userEntry cause info pc := by
  simp only [State.regs, State.userEntry, State.ctx_modCtx, Ctx.noInstr]

theorem State.lvl_userEntry (s : State) (ag : Agent) (cause : Nat) (info pc : W64) :
    ((s.userEntry ag cause info pc).ctx ag).lvl = (s.ctx ag).lvl := by
  simp only [State.userEntry, State.ctx_modCtx, Ctx.noInstr]

/-- The entry at uvec that keeps the pc is the entry of R168. -/
theorem State.userEntered_userEntry (s : State) (ag : Agent) (cause : Nat) (info : W64) :
    UserEntered s (s.userEntry ag cause info (s.regs ag).pc) ag cause info where
  saved := by rw [State.regs_userEntry]; exact ⟨rfl, rfl, rfl, rfl⟩
  exchange := by rw [State.regs_userEntry]; exact Regs.exchanged_userEntry ..
  target := by rw [State.regs_userEntry]; rfl
  beside := by rw [State.regs_userEntry]; rfl
  level := State.lvl_userEntry ..
  memory := State.byte_modCtx s ag _

/-! ## Entry at svec (R360) -/

@[simp] theorem Ctx.r_pauseDeadline (c : Ctx) (now : Nat) : (c.pauseDeadline now).r = c.r := by
  unfold Ctx.pauseDeadline; split <;> rfl
@[simp] theorem Ctx.lvl_pauseDeadline (c : Ctx) (now : Nat) : (c.pauseDeadline now).lvl = c.lvl := by
  unfold Ctx.pauseDeadline; split <;> rfl

/-- sstat at an entry: crit, the level before in ppl, and sie in psie. -/
theorem statEntry_eq (st : W64) (lvl : Level) :
    statEntry st (lvl = .sup) = BitVec.ofNat 64 (8 + (if lvl = .sup then 4 else 0) + (if bit st.toNat 0 then 2 else 0)) := by
  simp only [statEntry, n64, decide_eq_true_eq]
  congr 1
  omega

theorem State.regs_supEntry (s : State) (ag : Agent) (cause detail : Nat) (info pc : W64) (async : Bool) :
    (s.supEntry ag cause detail info pc async).regs ag = (s.regs ag).supEntry (s.ctx ag).lvl cause detail info pc async := by
  simp only [State.regs, State.supEntry, State.ctx_modCtx, Ctx.noInstr, Ctx.r_pauseDeadline, Ctx.lvl_pauseDeadline]

/-- The entry at svec that keeps the pc is the entry of R360. -/
theorem State.supervisorEntered_supEntry (s : State) (ag : Agent) (cause detail : Nat) (info : W64) (async : Bool) :
    SupervisorEntered s (s.supEntry ag cause detail info (s.regs ag).pc async) ag cause detail info async where
  regs := by rw [State.regs_supEntry, Regs.supEntry, statEntry_eq]; rfl
  level := by simp only [State.supEntry, State.ctx_modCtx]
  memory := State.byte_modCtx s ag _

/-! ## A trap between two chunks -/

/-- A context put back as it stands is seen by no update of it. -/
theorem State.modCtx_setCtx_self (s : State) (ag : Agent) (f : Ctx → Ctx) : (s.setCtx ag (s.ctx ag)).modCtx ag f = s.modCtx ag f := by
  simp only [State.modCtx, State.ctx_setCtx, State.setCtx_setCtx]

theorem State.supEntry_setCtx_self (s : State) (ag : Agent) (cause detail : Nat) (info pc : W64) (async : Bool) :
    (s.setCtx ag (s.ctx ag)).supEntry ag cause detail info pc async = s.supEntry ag cause detail info pc async := by
  simp only [State.supEntry, State.modCtx_setCtx_self, State.setCtx_time]

theorem State.userEntry_setCtx_self (s : State) (ag : Agent) (cause : Nat) (info pc : W64) :
    (s.setCtx ag (s.ctx ag)).userEntry ag cause info pc = s.userEntry ag cause info pc :=
  State.modCtx_setCtx_self ..

section Taken
variable {s : State} {core n : Nat} {t : Trap} (h : Between s core n) (ht : (s.regs (.ctx core n)).tpend = []) (hp : t.plb = none)
include h ht hp

/-- At user level, with no handler running, a cause that uie routes enters at uvec (R166, R168). -/
theorem takeTrap_user_routed (hu : (s.ctx (.ctx core n)).lvl = .user) (ha : (s.regs (.ctx core n)).act = false)
    (hr : routed (s.regs (.ctx core n)) t.cause = true) : UserEntered s (s.takeTrap (.ctx core n) t) (.ctx core n) t.cause t.info := by
  have e : s.takeTrap (.ctx core n) t = s.userEntry (.ctx core n) t.cause t.info (s.regs (.ctx core n)).pc := by
    rw [← State.userEntry_setCtx_self, takeTrap_between h ht hp]
    unfold State.regs at ha hr ⊢
    simp [State.deliver, hu, ha, hr]
  exact e ▸ State.userEntered_userEntry ..

/-- At user level, with no handler running, any other cause enters at svec (R360). -/
theorem takeTrap_user_unrouted (hu : (s.ctx (.ctx core n)).lvl = .user) (ha : (s.regs (.ctx core n)).act = false)
    (hr : routed (s.regs (.ctx core n)) t.cause = false) :
    SupervisorEntered s (s.takeTrap (.ctx core n) t) (.ctx core n) t.cause t.detail t.info false := by
  have e : s.takeTrap (.ctx core n) t = s.supEntry (.ctx core n) t.cause t.detail t.info (s.regs (.ctx core n)).pc false := by
    rw [← State.supEntry_setCtx_self, takeTrap_between h ht hp]
    unfold State.regs at ha hr ⊢
    simp [State.deliver, hu, ha, hr]
  exact e ▸ State.supervisorEntered_supEntry ..

/-- At supervisor level, with crit clear, a cause enters at svec again (R362). -/
theorem takeTrap_sup (hl : (s.ctx (.ctx core n)).lvl = .sup) (hc : bit (s.regs (.ctx core n)).sstat.toNat 3 = false) :
    SupervisorEntered s (s.takeTrap (.ctx core n) t) (.ctx core n) t.cause t.detail t.info false := by
  have e : s.takeTrap (.ctx core n) t = s.supEntry (.ctx core n) t.cause t.detail t.info (s.regs (.ctx core n)).pc false := by
    rw [← State.supEntry_setCtx_self, takeTrap_between h ht hp]
    unfold State.regs at hc ⊢
    simp [State.deliver, hl, hc]
  exact e ▸ State.supervisorEntered_supEntry ..

end Taken

/-! ## TRAP, BRK and C.BRK (R366) -/

/-- The trap of an instruction that raises `cause` with `info`. -/
def softwareTrap (cause info : Nat) : Trap := { cause := cause, info := n64 info }

/-- TRAP, BRK and C.BRK do nothing but raise their cause. -/
theorem exec_softTrap {i : Instr} {cause info : Nat} (h : softTrap i = some (cause, info)) (s : State) :
    exec i s = runWord i { cls := none } (fun _ _ => .error (.trap (softwareTrap cause info))) s := by
  cases i <;> cases h
  case trap => unfold exec execTrap; rfl
  case brk => unfold exec execBrk; rfl
  case cBrk => unfold exec execCBrk; rfl

theorem isWs_of_softTrap {i : Instr} {x : Nat × Nat} (h : softTrap i = some x) : isWs i = false := by
  cases i <;> cases h <;> rfl

theorem exec_softTrap_takeTrap {i : Instr} {cause info : Nat} (h : softTrap i = some (cause, info)) (hwf : i.WF) {s : State} {core n : Nat}
    (hs : Plain s core n) : exec i s = .next (s.takeTrap (.ctx core n) (softwareTrap cause info)) :=
  calc exec i s
      = settle s (.ctx core n) (.error (.trap (softwareTrap cause info))) := by
        rw [exec_softTrap h]
        exact runWord_stop hs (legal_ctx hwf (isWs_of_softTrap h) core n) (by simp) (by simp [Present]) rfl rfl rfl
    _ = _ := rfl

/-- A trapping instruction raises SYSCALL, which goes to the supervisor alone, or BRK, which bit 17 of uie routes (R166, R366). -/
theorem routed_softTrap {i : Instr} {cause info : Nat} (h : softTrap i = some (cause, info)) (r : Regs) :
    cause = 0x12 ∧ routed r cause = false ∨ cause = 0x11 ∧ routed r cause = bit r.uie.toNat 17 := by
  cases i <;> cases h
  case trap => exact .inl ⟨rfl, rfl⟩
  case brk => exact .inr ⟨rfl, rfl⟩
  case cBrk => exact .inr ⟨rfl, rfl⟩

theorem not_routed_of_softTrap {i : Instr} {cause info : Nat} (h : softTrap i = some (cause, info)) {r : Regs}
    (hc : cause = 0x12 ∨ bit r.uie.toNat 17 = false) : routed r cause = false := by
  rcases routed_softTrap h r with ⟨-, hr⟩ | ⟨rfl, hr⟩
  · exact hr
  · exact hr.trans (hc.resolve_left (by decide))

theorem routed_of_softTrap_brk {i : Instr} {cause info : Nat} (h : softTrap i = some (cause, info)) {r : Regs}
    (hc : cause = 0x11) (hb : bit r.uie.toNat 17 = true) : routed r cause = true := by
  rcases routed_softTrap h r with ⟨rfl, -⟩ | ⟨-, hr⟩
  · exact absurd hc (by decide)
  · exact hr.trans hb

end Sys2Proof.Machine

open Sys2Proof Sys2Proof.Machine Sys2Proof.Claims

/-- Settles O29: the instruction raises its cause and does nothing else, and uie or the level picks the entry that the trap takes. -/
theorem softwareTraps : Obligations.SoftwareTraps := by
  intro i cause info hi hwf
  refine ⟨fun s core n hs hu ha ht => ⟨fun hc => ?_, fun hc hb => ?_⟩, fun s core n hs hl hcrit ht => ?_⟩ <;>
    refine ⟨_, exec_softTrap_takeTrap hi hwf hs.toPlain, ?_⟩
  · exact takeTrap_user_unrouted hs ht rfl hu ha (not_routed_of_softTrap hi hc)
  · exact takeTrap_user_routed hs ht rfl hu ha (routed_of_softTrap_brk hi hc hb)
  · exact takeTrap_sup hs ht rfl hl hcrit
end
